-- ==== Sys2Proof/Word.lean ====
section
/-! DEFINITION. The word types of the hub: registers are 32 bits wide (R4), lanes and flash carry bytes. -/

namespace Sys2Proof

/-- One 32-bit register or bus word (R4). -/
abbrev Word := BitVec 32

/-- One byte of a frame, an image or the flash. -/
abbrev Byte := BitVec 8

end Sys2Proof
end

