-- ==== Sys2Proof/Syntax.lean ====
section
/-! DEFINITION. The commands of the hub and their operands. -/

namespace Sys2Proof

/-- The codes a cell's converters give in a sample period (R71). -/
structure Conversion where
  cell : Fin 408
  hg : BitVec 14
  lg : BitVec 14
  deriving DecidableEq, Repr

/-- What the hub's own measuring circuits find: the BXC frequency in Hz (R58), the phase of B minus A in ps (R30), the
island temperature and the heater power (R66, R67), a die temperature (R302) and an excitation (R282). -/
inductive Measure where
  | bxc (hz : Word)
  | abOffset (ps : Word)
  | island (centi : BitVec 16)
  | heater (mw : Fin 201)
  | die (region : Fin 6) (centi : BitVec 16)
  | excitation (e : Fin 8) (mv : BitVec 16) (current : BitVec 16)
  deriving DecidableEq, Repr

/-- How a popped queue word checks (R489, R490). -/
inductive QErr where
  | good
  | corrected
  | uncorrectable
  deriving DecidableEq, Repr

/-- The sums of a pass of the calibration steps: H0, H2, H3 and L2 to L6 (R287, R288). -/
structure StepSums where
  h0 : BitVec 27
  h2 : BitVec 27
  h3 : BitVec 27
  l2 : BitVec 27
  l3 : BitVec 27
  l4 : BitVec 27
  l5 : BitVec 27
  l6 : BitVec 27
  deriving DecidableEq, Repr

/-- The time of a frame on the balls of a receive lane: its 16 groups of ten bits abcdei fghj, bit a, which comes
first, the most significant (R306); and when the edge that an echo reply is timed by came, the comma of a downlink frame
or the echo character of a leaf's, in ps after the request that is out (R246, R248). -/
structure RxFrame where
  groups : List (BitVec 10)
  sinceEcho : Word
  deriving DecidableEq, Repr

/-- A memory error met in a group of a cell's ring (R163, R164). -/
structure RingError where
  cell : Fin 408
  group : Fin 512
  uncorrectable : Bool
  deriving DecidableEq, Repr

/-- An uncorrectable error in a word of the hit store of a channel (R167): the place counts from the newest hit. -/
structure HitError where
  channel : Fin 384
  place : Fin 256
  deriving DecidableEq, Repr

/-- The three snapshots of a TDC's ring oscillator (R233). -/
structure Snapshots where
  sh : BitVec 20
  s1 : BitVec 20
  s2 : BitVec 20
  deriving DecidableEq, Repr

/-- A signal at a discriminator, in high-gain codes (R80): the furthest level on the side where the discriminator rearms
since the last crossing, and the level it goes to. At a time input only the direction counts. -/
structure Swing where
  start : Int
  stop : Int
  deriving DecidableEq, Repr

/-- A group of a cell's ring (R163). -/
structure RingGroup where
  cell : Fin 408
  group : Fin 512
  deriving DecidableEq, Repr

/-- An edge that an interval engine can take: its source as START_SRC and STOP_SRC code it, and its direction (R243). -/
structure Edge where
  source : Fin 10
  falling : Bool
  deriving DecidableEq, Repr

/-- An edge and its time value (R243). -/
structure TimedEdge where
  edge : Edge
  value : BitVec 63
  deriving DecidableEq, Repr

/-- The code to which the input of a window comparator moves, in the format of its channel (R275). -/
structure WindowInput where
  window : Fin 16
  code : BitVec 12
  deriving DecidableEq, Repr

/-- The header of a serial transaction: the identity it addresses and the register address (R434). -/
structure PortHead where
  id : BitVec 6
  addr : Word
  deriving DecidableEq, Repr

/-- What flash discovery reads: the bytes that answer 0x9F, the SFDP signature, the words of the first parameter header,
and the basic parameter table (R449, R450). -/
structure FlashTables where
  id : BitVec 24
  signature : Word
  head0 : Word
  head1 : Word
  table : List Word
  deriving DecidableEq, Repr

/-- The keepers that claim the hasp in one cycle (R462). -/
structure Claimants where
  a : Bool
  b : Bool
  deriving DecidableEq, Repr

/-- What a keeper's self-check finds: its result, and how many SRAM errors the keeper has corrected since its last
report (R474). -/
structure SelfCheck where
  pass : Bool
  corrected : BitVec 16
  deriving DecidableEq, Repr

/-- One register of an access to a leaf window. -/
inductive Access where
  | read
  | write (v : Word)
  deriving DecidableEq, Repr

/-- A configuration frame (R388). -/
inductive FrameId where
  | chip (page : Fin 2)
  | region (r : Fin 6)
  | block (j : Fin 24)
  | cell (j : Fin 24) (c : Fin 17)
  | trellis (page : Fin 8)
  | laneMap
  | spokeMap
  deriving DecidableEq, Repr

/-- The commands of the hub, one constructor per row of the command table: what a host, a leaf, a keeper, a pin or
the hub's own sequencers do to it. `m` names a bus master: 0 downlink control, 1 serial port, 2 and 3 the keepers. -/
inductive Instr where
  -- Bus, alarm and queue commands (01, 18)
  /-- A master writes one register (R6). -/
  | registerWrite (m : Fin 4) (addr v : Word)
  /-- A master reads the +0 half of a 64-bit value, which loads its shadow (R447). -/
  | read64Low (m : Fin 4) (addr : Word)
  /-- A master writes +0 and +4 of a 64-bit value, which acts as one write (R448). -/
  | write64Pair (m : Fin 4) (addr lo hi : Word)
  /-- The alarm forwarder sends the oldest record of the ALARM queue (R15). -/
  | alarmForward
  /-- The active keeper sends KEEPER_HEALTH (R17). -/
  | keeperHealth
  /-- The active keeper sends the SUMMARY units of 10 ms (R17). -/
  | summary
  /-- A producer pushes a word with its MARK; `pop`: a pop is coincident (R487). -/
  | queuePush (q : Fin 8) (data : Word) (mark pop : Bool)
  /-- A consumer pops a word, which `err` says how it checks (R486, R489, R490). -/
  | queuePop (q : Fin 8) (err : QErr)
  /-- Q_CTRL.FLUSH is written (R491). -/
  | queueFlush (m : Fin 4) (q : Fin 8)
  -- Commands of the time base (02)
  /-- The CONTROL oscillator stops and its duplicate takes over (R19). -/
  | ctlOscSwap
  /-- The gazebo oscillator stops outside GAZEBO (R19). -/
  | gzbStop
  /-- The end of a BX in which the selected downlink failed (R28). -/
  | downlinkSwitch
  /-- The preferred downlink has been good for 1 s (R31). -/
  | downlinkRevert
  /-- The BX boundary at which a changed DL_SEL takes effect (R32). -/
  | clkDlSelWrite
  /-- HOLD_FORCE is set or cleared (R59). -/
  | clkHoldForce (m : Fin 4) (on : Bool)
  /-- CLK_CTRL.RELOCK is written (R34). -/
  | clkRelock (m : Fin 4)
  /-- The planned re-lock completes (R34). -/
  | relockDone
  /-- The ocxo_warm input changes level (R33). -/
  | ocxoWarmChange (warm : Bool)
  /-- ocxo_clk shows no edge for 1 µs (R19, R33, R39). -/
  | refLost
  /-- ocxo_clk is measured at `hz` against the recovered BXC (R33). -/
  | refFreqCheck (hz : Word)
  /-- REF_COLD clears once no condition of R33 holds (R34). -/
  | refColdClear
  /-- Edges return on ocxo_clk (R39). -/
  | refReturn
  /-- No downlink was good 100 ms after boot step 1 (R35). -/
  | localModeEnter
  /-- A downlink with BXC `hz` becomes good in local mode (R35). -/
  | localModeExit (hz : Word)
  /-- 100 ms of holdover have passed (R37). -/
  | holdoverLong
  /-- A good downlink is available in holdover, `err` ps away in phase (R38). -/
  | holdoverExit (err : Int)
  /-- The slew to the downlink completes (R38). -/
  | holdoverSlewDone
  /-- The BX boundary of a phase step (R38). -/
  | holdoverPhaseStep
  /-- The PLL has been locked for 10 s with REF_COLD = 0 (R36). -/
  | holdoverQualified
  /-- The MACHINE PLL first locks after reset, to a BXC of `hz` (R60, R146). -/
  | machinePllLock (hz : Word)
  /-- The BX_SET fast command acts (R40 to R42, R183, R358, R407). -/
  | bxSet
  -- Alignment and orangery commands (02)
  /-- COMPUTE is written (R46, R48). -/
  | alignCompute (m : Fin 4)
  /-- ARM is written (R49). -/
  | alignArm (m : Fin 4)
  /-- CANCEL is written (R64). -/
  | alignCancel (m : Fin 4)
  /-- The armed BX begins (R49 to R51, R170, R176, R375). -/
  | alignApply
  /-- ORG_CTRL is written (R57, R65). -/
  | orgCtrlWrite (m : Fin 4) (en : Bool) (setpoint : BitVec 10)
  /-- The island has been within ±0.05 K for 10 ms (R55). -/
  | orgWarmAssert
  /-- The island has been outside ±0.05 K for 1 ms (R55). -/
  | orgWarmDeassert
  -- Commands of the signal cells (03)
  /-- GAIN_MODE, AAF_BW, TERM and the trims take effect (R70, R76). -/
  | cellFrontEndChange (j : Fin 24) (c : Fin 17)
  /-- CELL_CTRL.EN takes effect (R77). -/
  | cellEnableChange (j : Fin 24) (c : Fin 17)
  /-- A converter of the cell shows a redundancy error (R83, R84). -/
  | cellRedundError (j : Fin 24) (c : Fin 17)
  /-- A 1 ms health window ends (R84). -/
  | cellHealthWindowEnd (j : Fin 24) (c : Fin 17)
  /-- CELL_HEALTH.CLEAR is written (R84, R94). -/
  | cellHealthClear (m : Fin 4) (j : Fin 24) (c : Fin 17)
  /-- CELL_DISC.EN takes effect with the signal at `level`, a high-gain code (R80, R81). -/
  | discEnableChange (j : Fin 24) (c : Fin 16) (level : Int)
  /-- THRESH, HYST and POL take effect; at the end of the blanked sample period the signal is at `level` (R80, R82).
  -/
  | discSettingsChange (j : Fin 24) (c : Fin 16) (level : Int)
  -- Commands of the spares and hinges (04)
  /-- HNG_MOVE SHADOW is written (R112). -/
  | hngMoveShadow (m : Fin 4) (j : Fin 24) (t : BitVec 5)
  /-- HNG_MOVE COVER is written (R112). -/
  | hngMoveCover (m : Fin 4) (j : Fin 24) (t : BitVec 5)
  /-- HNG_MOVE RETIRE is written (R112). -/
  | hngMoveRetire (m : Fin 4) (j : Fin 24) (t : BitVec 5)
  /-- HNG_MOVE CALIBRATE is written (R112). -/
  | hngMoveCalibrate (m : Fin 4) (j : Fin 24) (t : BitVec 5)
  /-- HNG_MOVE RETIRE with TARGET 16 is written (R118). -/
  | spareRetire (m : Fin 4) (j : Fin 24)
  /-- HNG_MOVE SHADOW with TARGET 16 is written (R118). -/
  | spareRestore (m : Fin 4) (j : Fin 24)
  /-- The discharge of a move ends (R100). -/
  | hingeDischargeDone (j : Fin 24)
  /-- The settling of a move ends (R100, R102, R112). -/
  | hingeSettled (j : Fin 24)
  /-- A dwell ends (R103 to R105). -/
  | dwellEnd (j : Fin 24)
  /-- HNG_COMMIT TO_SPARE is written (R110). -/
  | hngCommitToSpare (m : Fin 4) (j : Fin 24) (c : Fin 16)
  /-- HNG_COMMIT BACK is written (R110). -/
  | hngCommitBack (m : Fin 4) (j : Fin 24) (c : Fin 16)
  /-- The BX boundary of a handover (R107 to R111). -/
  | handover (j : Fin 24)
  /-- The use being ended reaches its safe point (R113). -/
  | spareUseSafePoint (j : Fin 24)
  /-- The block self-check fails (R122). -/
  | blockSelfFail (j : Fin 24)
  /-- BLK_CTRL.RESET is written (R505). -/
  | blockReset (m : Fin 4) (j : Fin 24)
  -- Commands of the filter chain (05)
  /-- CELL_DLY takes effect (R132, R133). -/
  | delayChange (j : Fin 24) (c : Fin 16)
  /-- A SWAP with FORCE = 0 is taken up (R147, R148). -/
  | fltSwap (record : Bool) (j : Fin 24) (c : Fin 16)
  /-- A SWAP with FORCE = 1 is taken up (R148). -/
  | fltSwapForce (record : Bool) (j : Fin 24) (c : Fin 16)
  /-- A fade has given all its outputs (R147). -/
  | fadeEnd (record : Bool) (j : Fin 24) (c : Fin 16)
  /-- A record output instant (R150, R152). -/
  | recordBlock
  /-- The REC_SYNC fast command acts (R145). -/
  | recSync
  /-- CREC_CTRL.RESTART is written (R146). -/
  | crecRestart (m : Fin 4)
  -- Trigger commands (06)
  /-- The ACCEPT fast command acts (R172). -/
  | accept
  /-- The trigger bus is sampled high (R174). -/
  | tbTrigger
  /-- The conditions of a label BX are decided (R175 to R180). -/
  | trellisDecision
  /-- The bus is driven, or a drive is late (R173). -/
  | tbDrive
  /-- The allocation cycle of a BX (R181, R184, R185, R377). -/
  | slotAllocation
  /-- The BX at which EVT_LOAD acts (R183). -/
  | trgEvtLoad
  /-- The BX at which CLR_DT acts (R191). -/
  | trgClrDt
  /-- BLK_SNAP_CTRL.ARM is written (R188). -/
  | snapArm (m : Fin 4) (j : Fin 24)
  /-- BLK_SNAP_CTRL.FREEZE is written (R188). -/
  | snapFreeze (m : Fin 4) (j : Fin 24)
  /-- BLK_SNAP_CTRL.RELEASE is written (R189). -/
  | snapRelease (m : Fin 4) (j : Fin 24)
  /-- The freeze trigger's post-samples have committed (R188). -/
  | snapFrozen (j : Fin 24)
  -- Event building commands (06, 07)
  /-- The blocks extract the event of slot `k`; `errs` and `lost` are the memory errors met in rings and hit stores
  (R167, R186, R187). -/
  | extractionStart (k : Fin 128) (errs : List RingError) (lost : List HitError)
  /-- The block arbiter scrubs one group; `err`: an error found, and whether it cannot be corrected (R165). -/
  | ringScrub (j : Fin 24) (err : Option Bool)
  /-- A diagnostic read of a ring requests a grant; `corrected` and `lost` are the groups it reads with an error
  that could be corrected, and with one that could not (R164, R166, R216, R230). -/
  | diagRingRead (m : Fin 4) (j : Fin 24) (c : Fin 17) (w : Fin 1024) (corrected lost : List RingGroup)
  /-- The region assembles a fragment (R217). -/
  | fragmentAssembly (g : Fin 6)
  /-- A unit of requester `k` has left (R221). -/
  | unitSent (k : Fin 14)
  /-- The release handshake of a slot (R221). -/
  | slotRelease (k : Fin 128)
  /-- A slot has exceeded EVT_SLOT_TIMEOUT (R224). -/
  | eventClose (k : Fin 128)
  /-- RGN_CTRL.RESET is written (R225). -/
  | regionReset (m : Fin 4) (g : Fin 6)
  /-- The region reset takes effect (R225). -/
  | regionResetEffect (g : Fin 6)
  /-- The leaf fragment of a slot and spoke is completed (R215, R378). -/
  | leafFragmentComplete (k : Fin 128) (sp : Fin 16)
  -- TDC commands (08)
  /-- A signal moves in event-clock period `q`: cells are 0 to 407, tin_i is 408 + i (R80, R233 to R238, R242,
  R243). -/
  | tdcHit (id : Fin 412) (q : Fin 4) (snap : Snapshots) (move : Swing)
  /-- TDC_CFG.EN takes effect (R238). -/
  | tdcEnableChange (j : Fin 24) (c : Fin 17)
  /-- The density oscillator takes a snapshot (R239). -/
  | cdSnapshot (t : Fin 28) (bin : Fin 1024) (q : Fin 4)
  /-- A table of 2^20 snapshots is judged (R240). -/
  | cdTableComplete (t : Fin 28)
  /-- TDC_TIN_FIFO is read at +0 (R242). -/
  | tinFifoPop (m t : Fin 4)
  /-- TDC_LAST is read at +0 (R254). -/
  | tdcLastRead (m : Fin 4) (j : Fin 24) (c : Fin 17)
  -- Interval, round-trip and frequency commands (08)
  /-- IVL_CTRL.ARM is written (R243). -/
  | ivlArm (m e : Fin 4)
  /-- IVL_CTRL.CANCEL is written (R257). -/
  | ivlCancel (m e : Fin 4)
  /-- An edge at time value `v` is the first of an armed engine that takes it (R243). -/
  | ivlFirstEdge (e : Fin 4) (edge : Edge) (v : BitVec 63)
  /-- An edge is the second of an engine that waits for it (R243, R244). -/
  | ivlResult (e : Fin 4) (x : TimedEdge)
  /-- 2^24 sample periods have passed since the first edge (R244). -/
  | ivlOvf (e : Fin 4)
  /-- A round-trip measurement is due (R247). -/
  | rttMeasureStart
  /-- The echo reply arrives `ps` after its request (R246 to R248). -/
  | rttEchoReply (ps : Word)
  /-- A measurement has no reply after 1 ms (R247). -/
  | rttTimeout
  /-- FRQ_CTRL.START is written (R249). -/
  | frqStart (m : Fin 4)
  /-- FRQ_CTRL.CANCEL is written (R259). -/
  | frqCancel (m : Fin 4)
  /-- The gate closes after `n` edges and `ticks` units of 1/256 cycle (R249). -/
  | frqDone (n : Word) (ticks : BitVec 64)
  /-- No edge opens or closes the gate in time (R250). -/
  | frqNoEdge (n : Word)
  -- Monitor and excitation commands (09)
  /-- The sequencer's period begins (R264). -/
  | monScanStart
  /-- The conversion of converter `k` ends with `code` (R263, R270). -/
  | monConversionDone (k : Fin 2) (code : BitVec 12)
  /-- The open window of a held result ends (R269). -/
  | monResultRelease (k : Fin 2)
  /-- MON_URGENT.GO is written (R266). -/
  | monUrgentGo (m : Fin 4) (ch : BitVec 6)
  /-- The monitor forwarder sends the oldest record (R274). -/
  | monForward
  /-- A comparator's input moves: outside its window it is a crossing (R275). -/
  | monWindowCrossing (x : WindowInput)
  /-- A comparator's input moves: inside its window by HYST, it rearms the comparator (R275). -/
  | monWindowRearm (x : WindowInput)
  /-- EXC_CFG takes effect at a microsecond tick (R267). -/
  | excChange (e : Fin 8)
  /-- 10 µs have passed since an excitation change (R267). -/
  | excBlankEnd (e : Fin 8)
  /-- BREAK, or LIMIT, is seen (R268). -/
  | excComplianceLoss (e : Fin 8) (limit : Bool)
  /-- Compliance returns (R268). -/
  | excComplianceReturn (e : Fin 8)
  /-- A monitor converter has converted 0 V and the level of range `g` 16 times each; the operands are the sums of
  its codes (R298). -/
  | monCalibration (k g : Fin 2) (low level : BitVec 16)
  -- Calibration commands (10)
  /-- vref_cal is compared, every 1 ms or at a step of a block's calibration (R285, R291). -/
  | calRefCheck (step : Option (Fin 24)) (bad : Bool)
  /-- The keeper starts the block's engine (R287). -/
  | calEngineStart (j : Fin 24) (c : Fin 17)
  /-- A calibration phase completes with its sums (R287 to R290) or its skew difference (R297). -/
  | calPhaseEnd (j : Fin 24) (sums : StepSums) (diff : Int)
  /-- CAL_CTRL.SWEEP is executed as a keeper command (R293, R471). -/
  | calSweep (m : Fin 4)
  /-- CAL_REQ is executed as a keeper command (R294, R471). -/
  | calReq (m : Fin 4) (j : Fin 24) (c : Fin 17)
  /-- The keepers queue cells whose region has moved (R293, R295). -/
  | calTempCheck
  /-- MAX_AGE_S has passed since the cell's acceptance (R293). -/
  | calAgeExpiry (j : Fin 24) (c : Fin 17)
  /-- The CAL_STROBE fast command acts (R299). -/
  | calStrobe
  /-- The BX of a scheduled test pulse begins (R299). -/
  | calPulseInject
  -- Lane commands (11)
  /-- EN of a lane is set (R311). -/
  | laneEnable (m : Fin 4) (l : Fin 30)
  /-- EN of a lane is cleared (R321). -/
  | laneDisable (m : Fin 4) (l : Fin 30)
  /-- RETRAIN of a lane is written (R326). -/
  | laneRetrain (m : Fin 4) (l : Fin 30)
  /-- LOOP of a lane is written (R322). -/
  | laneLoop (m : Fin 4) (l : Fin 30) (mode : BitVec 2)
  /-- The backoff wait of a lane ends (R313). -/
  | trainBackoffEnd (l : Fin 30)
  /-- A receive lane sees signal (R313). -/
  | signalDetectRise (l : Fin 18)
  /-- The comma is found (R311). -/
  | trainCommaFound (l : Fin 18)
  /-- 1,024 symbols came without error (R311). -/
  | trainSymbolLock (l : Fin 18)
  /-- The comma stood in 8 frames (R311). -/
  | trainFrameLock (l : Fin 18)
  /-- Adaptation ends, `eyes` the opening at each of the 32 steps, or the fixed step is applied (R309). -/
  | trainEqDone (l : Fin 18) (eyes : List (BitVec 8))
  /-- Identity exchange completes (R315). -/
  | trainIdentDone (l : Fin 30)
  /-- UP was not reached in 2 ms (R312). -/
  | trainTimeout (l : Fin 30)
  /-- A receive lane loses signal, where `los`, or clock-recovery lock (R314). -/
  | laneSignalLoss (l : Fin 18) (los : Bool)
  /-- Four frames came without the comma (R314). -/
  | laneFrameLockLoss (l : Fin 18)
  /-- The eye monitor of a receive lane (R309). -/
  | eyeUpdate (l : Fin 18) (eye : BitVec 8)
  /-- The driver monitor sees an open or short (R317). -/
  | ulTxFault (l : Fin 12)
  /-- An active uplink had no acknowledgement for 32 µs while a downlink is UP (R317). -/
  | ulAckTimeout (l : Fin 12)
  /-- The spare takes over lost lane `l` (R318, R319). -/
  | ulSpareTakeover (l : Fin 12)
  /-- UL_SPARE.LANE is written (R321). -/
  | ulPlannedMove (m : Fin 4) (l : BitVec 4)
  /-- The moved lane has no unit in progress (R321). -/
  | ulPlannedMoveDone (l : Fin 12)
  /-- UL_COMMON_CTRL.RELOCK is written (R307). -/
  | ulRelock (m : Fin 4)
  /-- LANE_LOCK is lost (R317). -/
  | lanePllLockLoss
  /-- LANE_LOCK returns (R307). -/
  | lanePllLock
  /-- One frame slot of an uplink (R218, R347, R349). -/
  | uplinkFrame (l : Fin 12)
  -- Downlink frames, fast commands and items (12)
  /-- The frames of one BX on both downlinks (R28, R29, R330, R337; in GAZEBO R503). -/
  | dlFrame (a b : Option RxFrame)
  /-- A frame with CODE ECHO and an ECHO item with number `n` (R348). -/
  | echo (n ps : Word)
  /-- The HARD_RESET fast command is decoded (R335). -/
  | hardReset
  /-- The RUN_START fast command acts (R334). -/
  | runStart
  /-- The RUN_STOP fast command acts (R334). -/
  | runStop
  /-- The APPLY fast command acts (R404, R408). -/
  | apply
  /-- A good frame with CODE WAKE on downlink `d`; outside GAZEBO it has no effect (R334, R503). -/
  | wake (d : Fin 2)
  /-- READ_INC of COUNT + 1 registers (R342, R343). -/
  | dlReadInc (mode : Fin 3) (target tag : BitVec 8) (addr : Word) (count : Fin 64)
  /-- READ_FIX of one address COUNT + 1 times (R342). -/
  | dlReadFix (mode : Fin 3) (target tag : BitVec 8) (addr : Word) (count : Fin 64)
  /-- WRITE_INC of COUNT + 1 registers (R342). -/
  | dlWriteInc (mode : Fin 3) (target tag : BitVec 8) (addr : Word) (count : Fin 64) (data : List Word)
  /-- WRITE_FIX of one address COUNT + 1 times (R342). -/
  | dlWriteFix (mode : Fin 3) (target tag : BitVec 8) (addr : Word) (count : Fin 64) (data : List Word)
  /-- MODIFY (R342, R541). -/
  | dlModify (mode : Fin 3) (target tag : BitVec 8) (addr : Word) (count : Fin 64) (mask v : Word)
  /-- An UL_ACK item, lane and count of each word (R346). -/
  | ulAck (acks : List (Fin 12 × BitVec 16))
  /-- A LANE_BAD item (R317, R346). -/
  | laneBad (l : BitVec 4)
  /-- A RESEND item (R347). -/
  | resend (l : BitVec 4) (first : Word)
  /-- A HOST_IDENT item on downlink `d` (R315, R346). -/
  | hostIdent (d : Fin 2) (id : Word) (sentOn : Fin 2)
  /-- An UL_IDENT_ACK item (R315). -/
  | ulIdentAck (l : BitVec 4)
  /-- DL_HRST_ARM.ARM is written (R335). -/
  | hrstArm (m : Fin 4)
  /-- 1 s has passed since the arming (R335). -/
  | hrstArmExpire
  -- Spoke and leaf commands (13)
  /-- An upstream frame arrives (R306, R322, R354, R355, R358). -/
  | spokeUpstreamFrame (sp : Fin 16) (f : RxFrame)
  /-- A LEAF_IDENT item (R365, R366). -/
  | leafIdent (sp : Fin 16) (words : List Word)
  /-- A REPLY item of the leaf (R362). -/
  | leafReply (sp : Fin 16) (tag : BitVec 8) (status : Fin 16) (data : List Word)
  /-- An ALARM item of the leaf (R360). -/
  | leafAlarm (sp : Fin 16) (word : Word)
  /-- A leaf record whose header word completed in upstream frame `n` (R373 to R377). -/
  | leafRecord (sp : Fin 16) (header : Word) (hits : List Word) (n : BitVec 16)
  /-- 256 µs have passed in IDENT (R366). -/
  | hubIdentResend (sp : Fin 16)
  /-- LEAF_CTRL.SYNC is written (R358). -/
  | leafSync (m : Fin 4) (sp : Fin 16)
  /-- Upstream frame MAXLAG + 1 has arrived (R358). -/
  | leafSyncDone (sp : Fin 16)
  /-- LEAF_CTRL.RESET is written (R353). -/
  | leafReset (m : Fin 4) (sp : Fin 16)
  /-- The spoke is UP, synchronised and measured (R367, R375). -/
  | leafPresent (sp : Fin 16)
  /-- An access to a leaf window (R369 to R371). -/
  | leafWindowAccess (m : Fin 4) (addr : Word) (ops : List Access)
  /-- The oldest request has waited LEAF_CTL_TIMEOUT (R370). -/
  | leafRequestTimeout (sp : Fin 16)
  /-- LEAF_BCAST_CTRL.GO is written (R372). -/
  | leafBcastGo (m : Fin 4)
  /-- Records leave the hold store (R377). -/
  | leafHoldExpire (sp : Fin 16)
  /-- A CAL_STROBE or REC_SYNC of this BX is forwarded to the leaves (R379). -/
  | leafForwardCommand (cal rsync : Bool)
  /-- A 1 ms window of faults ends (R380). -/
  | leafIsolationCheck
  -- Configuration commands (14)
  /-- CFG_CTRL.BEGIN is written (R401). -/
  | cfgBegin (m : Fin 4)
  /-- CFG_CTRL.DISCARD is written (R401). -/
  | cfgDiscard (m : Fin 4)
  /-- CFG_CTRL.ARM is written (R407). -/
  | cfgArm (m : Fin 4)
  /-- CFG_CTRL.CANCEL is written (R407). -/
  | cfgCancel (m : Fin 4)
  /-- CFG_CTRL.APPLY_NOW is written (R404, R407). -/
  | cfgApplyNow (m : Fin 4)
  /-- A word is written to CFG_LOAD_DATA (R401). -/
  | cfgLoadData (m : Fin 4) (v : Word)
  /-- No word has come for 1 s (R402). -/
  | cfgLoadStall
  /-- Verification completes; `differs`: a replica read back differs (R403). -/
  | cfgVerifyDone (differs : Bool)
  /-- The last cycle before the armed BX (R404). -/
  | cfgArmDecision
  /-- The first cycle of the apply BX; `levels`: the signals at the discriminators of cells (R80, R81, R405). -/
  | cfgApplyEffect (levels : List (Fin 408 × Int))
  /-- The scrubber has visited a frame (R399, R400). -/
  | cfgScrub (f : FrameId) (shadow rewrote : Bool) (upset : Option (List (Fin 32 × Word)))
  -- Session, feature and key commands (15)
  /-- SES_CTRL.CHALLENGE is written (R419). -/
  | sesChallenge (m : Fin 4) (slot : BitVec 2)
  /-- SES_CTRL.RESPOND is written (R419). -/
  | sesRespond (m : Fin 4)
  /-- SES_CTRL.CLOSE is written (R422). -/
  | sesClose (m : Fin 4)
  /-- 1 s has passed since the nonce of path p + 1 was issued (R418). -/
  | nonceExpire (p : Fin 3)
  /-- SES_IDLE_LIMIT has passed on path p + 1 (R422). -/
  | sessionIdleTimeout (p : Fin 3)
  /-- A FEAT_ACCEPT pair is written (R426). -/
  | featAcceptWrite (m : Fin 4) (lo hi : Word)
  /-- SES_KEY_CTRL.PROGRAM is written (R416). -/
  | sesKeyProgram (m : Fin 4) (slot : BitVec 2) (wards : BitVec 6)
  /-- Programming and read-back end (R416). -/
  | sesKeyProgramDone (good : Bool)
  /-- SES_KEY_CTRL.REVOKE is written (R417). -/
  | sesKeyRevoke (m : Fin 4) (slot : BitVec 2)
  -- Serial port and flash commands (16)
  /-- A READ_INC header completes (R437). -/
  | portReadInc (head : PortHead) (count : BitVec 8)
  /-- A READ_FIX header completes (R437). -/
  | portReadFix (head : PortHead) (count : BitVec 8)
  /-- A WRITE_INC transaction; `data` holds the words that arrive whole (R435, R440). -/
  | portWriteInc (head : PortHead) (count : BitVec 8) (data : List Word)
  /-- A WRITE_FIX transaction (R435, R440). -/
  | portWriteFix (head : PortHead) (count : BitVec 8) (data : List Word)
  /-- sel_n rises after edge E; `late`: a unit of the body was not ready (R438, R439). -/
  | portTransactionEnd (late : Bool)
  /-- sel_n rises before edge E (R440). -/
  | portCut (late : Bool)
  /-- Edges come after E (R441). -/
  | portOverclock
  /-- Flash discovery ends, with the bytes of 0x9F and the SFDP words that were read (R449, R450). -/
  | flashDiscovery (f : FlashTables)
  /-- A master reads the flash window (R451). -/
  | flashWindowRead (m : Fin 4) (offset : BitVec 24)
  /-- A line of 64 bytes has been fetched: the one named for a keeper, or the one granted to the window reads
  (R452). -/
  | flashLineFetchDone (cache : Option (BitVec 18)) (bytes : List Byte)
  /-- A keeper starts a write or erase (R453). -/
  | flashEngineCommand
  /-- The command engine has ended (R453). -/
  | flashEngineDone
  -- Keeper commands (17)
  /-- The keepalive has been absent 8 µs; `beat`: the owner's heartbeat came since its last toggle (R462, R465). -/
  | keepaliveAbsent (beat : Bool)
  /-- The keepalive has been absent 40 µs (R459). -/
  | keeperless
  /-- Keeper `k` has sent no heartbeat for 30 µs (R463). -/
  | heartbeatAbsent (k : Fin 2)
  /-- Keeper A, keeper B, or both in one cycle claim the hasp (R462). -/
  | haspClaim (who : Claimants)
  /-- The new active keeper has restored its state (R464). -/
  | keeperTakeoverComplete
  /-- Keeper `k` finds an SRAM error, or fails its self-check (R466). -/
  | keeperHalt (k : Fin 2) (instr : Bool)
  /-- The hasp path, or the heartbeat path, has worked for 1 ms (R465). -/
  | pathFaultClear (hasp : Bool)
  /-- A journal entry reaches the standby; `gap`: the one before it is missing (R467, R470). -/
  | journalEntry (gap : Bool)
  /-- The active keeper starts a checkpoint (R467). -/
  | checkpointStart
  /-- The commit word of a checkpoint arrives; `same`: the replayed state has its checksum (R468, R474). -/
  | checkpointCommit (crcOk same : Bool)
  /-- Mirror pushes have been refused for 100 µs (R470). -/
  | standbyLost
  /-- The commit entry of a master's keeper command is accepted (R472). -/
  | keeperCommandCommit (m : Fin 4)
  /-- The standby has marched one block (R474). -/
  | keeperMarchStep (k : Fin 2) (bad : Bool) (corrected : BitVec 16)
  /-- A keeper runs its instruction self-check (R474). -/
  | keeperInstrCheck (k : Fin 2) (r : SelfCheck)
  /-- KPR_CTRL.RESET of keeper `k` is executed (R459, R476). -/
  | keeperReset (m : Fin 4) (k : Fin 2)
  /-- A reset keeper is not STANDBY after 500 ms (R476). -/
  | keeperRejoinTimeout (k : Fin 2)
  /-- KPR_CTRL.SWAP is executed (R477). -/
  | keeperSwap (m : Fin 4)
  /-- A keeper has verified its image, `image` being its ID_FW (R476). -/
  | keeperBooted (k : Fin 2) (image : Option Word)
  -- Image update commands (17)
  /-- The BEGIN step (R478). -/
  | updBegin (m : Fin 4)
  /-- The erase ends (R478). -/
  | updEraseDone (ok : Bool)
  /-- A KPR_UPD_DATA word (R478). -/
  | updData (m : Fin 4) (v : Word)
  /-- The END step (R478). -/
  | updEnd (m : Fin 4)
  /-- Verification of the image ends (R478). -/
  | updVerifyDone (flashOk sigOk formatOk : Bool) (version : Word)
  /-- The PROVE step (R478). -/
  | updProve (m : Fin 4)
  /-- The standby has proven the new image, or failed (R478). -/
  | updProveDone (ok : Bool)
  /-- Proving has taken 5 s (R478). -/
  | updProveTimeout
  /-- The COMPLETE step (R478). -/
  | updComplete (m : Fin 4)
  /-- The former active keeper has proven the new image, or failed (R478). -/
  | updFinishDone (ok : Bool)
  /-- The ABORT step (R478). -/
  | updAbort (m : Fin 4)
  -- Power, reset and gazebo commands (19)
  /-- PWR_CTRL.GO is written (R495). -/
  | pwrGo (m : Fin 4) (target : BitVec 3)
  /-- The BX boundary of a requested transition (R496). -/
  | pwrTransition
  /-- PWR_CTRL.CHIP_RESET is written (R505). -/
  | pwrChipReset (m : Fin 4) (key : BitVec 8)
  /-- PWR_CELL_RESET.GO is written (R505). -/
  | cellReset (m : Fin 4) (j : Fin 24) (c : Fin 17)
  /-- Supply `k` has been below its bad level for 1 µs (R497). -/
  | supplyBad (k : Fin 5)
  /-- All supplies are good with reset_n high (R497). -/
  | supplyGood
  /-- reset_n is held low (R505). -/
  | resetPin
  /-- The boot sequence ends, with or without a fault; `image`: where one keeper failed its image and the bit-stream
  was refused as well, BOOT_WHY shows the former (R499, R500). -/
  | bootComplete (image : Bool)
  /-- Boot step 6 was not reached in 2,000 ms (R500). -/
  | bootTimeout
  /-- The supplies are measured (R509). -/
  | pwrSupplyMeasure (mv : List (BitVec 16))
  /-- GZB_CTRL.ENTER is written (R501). -/
  | gzbEnter (m : Fin 4)
  /-- PERIOD_MS has passed in GAZEBO (R276). -/
  | gzbMonPulse
  /-- ON_US has passed since the pulse: the inputs of comparators 0 to 3 and 4 to 7, twelve bits each, excitations
  that lost compliance and those at LIMIT (R276). -/
  | gzbMonEvaluate (low high : BitVec 48) (lost limit : BitVec 8)
  /-- A wake source acts in GAZEBO, coded as WAKE_WHY (R503). -/
  | gazeboWake (why : Fin 7)
  /-- The gazebo oscillator runs again (R503). -/
  | gzbOscReturn
  /-- Downlink `d` listens for the wake pattern (R503). -/
  | dlWakeListen (d : Fin 2)
  -- Test access port commands (20)
  /-- The test access port is reset (R528). -/
  | tapReset
  /-- EXTEST is loaded (R528). -/
  | extest
  /-- SAMPLE/PRELOAD is loaded and `word` shifted in (R528). -/
  | samplePreload (word : BitVec 74)
  /-- HIGHZ is loaded (R528). -/
  | highz
  /-- CLAMP is loaded (R528). -/
  | clamp
  /-- EXTEST_PULSE is loaded (R528). -/
  | extestPulse
  /-- EXTEST_TRAIN is loaded (R528). -/
  | extestTrain
  /-- BYPASS, or any other code, is loaded (R528). -/
  | bypass
  -- The sample period (02 to 06)
  /-- One sample period of the MACHINE clock (R47, R70 to R79, R130 to R145, R162). -/
  | samplePeriod (codes : List Conversion) (found : List Measure)
  deriving DecidableEq, Repr

end Sys2Proof
end

