-- ==== Sys2Proof/Decode.lean ====
section
/-! DEFINITION. The command a word spells. The command table gives no row any bits: every command is named with its
operands, so no word spells one. -/

namespace Sys2Proof

/-- The command that the word `w` of `nbits` bits spells by the table's bits: none, as the table gives none. -/
def decodeTableWord (_nbits _w : Nat) : Option Instr := none

end Sys2Proof
end

