-- ==== Sys2Proof/Config.lean ====
section
/-! DEFINITION. What the spec leaves open: constants with no body, so that nothing can be proved of a value of
theirs. Each is named in the assumption log. -/

namespace Sys2Proof.Config

/-- The random numbers of the nonce generator, one for each draw (R418). -/
opaque nonce : Nat → BitVec 128

/-- What the delay line of a channel holds before its first sample: channel and place (R130). -/
opaque lineInit : Nat → Nat → BitVec 20

/-- What an implemented address reads where the spec places no value: the fragment buffer (R25) and ring places
that have not been written (R166), by address and read number. -/
opaque diagWord : Nat → Nat → BitVec 32

/-- What a journal entry records, by its sequence number and word (R467). -/
opaque journalWord : Nat → Nat → BitVec 32

/-- CELL_CAL_RESID fields for residuals outside their 8 bits (R290, R301). -/
opaque residBeyond : Int → BitVec 8

/-- TDC_SKEW when a measured skew falls outside its 16 bits (R297). -/
opaque skewBeyond : Int → BitVec 16

/-- r of R233 of a TDC whose ring shows no phase between S_1 and S_2, as numerator and denominator less 1, by TDC and
sample period. -/
opaque ringRatio : Nat → Nat → BitVec 32 × BitVec 32

/-- FRQ_RESULT for a gate of no time, or for a frequency beyond its 64 bits (R249), by edges and gate. -/
opaque freqBeyond : Nat → Nat → BitVec 64

/-- The 31 bits before the first of a loopback's pattern (R323), by lane and sample period. -/
opaque prbsSeed : Nat → Nat → BitVec 31

end Sys2Proof.Config
end

