-- ==== Sys2Proof/Machine/Map.lean ====
section
/-! DEFINITION. Sparse tables in one canonical form: keys strictly rising, no entry equal to what an unlisted
key reads as. Registers, rings and stores of the hub are held this way. -/

namespace Sys2Proof.Machine

/-- A sparse table: key and value pairs, keys strictly rising, default entries left out. -/
abbrev SMap (α : Type) := List (Nat × α)

/-- The value at key `k`; `d` says what an unlisted key reads as. -/
def SMap.get {α : Type} (d : Nat → α) : SMap α → Nat → α
  | [], k => d k
  | (k', v) :: t, k => if k' = k then v else SMap.get d t k

/-- Puts an entry at its place in the order of the keys. -/
def SMap.insert {α : Type} (k : Nat) (v : α) : SMap α → SMap α
  | [] => [(k, v)]
  | (k', v') :: t => if k < k' then (k, v) :: (k', v') :: t else (k', v') :: SMap.insert k v t

/-- Removes every entry of a key. -/
def SMap.erase {α : Type} (k : Nat) : SMap α → SMap α
  | [] => []
  | (k', v') :: t => if k' = k then SMap.erase k t else (k', v') :: SMap.erase k t

/-- Writes the value at key `k`; a value equal to the default removes the entry. -/
def SMap.set {α : Type} [DecidableEq α] (d : Nat → α) (m : SMap α) (k : Nat) (v : α) : SMap α :=
  if v = d k then SMap.erase k m else SMap.insert k v (SMap.erase k m)

/-- Every key of the table is above `k`. -/
def SMap.above {α : Type} (k : Nat) : SMap α → Bool
  | [] => true
  | (k', _) :: t => decide (k < k') && SMap.above k t

/-- The canonical form: keys strictly rising and no default entry. -/
def SMap.wf {α : Type} [DecidableEq α] (d : Nat → α) : SMap α → Bool
  | [] => true
  | (k, v) :: t => decide (v ≠ d k) && SMap.above k t && SMap.wf d t

/-- Bits `hi` down to `lo` of a natural number. -/
def bits (n hi lo : Nat) : Nat := n / 2 ^ lo % 2 ^ (hi - lo + 1)

/-- Bit `i` of a natural number. -/
def bit (n i : Nat) : Bool := n / 2 ^ i % 2 == 1

/-- 1 for true, 0 for false. -/
def b2n (b : Bool) : Nat := if b then 1 else 0

/-- `n` as a two's-complement number of `w` bits. -/
def sgn (w n : Nat) : Int :=
  let m := n % 2 ^ w
  if m < 2 ^ (w - 1) then (m : Int) else (m : Int) - (2 ^ w : Nat)

/-- The two's-complement encoding of an integer in `w` bits. -/
def unsgn (w : Nat) (x : Int) : Nat := (x % (2 ^ w : Nat)).toNat

/-- A number held within bounds. -/
def clampInt (lo hi x : Int) : Int := if x < lo then lo else if hi < x then hi else x

/-- A count that saturates. -/
def satInc (top n : Nat) : Nat := if n < top then n + 1 else top

/-- Replaces position `i` of a list. -/
def listSet {α : Type} (l : List α) (i : Nat) (a : α) : List α := l.set i a

/-- Position `i` of a list, or a default. -/
def listGet {α : Type} (l : List α) (i : Nat) (d : α) : α := l.getD i d

/-- The first `n` naturals of a condition. -/
def countWhere (n : Nat) (p : Nat → Bool) : Nat := ((List.range n).filter p).length

/-- Sum of a function over 0 … n − 1. -/
def sumOver (n : Nat) (f : Nat → Nat) : Nat := ((List.range n).map f).foldl (· + ·) 0

/-- Integer sum of a list. -/
def sumInt (l : List Int) : Int := l.foldl (· + ·) 0

end Sys2Proof.Machine
end

