-- ==== Sys2Proof/Machine/RegMap.lean ====
section
/-! DEFINITION. The register map: every register of the spec's register tables (R58, R87, R120, R153, R159,
R192, R199, R200, R227 to R230, R252, R255, R277, R300, R302, R325, R350, R381, R409, R412, R430, R454, R480,
R492, R508) with its address, access masks and reset value, and every field with its bit range. -/

namespace Sys2Proof.Machine

/-- A register, or a field of one: a byte address and a bit range (R4, R5). -/
structure RF where
  addr : Nat
  hi : Nat
  lo : Nat
  deriving DecidableEq, Repr

/-- The names of the register tables. -/
inductive RegName where
  | CLK_CTRL | CLK_STATUS | CLK_REF_CFG | CLK_BXC_FREQ | CLK_AB_OFFSET | CLK_HOLD_TIME | CLK_SWITCH_COUNT
  | TIME_NOW | TIME_BX_PRESET | TIME_STATUS | TIME_BXSET_COUNT | TIME_GZB_AT_SET | TIME_TARGET
  | TIME_PATH_DELAY | TIME_RTT | TIME_HUB_OFFSET | TIME_ALIGN | TIME_ALIGN_NEXT | TIME_ALIGN_BX
  | TIME_ALIGN_CTRL | ORG_CTRL | ORG_STATUS | ORG_TEMP | ORG_WARM_TIME | CELL_CTRL | CELL_DISC
  | CELL_TRIM_HG | CELL_TRIM_LG | CELL_GAIN_RATIO | CELL_STATUS | CELL_Q_CAUSE | CELL_HEALTH
  | CELL_HLTH_CFG | CELL_Q_COUNT | CELL_REDUND_COUNT | CELL_DISC_RATE | CELL_SHADOW_MISMATCH
  | CELL_ECC_CORR | CELL_ECC_UNCORR | CELL_LAST | BLK_CTRL | BLK_STATUS | HNG_CFG | HNG_TOL | HNG_ROT_MASK
  | HNG_STATUS | HNG_MOVE | HNG_COMMIT | HNG_PENDING | HNG_SHADOW_RESULT | HNG_DIAG | HNG_DWELL_COUNT
  | HNG_HANDOVER_COUNT | HNG_LAST_COMMIT | CELL_DLY | CELL_FLT_PED | CELL_FLT_EST | CELL_FLT_REC
  | CELL_FLT_STATUS | CELL_FLT_EST_LAST | CELL_FLT_REC_LAST | CREC_CFG | CREC_CTRL | CREC_STATUS
  | CREC_LOST_COUNT | CREC_LAST_SYNC | CREC_BLOCK_COUNT | CREC_CH_MASK | FLT_SETTLE | FLT_ROM_DESC
  | FLT_ROM_COEF | TRG_CFG | TRG_STATUS | TRG_LATENCY | TRG_WINDOW | TRG_TB | TRG_COND_LAT | TRG_CTRL
  | TRG_FREE_SLOTS | TRG_SLOT_BUSY | TRG_EVT_NEXT | TRG_EVT_PRESET | TRG_LAST_CAUSE | TRG_LAST_EVT
  | TRG_LAST_TIME | TRG_COUNT | TRG_DT_NO_SLOT | TRG_DT_LATE | TRG_DT_BUFFER | TRG_ACC_IGNORED
  | TRG_NOSLOT_LOST | TRG_SUM_LOST | TRG_TB_LATE_COUNT | TRG_RGN_DT_NO_SLOT | TRG_RGN_DT_LATE
  | TRG_RGN_DT_BUFFER | TRG_C_CFG | TRG_C_COUNT | TRG_C_TERM | TRG_C_THR | TRG_CHMASK | CELL_TRG
  | BLK_SNAP_CFG | BLK_SNAP_CTRL | BLK_SNAP_STATUS | BLK_SNAP_LABEL | BLK_SNAP_LAST | BLK_DIAG_LABEL
  | EVT_STATUS | EVT_LAG_LIMIT | EVT_SLOT_TIMEOUT | EVT_LEAF_INCL | EVT_LEAF_WIN | EVT_FREE_PUB
  | EVT_CLOSED_COUNT | EVT_NOSLOT_SENT | EVT_RELEASED | FORM_CFG | RGN_CTRL | RGN_STATUS | RGN_BUF_FREE
  | RGN_FRAG_MAX | RGN_LAG | RGN_LAST_EVT | RGN_FRAG_COUNT | BLK_EXTRACT_COUNT | BLK_ARB_WAIT | CELL_FORM
  | CELL_ZS | TDC_CFG | TDC_HIT_COUNT | TDC_PILE_COUNT | TDC_DROP_COUNT | TDC_SKEW | TDC_LAST_FLAGS
  | TDC_LAST | TDC_TIN_CFG | TDC_TIN_STATUS | TDC_TIN_FIFO | TDC_TIN_FLAGS | TDC_TIN_LEVEL | TDC_TIN_SKEW
  | IVL_CFG | IVL_CTRL | IVL_STATUS | IVL_COUNT | IVL_RESULT | IVL_RTT_CFG | IVL_RTT_PERIOD | IVL_RTT_SPK
  | IVL_DL_TURN | IVL_RTT_STATUS | IVL_RTT_TIMEOUTS | IVL_DL_LAST | IVL_SPK_RTT | FRQ_CFG | FRQ_GATE
  | FRQ_CTRL | FRQ_STATUS | FRQ_EDGES | FRQ_REFTIME | FRQ_RESULT | TDC_CD_STAT | TDC_CD_AGE | TDC_CD_COUNT
  | TDC_CD_TABLE | MON_CFG | MON_STATUS | MON_SEQ_CFG | MON_URGENT | MON_GZB_CFG | MON_LOST_COUNT
  | MON_OVERRUN_COUNT | MON_CH_CFG | MON_CH_STATUS | MON_LAST | MON_WIN_CFG | MON_WIN_THR | MON_WIN_COUNT
  | MON_WIN_STATUS | EXC_CFG | EXC_STATUS | EXC_MEAS | EXC_LOSS_COUNT | CELL_CAL_STATUS | CELL_CAL_COUNT
  | CELL_CAL_ATTEMPTS | CELL_CAL_TEMP | CELL_CAL_TIME | CELL_CAL_RESID | CAL_CTRL | CAL_STATUS | CAL_REF_UV
  | CAL_SCHED | CAL_TOL | CAL_REQ | CAL_ACCEPT_COUNT | CAL_SUSPECT_COUNT | CAL_RGN_TEMP | CAL_BLK_STATUS
  | CAL_MON_PERIOD | CAL_MON_CORR | CAL_PULSE_CFG | CAL_PULSE_LEVEL | CAL_STROBE_COUNT | CAL_PULSE_MASK
  | UL_CTRL | UL_CFG | UL_STATUS | UL_TRAIN_FAILS | UL_FRAMES | UL_ACKED | UL_REPLAY_COUNT | UL_LOOP_SYM
  | UL_LOOP_ERR | UL_COMMON_CFG | UL_COMMON_CTRL | UL_SPARE | UL_COMMON_STATUS | UL_TAKEOVER_COUNT
  | UL_REPLAY_LOST | UL_LAST_TAKEOVER | DL_CTRL | DL_CFG | DL_STATUS | DL_TRAIN_FAILS | DL_CODE_ERR
  | DL_LOOP_SYM | DL_LOOP_ERR | SPK_CTRL | SPK_CFG | SPK_STATUS | SPK_TRAIN_FAILS | SPK_CODE_ERR
  | SPK_LOOP_SYM | SPK_LOOP_ERR | UL_STREAM_FRAMES | UL_RESEND_COUNT | UL_RESEND_REFUSED | DL_FC_EN
  | DL_HRST_ARM | DL_GROUPS | DL_CTL_STATUS | DL_FC_LOST | DL_FC_RESCUED | DL_FC_IGNORED | DL_CTL_DISCARD
  | DL_OUTSTANDING | DL_CTL_FULL | DL_FRAME_BAD | DL_HOST_ID | LEAF_CTRL | LEAF_STATUS | LEAF_ID0
  | LEAF_ID1 | LEAF_SERIAL | LEAF_SHAPE | LEAF_TURN | LEAF_CAPS | LEAF_TS_OFF | LEAF_TS_ADJ
  | LEAF_REC_COUNT | LEAF_REC_DROP | LEAF_LOST | LEAF_ALARM_LAST | LEAF_ISO_LIMIT | SPK_CTL_DISCARD
  | LEAF_CTL_TIMEOUT | LEAF_BCAST_CFG | LEAF_BCAST_SEL | LEAF_BCAST_VALUE | LEAF_BCAST_CTRL
  | LEAF_BCAST_RESULT | LEAF_BCAST_COUNT | CFG_CTRL | CFG_STATUS | CFG_LOAD_DATA | CFG_LOAD_COUNT
  | CFG_ERR_FRAME | CFG_ERR_WORD | CFG_LOADED_FRAMES | CFG_APPLY_BX | CFG_LAST_APPLY | CFG_APPLY_COUNT
  | CFG_MISSED_COUNT | CFG_NOP_COUNT | CFG_SCRUB_CORR | CFG_SCRUB_UNCORR | CFG_READ_SEL | CFG_READ_DATA
  | RGN_CFG_STATUS | RGN_SCRUB_CORR | RGN_SCRUB_UNCORR | RGN_LOADED_FRAMES | ID_PART | ID_REV | ID_UNIQUE
  | ID_FW_A | ID_FW_B | ID_CFG_FORMAT | FEAT_OFFER | FEAT_ACCEPT | SES_CTRL | SES_STATUS | SES_IDLE_LIMIT
  | SES_NONCE | SES_TAG | SES_SLOT | SES_KEY_CTRL | SES_KEY_DATA | PORT_CFG | PORT_STATUS
  | PORT_LAST_STATUS | PORT_TRANS_COUNT | PORT_CUT_COUNT | FLASH_CFG | FLASH_STATUS | FLASH_JEDEC_ID
  | FLASH_DENSITY | FLASH_DUMMY | FLASH_FETCHES | FLASH_HITS | KPR_CTRL | KPR_STATUS | HASP_STATUS
  | HASP_TAKEOVER_COUNT | HASP_LAST_TAKEOVER | KPR_REPLAY_COUNT | KPR_CKPT_GEN | KPR_JOURNAL | KPR_HEALTH
  | KPR_MARCH_PASSES | KPR_SRAM_CORR | KPR_UPTIME | KPR_UPD_CTRL | KPR_UPD_STATUS | KPR_UPD_LEN
  | KPR_UPD_DATA | KPR_UPD_VERSION | KPR_UPD_COUNT | Q_COUNT | Q_CTRL | Q_STATUS | Q_CORR | Q_UNCORR
  | Q_PUSH_FULL | Q_POP_EMPTY | Q_FLUSH_TAIL | PWR_CTRL | PWR_CFG | PWR_STATUS | PWR_CELL_RESET
  | PWR_BOOT_TIME | PWR_RESET_COUNT | PWR_SUPPLY | GZB_CTRL | GZB_WAKE_EN | GZB_STATUS | GZB_TIME
  | GZB_LAST_ENTRY | GZB_LAST_WAKE | GZB_LOG_COUNT | GZB_LOG_TIME | GZB_LOG_CAUSE
  deriving DecidableEq, Repr

/-- One row of a register table: offset (from the window of its space), two strides with their counts,
whether it is a 64-bit value at +0 and +4, and the access masks of R6. -/
structure RegDesc where
  base : Nat
  stride1 : Nat
  count1 : Nat
  stride2 : Nat
  count2 : Nat
  wide : Bool
  rw : Nat
  w1c : Nat
  ws : Nat
  wo : Nat
  reset : Nat
  deriving DecidableEq, Repr

/-- The register tables. -/
def regDesc : RegName → RegDesc
  | .CLK_CTRL => ⟨0x20000, 0x0, 1, 0x0, 1, false, 0x78, 0x0, 0x80, 0x0, 0x0⟩
  | .CLK_STATUS => ⟨0x20004, 0x0, 1, 0x0, 1, false, 0x0, 0xB1800, 0x0, 0x0, 0x8100⟩
  | .CLK_REF_CFG => ⟨0x20008, 0x0, 1, 0x0, 1, false, 0xFFFFFFFF, 0x0, 0x0, 0x0, 0x7D0061A8⟩
  | .CLK_BXC_FREQ => ⟨0x2000C, 0x0, 1, 0x0, 1, false, 0x0, 0x0, 0x0, 0x0, 0x0⟩
  | .CLK_AB_OFFSET => ⟨0x20010, 0x0, 1, 0x0, 1, false, 0x0, 0x0, 0x0, 0x0, 0x80000000⟩
  | .CLK_HOLD_TIME => ⟨0x20014, 0x0, 1, 0x0, 1, false, 0x0, 0x0, 0x0, 0x0, 0x0⟩
  | .CLK_SWITCH_COUNT => ⟨0x20018, 0x0, 1, 0x0, 1, false, 0x0, 0x0, 0x0, 0x0, 0x0⟩
  | .TIME_NOW => ⟨0x20100, 0x0, 1, 0x0, 1, true, 0x0, 0x0, 0x0, 0x0, 0x0⟩
  | .TIME_BX_PRESET => ⟨0x20108, 0x0, 1, 0x0, 1, true, 0xFFFFFFFF, 0x0, 0x0, 0x0, 0x0⟩
  | .TIME_STATUS => ⟨0x20110, 0x0, 1, 0x0, 1, false, 0x0, 0xAFE, 0x0, 0x0, 0x0⟩
  | .TIME_BXSET_COUNT => ⟨0x20114, 0x0, 1, 0x0, 1, false, 0x0, 0x0, 0x0, 0x0, 0x0⟩
  | .TIME_GZB_AT_SET => ⟨0x20118, 0x0, 1, 0x0, 1, true, 0x0, 0x0, 0x0, 0x0, 0x0⟩
  | .TIME_TARGET => ⟨0x20120, 0x0, 1, 0x0, 1, false, 0xFFFFFFFF, 0x0, 0x0, 0x0, 0x0⟩
  | .TIME_PATH_DELAY => ⟨0x20124, 0x0, 1, 0x0, 1, false, 0xFFFFFFFF, 0x0, 0x0, 0x0, 0x0⟩
  | .TIME_RTT => ⟨0x20128, 0x0, 1, 0x0, 1, false, 0x0, 0x0, 0x0, 0x0, 0xFFFFFFFF⟩
  | .TIME_HUB_OFFSET => ⟨0x2012C, 0x0, 1, 0x0, 1, false, 0x0, 0x0, 0x0, 0x0, 0x0⟩
  | .TIME_ALIGN => ⟨0x20130, 0x0, 1, 0x0, 1, false, 0x0, 0x0, 0x0, 0x0, 0x0⟩
  | .TIME_ALIGN_NEXT => ⟨0x20134, 0x0, 1, 0x0, 1, false, 0xFFFFF, 0x0, 0x0, 0x0, 0x0⟩
  | .TIME_ALIGN_BX => ⟨0x20138, 0x0, 1, 0x0, 1, true, 0xFFFFFFFF, 0x0, 0x0, 0x0, 0x0⟩
  | .TIME_ALIGN_CTRL => ⟨0x20140, 0x0, 1, 0x0, 1, false, 0x0, 0x0, 0x7, 0x0, 0x0⟩
  | .ORG_CTRL => ⟨0x20200, 0x0, 1, 0x0, 1, false, 0x103FF, 0x0, 0x0, 0x0, 0x102BC⟩
  | .ORG_STATUS => ⟨0x20204, 0x0, 1, 0x0, 1, false, 0x0, 0x12, 0x0, 0x0, 0x0⟩
  | .ORG_TEMP => ⟨0x20208, 0x0, 1, 0x0, 1, false, 0x0, 0x0, 0x0, 0x0, 0x0⟩
  | .ORG_WARM_TIME => ⟨0x2020C, 0x0, 1, 0x0, 1, false, 0x0, 0x0, 0x0, 0x0, 0x0⟩
  | .CELL_CTRL => ⟨0x0, 0x0, 1, 0x0, 1, false, 0xFF3F33, 0x0, 0x0, 0x0, 0x201403⟩
  | .CELL_DISC => ⟨0x4, 0x0, 1, 0x0, 1, false, 0x19FFF, 0x0, 0x0, 0x0, 0x106C0⟩
  | .CELL_TRIM_HG => ⟨0x8, 0x0, 1, 0x0, 1, false, 0x3FF03FF, 0x0, 0x0, 0x0, 0x0⟩
  | .CELL_TRIM_LG => ⟨0xC, 0x0, 1, 0x0, 1, false, 0x3FF03FF, 0x0, 0x0, 0x0, 0x0⟩
  | .CELL_GAIN_RATIO => ⟨0x10, 0x0, 1, 0x0, 1, false, 0xFFFFFF, 0x0, 0x0, 0x0, 0x100000⟩
  | .CELL_STATUS => ⟨0x14, 0x0, 1, 0x0, 1, false, 0x0, 0x10, 0x0, 0x0, 0x2⟩
  | .CELL_Q_CAUSE => ⟨0x18, 0x0, 1, 0x0, 1, false, 0x0, 0x7FE, 0x0, 0x0, 0x0⟩
  | .CELL_HEALTH => ⟨0x1C, 0x0, 1, 0x0, 1, false, 0x0, 0xF8, 0x8000, 0x0, 0x0⟩
  | .CELL_HLTH_CFG => ⟨0x20, 0x0, 1, 0x0, 1, false, 0xFFFFFFFF, 0x0, 0x0, 0x0, 0xFFFF0004⟩
  | .CELL_Q_COUNT => ⟨0x24, 0x0, 1, 0x0, 1, false, 0x0, 0x0, 0x0, 0x0, 0x0⟩
  | .CELL_REDUND_COUNT => ⟨0x28, 0x0, 1, 0x0, 1, false, 0x0, 0x0, 0x0, 0x0, 0x0⟩
  | .CELL_DISC_RATE => ⟨0x2C, 0x0, 1, 0x0, 1, false, 0x0, 0x0, 0x0, 0x0, 0x0⟩
  | .CELL_SHADOW_MISMATCH => ⟨0x30, 0x0, 1, 0x0, 1, false, 0x0, 0x0, 0x0, 0x0, 0x0⟩
  | .CELL_ECC_CORR => ⟨0x34, 0x0, 1, 0x0, 1, false, 0x0, 0x0, 0x0, 0x0, 0x0⟩
  | .CELL_ECC_UNCORR => ⟨0x38, 0x0, 1, 0x0, 1, false, 0x0, 0x0, 0x0, 0x0, 0x0⟩
  | .CELL_LAST => ⟨0x40, 0x0, 1, 0x0, 1, true, 0x0, 0x0, 0x0, 0x0, 0x0⟩
  | .BLK_CTRL => ⟨0x0, 0x0, 1, 0x0, 1, false, 0x1, 0x0, 0x2, 0x0, 0x0⟩
  | .BLK_STATUS => ⟨0x4, 0x0, 1, 0x0, 1, false, 0x0, 0x8, 0x0, 0x0, 0x0⟩
  | .HNG_CFG => ⟨0x100, 0x0, 1, 0x0, 1, false, 0xC0FFFFFF, 0x0, 0x0, 0x0, 0xC0101000⟩
  | .HNG_TOL => ⟨0x104, 0x0, 1, 0x0, 1, false, 0xFFFFF, 0x0, 0x0, 0x0, 0x30⟩
  | .HNG_ROT_MASK => ⟨0x108, 0x0, 1, 0x0, 1, false, 0xFFFF, 0x0, 0x0, 0x0, 0xFFFF⟩
  | .HNG_STATUS => ⟨0x10C, 0x0, 1, 0x0, 1, false, 0x0, 0x310000, 0x0, 0x0, 0x0⟩
  | .HNG_MOVE => ⟨0x110, 0x0, 1, 0x0, 1, false, 0x0, 0x0, 0x0, 0x71F, 0x0⟩
  | .HNG_COMMIT => ⟨0x114, 0x0, 1, 0x0, 1, false, 0x0, 0x0, 0x0, 0x10F, 0x0⟩
  | .HNG_PENDING => ⟨0x118, 0x0, 1, 0x0, 1, false, 0x0, 0x0, 0x0, 0x0, 0x0⟩
  | .HNG_SHADOW_RESULT => ⟨0x11C, 0x0, 1, 0x0, 1, false, 0x0, 0x0, 0x0, 0x0, 0x0⟩
  | .HNG_DIAG => ⟨0x120, 0x0, 1, 0x0, 1, false, 0x0, 0x0, 0x0, 0x0, 0x0⟩
  | .HNG_DWELL_COUNT => ⟨0x124, 0x0, 1, 0x0, 1, false, 0x0, 0x0, 0x0, 0x0, 0x0⟩
  | .HNG_HANDOVER_COUNT => ⟨0x128, 0x0, 1, 0x0, 1, false, 0x0, 0x0, 0x0, 0x0, 0x0⟩
  | .HNG_LAST_COMMIT => ⟨0x130, 0x0, 1, 0x0, 1, true, 0x0, 0x0, 0x0, 0x0, 0x0⟩
  | .CELL_DLY => ⟨0x300, 0x0, 1, 0x0, 1, false, 0x3F0F, 0x0, 0x0, 0x0, 0x0⟩
  | .CELL_FLT_PED => ⟨0x304, 0x0, 1, 0x0, 1, false, 0xFFF, 0x0, 0x0, 0x0, 0x0⟩
  | .CELL_FLT_EST => ⟨0x308, 0x0, 1, 0x0, 1, false, 0x73F0000, 0x0, 0x80000000, 0x40000000, 0x1232323⟩
  | .CELL_FLT_REC => ⟨0x30C, 0x0, 1, 0x0, 1, false, 0x73F0000, 0x0, 0x80000000, 0x40000000, 0x1151515⟩
  | .CELL_FLT_STATUS => ⟨0x310, 0x0, 1, 0x0, 1, false, 0x0, 0x18, 0x0, 0x0, 0x2⟩
  | .CELL_FLT_EST_LAST => ⟨0x314, 0x0, 1, 0x0, 1, false, 0x0, 0x0, 0x0, 0x0, 0x0⟩
  | .CELL_FLT_REC_LAST => ⟨0x318, 0x0, 1, 0x0, 1, false, 0x0, 0x0, 0x0, 0x0, 0x0⟩
  | .CREC_CFG => ⟨0xC0000, 0x0, 1, 0x0, 1, false, 0x800003FF, 0x0, 0x0, 0x0, 0x80000168⟩
  | .CREC_CTRL => ⟨0xC0004, 0x0, 1, 0x0, 1, false, 0x0, 0x0, 0x1, 0x0, 0x0⟩
  | .CREC_STATUS => ⟨0xC0008, 0x0, 1, 0x0, 1, false, 0x0, 0x1800, 0x0, 0x0, 0x18⟩
  | .CREC_LOST_COUNT => ⟨0xC000C, 0x0, 1, 0x0, 1, false, 0x0, 0x0, 0x0, 0x0, 0x0⟩
  | .CREC_LAST_SYNC => ⟨0xC0010, 0x0, 1, 0x0, 1, true, 0x0, 0x0, 0x0, 0x0, 0x0⟩
  | .CREC_BLOCK_COUNT => ⟨0xC0018, 0x0, 1, 0x0, 1, false, 0x0, 0x0, 0x0, 0x0, 0x0⟩
  | .CREC_CH_MASK => ⟨0xC0020, 0x4, 12, 0x0, 1, false, 0xFFFFFFFF, 0x0, 0x0, 0x0, 0xFFFFFFFF⟩
  | .FLT_SETTLE => ⟨0xC1000, 0x4, 384, 0x0, 1, false, 0x0, 0x0, 0x0, 0x0, 0xC000C06⟩
  | .FLT_ROM_DESC => ⟨0xC1800, 0x4, 64, 0x0, 1, false, 0x0, 0x0, 0x0, 0x0, 0x0⟩
  | .FLT_ROM_COEF => ⟨0xC2000, 0x80, 64, 0x4, 32, false, 0x0, 0x0, 0x0, 0x0, 0x0⟩
  | .TRG_CFG => ⟨0xA0000, 0x0, 1, 0x0, 1, false, 0x8000001F, 0x0, 0x0, 0x0, 0x80000012⟩
  | .TRG_STATUS => ⟨0xA0004, 0x0, 1, 0x0, 1, false, 0x0, 0x1D8, 0x0, 0x0, 0x0⟩
  | .TRG_LATENCY => ⟨0xA0008, 0x0, 1, 0x0, 1, false, 0x3FF, 0x0, 0x0, 0x0, 0x190⟩
  | .TRG_WINDOW => ⟨0xA000C, 0x0, 1, 0x0, 1, false, 0x3F3F, 0x0, 0x0, 0x0, 0x404⟩
  | .TRG_TB => ⟨0xA0010, 0x0, 1, 0x0, 1, false, 0x3FFF, 0x0, 0x0, 0x0, 0x2008⟩
  | .TRG_COND_LAT => ⟨0xA0014, 0x0, 1, 0x0, 1, false, 0x0, 0x0, 0x0, 0x0, 0x6⟩
  | .TRG_CTRL => ⟨0xA0018, 0x0, 1, 0x0, 1, false, 0x0, 0x0, 0x3, 0x0, 0x0⟩
  | .TRG_FREE_SLOTS => ⟨0xA001C, 0x0, 1, 0x0, 1, false, 0x0, 0x0, 0x0, 0x0, 0x80⟩
  | .TRG_SLOT_BUSY => ⟨0xA0020, 0x4, 4, 0x0, 1, false, 0x0, 0x0, 0x0, 0x0, 0x0⟩
  | .TRG_EVT_NEXT => ⟨0xA0030, 0x0, 1, 0x0, 1, false, 0x0, 0x0, 0x0, 0x0, 0x0⟩
  | .TRG_EVT_PRESET => ⟨0xA0034, 0x0, 1, 0x0, 1, false, 0xFFFFFFFF, 0x0, 0x0, 0x0, 0x0⟩
  | .TRG_LAST_CAUSE => ⟨0xA0038, 0x0, 1, 0x0, 1, false, 0x0, 0x0, 0x0, 0x0, 0x0⟩
  | .TRG_LAST_EVT => ⟨0xA003C, 0x0, 1, 0x0, 1, false, 0x0, 0x0, 0x0, 0x0, 0x0⟩
  | .TRG_LAST_TIME => ⟨0xA0040, 0x0, 1, 0x0, 1, true, 0x0, 0x0, 0x0, 0x0, 0x0⟩
  | .TRG_COUNT => ⟨0xA0048, 0x0, 1, 0x0, 1, true, 0x0, 0x0, 0x0, 0x0, 0x0⟩
  | .TRG_DT_NO_SLOT => ⟨0xA0050, 0x0, 1, 0x0, 1, true, 0x0, 0x0, 0x0, 0x0, 0x0⟩
  | .TRG_DT_LATE => ⟨0xA0058, 0x0, 1, 0x0, 1, true, 0x0, 0x0, 0x0, 0x0, 0x0⟩
  | .TRG_DT_BUFFER => ⟨0xA0060, 0x0, 1, 0x0, 1, true, 0x0, 0x0, 0x0, 0x0, 0x0⟩
  | .TRG_ACC_IGNORED => ⟨0xA0068, 0x0, 1, 0x0, 1, false, 0x0, 0x0, 0x0, 0x0, 0x0⟩
  | .TRG_NOSLOT_LOST => ⟨0xA006C, 0x0, 1, 0x0, 1, false, 0x0, 0x0, 0x0, 0x0, 0x0⟩
  | .TRG_SUM_LOST => ⟨0xA0070, 0x0, 1, 0x0, 1, false, 0x0, 0x0, 0x0, 0x0, 0x0⟩
  | .TRG_TB_LATE_COUNT => ⟨0xA0074, 0x0, 1, 0x0, 1, false, 0x0, 0x0, 0x0, 0x0, 0x0⟩
  | .TRG_RGN_DT_NO_SLOT => ⟨0xA0800, 0x20, 6, 0x0, 1, true, 0x0, 0x0, 0x0, 0x0, 0x0⟩
  | .TRG_RGN_DT_LATE => ⟨0xA0808, 0x20, 6, 0x0, 1, true, 0x0, 0x0, 0x0, 0x0, 0x0⟩
  | .TRG_RGN_DT_BUFFER => ⟨0xA0810, 0x20, 6, 0x0, 1, true, 0x0, 0x0, 0x0, 0x0, 0x0⟩
  | .TRG_C_CFG => ⟨0xA0100, 0x40, 8, 0x0, 1, false, 0xE3FFF00F, 0x0, 0x0, 0x0, 0x0⟩
  | .TRG_C_COUNT => ⟨0xA0104, 0x40, 8, 0x0, 1, false, 0x0, 0x0, 0x0, 0x0, 0x0⟩
  | .TRG_C_TERM => ⟨0xA0110, 0x40, 8, 0x8, 4, false, 0xE7FFFFFF, 0x0, 0x0, 0x0, 0x0⟩
  | .TRG_C_THR => ⟨0xA0114, 0x40, 8, 0x8, 4, false, 0xFFFFFF, 0x0, 0x0, 0x0, 0x0⟩
  | .TRG_CHMASK => ⟨0xA0400, 0x40, 8, 0x4, 12, false, 0xFFFFFFFF, 0x0, 0x0, 0x0, 0x0⟩
  | .CELL_TRG => ⟨0x400, 0x0, 1, 0x0, 1, false, 0x3, 0x0, 0x0, 0x0, 0x3⟩
  | .BLK_SNAP_CFG => ⟨0x200, 0x0, 1, 0x0, 1, false, 0x7FF03FF, 0x0, 0x0, 0x0, 0x0⟩
  | .BLK_SNAP_CTRL => ⟨0x204, 0x0, 1, 0x0, 1, false, 0x0, 0x0, 0x7, 0x0, 0x0⟩
  | .BLK_SNAP_STATUS => ⟨0x208, 0x0, 1, 0x0, 1, false, 0x0, 0x0, 0x0, 0x0, 0x0⟩
  | .BLK_SNAP_LABEL => ⟨0x210, 0x0, 1, 0x0, 1, true, 0x0, 0x0, 0x0, 0x0, 0x0⟩
  | .BLK_SNAP_LAST => ⟨0x218, 0x0, 1, 0x0, 1, true, 0x0, 0x0, 0x0, 0x0, 0x0⟩
  | .BLK_DIAG_LABEL => ⟨0x220, 0x0, 1, 0x0, 1, true, 0x0, 0x0, 0x0, 0x0, 0x0⟩
  | .EVT_STATUS => ⟨0xB0000, 0x0, 1, 0x0, 1, false, 0x0, 0x3, 0x0, 0x0, 0x0⟩
  | .EVT_LAG_LIMIT => ⟨0xB0004, 0x0, 1, 0x0, 1, false, 0x7F, 0x0, 0x0, 0x0, 0x10⟩
  | .EVT_SLOT_TIMEOUT => ⟨0xB0008, 0x0, 1, 0x0, 1, false, 0x3FFF, 0x0, 0x0, 0x0, 0x3E8⟩
  | .EVT_LEAF_INCL => ⟨0xB000C, 0x0, 1, 0x0, 1, false, 0xFFFF, 0x0, 0x0, 0x0, 0x0⟩
  | .EVT_LEAF_WIN => ⟨0xB0010, 0x0, 1, 0x0, 1, false, 0xF0F, 0x0, 0x0, 0x0, 0x101⟩
  | .EVT_FREE_PUB => ⟨0xB0014, 0x0, 1, 0x0, 1, false, 0x0, 0x0, 0x0, 0x0, 0x80⟩
  | .EVT_CLOSED_COUNT => ⟨0xB0018, 0x0, 1, 0x0, 1, false, 0x0, 0x0, 0x0, 0x0, 0x0⟩
  | .EVT_NOSLOT_SENT => ⟨0xB0020, 0x0, 1, 0x0, 1, true, 0x0, 0x0, 0x0, 0x0, 0x0⟩
  | .EVT_RELEASED => ⟨0xB0028, 0x0, 1, 0x0, 1, true, 0x0, 0x0, 0x0, 0x0, 0x0⟩
  | .FORM_CFG => ⟨0xB0040, 0x0, 1, 0x0, 1, false, 0x3F0303, 0x0, 0x0, 0x0, 0x100201⟩
  | .RGN_CTRL => ⟨0x0, 0x0, 1, 0x0, 1, false, 0x3, 0x0, 0x4, 0x0, 0x2⟩
  | .RGN_STATUS => ⟨0x4, 0x0, 1, 0x0, 1, false, 0x0, 0x20, 0x0, 0x0, 0x0⟩
  | .RGN_BUF_FREE => ⟨0x8, 0x0, 1, 0x0, 1, false, 0x0, 0x0, 0x0, 0x0, 0x10000⟩
  | .RGN_FRAG_MAX => ⟨0xC, 0x0, 1, 0x0, 1, false, 0x0, 0x0, 0x0, 0x0, 0x1EA⟩
  | .RGN_LAG => ⟨0x10, 0x0, 1, 0x0, 1, false, 0x0, 0x0, 0x0, 0x0, 0x0⟩
  | .RGN_LAST_EVT => ⟨0x14, 0x0, 1, 0x0, 1, false, 0x0, 0x0, 0x0, 0x0, 0x0⟩
  | .RGN_FRAG_COUNT => ⟨0x18, 0x0, 1, 0x0, 1, true, 0x0, 0x0, 0x0, 0x0, 0x0⟩
  | .BLK_EXTRACT_COUNT => ⟨0x400, 0x0, 1, 0x0, 1, false, 0x0, 0x0, 0x0, 0x0, 0x0⟩
  | .BLK_ARB_WAIT => ⟨0x404, 0x0, 1, 0x0, 1, false, 0x0, 0x0, 0x0, 0x0, 0x0⟩
  | .CELL_FORM => ⟨0x410, 0x0, 1, 0x0, 1, false, 0xBF, 0x0, 0x0, 0x0, 0x8⟩
  | .CELL_ZS => ⟨0x414, 0x0, 1, 0x0, 1, false, 0x7FFFF, 0x0, 0x0, 0x0, 0x640⟩
  | .TDC_CFG => ⟨0x200, 0x0, 1, 0x0, 1, false, 0x3, 0x0, 0x0, 0x0, 0x3⟩
  | .TDC_HIT_COUNT => ⟨0x204, 0x0, 1, 0x0, 1, false, 0x0, 0x0, 0x0, 0x0, 0x0⟩
  | .TDC_PILE_COUNT => ⟨0x208, 0x0, 1, 0x0, 1, false, 0x0, 0x0, 0x0, 0x0, 0x0⟩
  | .TDC_DROP_COUNT => ⟨0x20C, 0x0, 1, 0x0, 1, false, 0x0, 0x0, 0x0, 0x0, 0x0⟩
  | .TDC_SKEW => ⟨0x210, 0x0, 1, 0x0, 1, false, 0xFFFF, 0x0, 0x0, 0x0, 0x0⟩
  | .TDC_LAST_FLAGS => ⟨0x218, 0x0, 1, 0x0, 1, false, 0x0, 0x0, 0x0, 0x0, 0x0⟩
  | .TDC_LAST => ⟨0x220, 0x0, 1, 0x0, 1, true, 0x0, 0x0, 0x0, 0x0, 0x0⟩
  | .TDC_TIN_CFG => ⟨0xD0000, 0x0, 1, 0x0, 1, false, 0xF0F, 0x0, 0x0, 0x0, 0x0⟩
  | .TDC_TIN_STATUS => ⟨0xD0004, 0x0, 1, 0x0, 1, false, 0x0, 0xF, 0x0, 0x0, 0x0⟩
  | .TDC_TIN_FIFO => ⟨0xD0010, 0x10, 4, 0x0, 1, true, 0x0, 0x0, 0x0, 0x0, 0x0⟩
  | .TDC_TIN_FLAGS => ⟨0xD0018, 0x10, 4, 0x0, 1, false, 0x0, 0x0, 0x0, 0x0, 0x0⟩
  | .TDC_TIN_LEVEL => ⟨0xD001C, 0x10, 4, 0x0, 1, false, 0x0, 0x0, 0x0, 0x0, 0x0⟩
  | .TDC_TIN_SKEW => ⟨0xD0060, 0x4, 4, 0x0, 1, false, 0xFFFF, 0x0, 0x0, 0x0, 0x0⟩
  | .IVL_CFG => ⟨0xD0100, 0x20, 4, 0x0, 1, false, 0x13E3E, 0x0, 0x0, 0x0, 0x0⟩
  | .IVL_CTRL => ⟨0xD0104, 0x20, 4, 0x0, 1, false, 0x0, 0x0, 0x3, 0x0, 0x0⟩
  | .IVL_STATUS => ⟨0xD0108, 0x20, 4, 0x0, 1, false, 0x0, 0xC, 0x0, 0x0, 0x0⟩
  | .IVL_COUNT => ⟨0xD010C, 0x20, 4, 0x0, 1, false, 0x0, 0x0, 0x0, 0x0, 0x0⟩
  | .IVL_RESULT => ⟨0xD0110, 0x20, 4, 0x0, 1, true, 0x0, 0x0, 0x0, 0x0, 0x0⟩
  | .IVL_RTT_CFG => ⟨0xD0200, 0x0, 1, 0x0, 1, false, 0x80000F0F, 0x0, 0x0, 0x0, 0x80000400⟩
  | .IVL_RTT_PERIOD => ⟨0xD0204, 0x0, 1, 0x0, 1, false, 0x3FF, 0x0, 0x0, 0x0, 0xA⟩
  | .IVL_RTT_SPK => ⟨0xD0208, 0x0, 1, 0x0, 1, false, 0xFFFFFFFF, 0x0, 0x0, 0x0, 0xFFFF⟩
  | .IVL_DL_TURN => ⟨0xD020C, 0x0, 1, 0x0, 1, false, 0xFFFFFFFF, 0x0, 0x0, 0x0, 0x0⟩
  | .IVL_RTT_STATUS => ⟨0xD0210, 0x0, 1, 0x0, 1, false, 0x0, 0x5, 0x0, 0x0, 0x0⟩
  | .IVL_RTT_TIMEOUTS => ⟨0xD0214, 0x0, 1, 0x0, 1, false, 0x0, 0x0, 0x0, 0x0, 0x0⟩
  | .IVL_DL_LAST => ⟨0xD0218, 0x0, 1, 0x0, 1, false, 0x0, 0x0, 0x0, 0x0, 0xFFFFFFFF⟩
  | .IVL_SPK_RTT => ⟨0xD0240, 0x4, 16, 0x0, 1, false, 0x0, 0x0, 0x0, 0x0, 0xFFFFFFFF⟩
  | .FRQ_CFG => ⟨0xD0300, 0x0, 1, 0x0, 1, false, 0xF1F, 0x0, 0x0, 0x0, 0x0⟩
  | .FRQ_GATE => ⟨0xD0304, 0x0, 1, 0x0, 1, false, 0xFFFFF, 0x0, 0x0, 0x0, 0x3E8⟩
  | .FRQ_CTRL => ⟨0xD0308, 0x0, 1, 0x0, 1, false, 0x0, 0x0, 0x3, 0x0, 0x0⟩
  | .FRQ_STATUS => ⟨0xD030C, 0x0, 1, 0x0, 1, false, 0x0, 0x3C, 0x0, 0x0, 0x0⟩
  | .FRQ_EDGES => ⟨0xD0310, 0x0, 1, 0x0, 1, false, 0x0, 0x0, 0x0, 0x0, 0x0⟩
  | .FRQ_REFTIME => ⟨0xD0318, 0x0, 1, 0x0, 1, true, 0x0, 0x0, 0x0, 0x0, 0x0⟩
  | .FRQ_RESULT => ⟨0xD0320, 0x0, 1, 0x0, 1, true, 0x0, 0x0, 0x0, 0x0, 0x0⟩
  | .TDC_CD_STAT => ⟨0xD1000, 0x4, 28, 0x0, 1, false, 0x0, 0x40000000, 0x0, 0x0, 0x0⟩
  | .TDC_CD_AGE => ⟨0xD1100, 0x4, 28, 0x0, 1, false, 0x0, 0x0, 0x0, 0x0, 0xFFFFFFFF⟩
  | .TDC_CD_COUNT => ⟨0xD1200, 0x4, 28, 0x0, 1, false, 0x0, 0x0, 0x0, 0x0, 0x0⟩
  | .TDC_CD_TABLE => ⟨0xD2000, 0x800, 28, 0x4, 512, false, 0x0, 0x0, 0x0, 0x0, 0x4000400⟩
  | .MON_CFG => ⟨0xE0000, 0x0, 1, 0x0, 1, false, 0x80000103, 0x0, 0x0, 0x0, 0x80000000⟩
  | .MON_STATUS => ⟨0xE0004, 0x0, 1, 0x0, 1, false, 0x0, 0xF0, 0x0, 0x0, 0x0⟩
  | .MON_SEQ_CFG => ⟨0xE0008, 0x0, 1, 0x0, 1, false, 0x800FFFFF, 0x0, 0x0, 0x0, 0x800003E8⟩
  | .MON_URGENT => ⟨0xE000C, 0x0, 1, 0x0, 1, false, 0x3F, 0x0, 0x80000000, 0x0, 0x0⟩
  | .MON_GZB_CFG => ⟨0xE0010, 0x0, 1, 0x0, 1, false, 0x83FF03FF, 0x0, 0x0, 0x0, 0x80640032⟩
  | .MON_LOST_COUNT => ⟨0xE0014, 0x0, 1, 0x0, 1, false, 0x0, 0x0, 0x0, 0x0, 0x0⟩
  | .MON_OVERRUN_COUNT => ⟨0xE0018, 0x0, 1, 0x0, 1, false, 0x0, 0x0, 0x0, 0x0, 0x0⟩
  | .MON_CH_CFG => ⟨0xE0100, 0x4, 64, 0x0, 1, false, 0xF7F30000, 0x0, 0x0, 0x0, 0x10000⟩
  | .MON_CH_STATUS => ⟨0xE0200, 0x4, 64, 0x0, 1, false, 0x0, 0x0, 0x0, 0x0, 0x700⟩
  | .MON_LAST => ⟨0xE0400, 0x8, 64, 0x0, 1, true, 0x0, 0x0, 0x0, 0x0, 0x0⟩
  | .MON_WIN_CFG => ⟨0xE0600, 0x10, 16, 0x0, 1, false, 0xE03F00FF, 0x0, 0x0, 0x0, 0x8⟩
  | .MON_WIN_THR => ⟨0xE0604, 0x10, 16, 0x0, 1, false, 0xFFF0FFF, 0x0, 0x0, 0x0, 0xFFF0000⟩
  | .MON_WIN_COUNT => ⟨0xE0608, 0x10, 16, 0x0, 1, false, 0x0, 0x0, 0x0, 0x0, 0x0⟩
  | .MON_WIN_STATUS => ⟨0xE0700, 0x0, 1, 0x0, 1, false, 0x0, 0xFFFF, 0x0, 0x0, 0x0⟩
  | .EXC_CFG => ⟨0xE0800, 0x10, 8, 0x0, 1, false, 0xC3000FFF, 0x0, 0x0, 0x0, 0x1000000⟩
  | .EXC_STATUS => ⟨0xE0804, 0x10, 8, 0x0, 1, false, 0x0, 0x21, 0x0, 0x0, 0x0⟩
  | .EXC_MEAS => ⟨0xE0808, 0x10, 8, 0x0, 1, false, 0x0, 0x0, 0x0, 0x0, 0x0⟩
  | .EXC_LOSS_COUNT => ⟨0xE080C, 0x10, 8, 0x0, 1, false, 0x0, 0x0, 0x0, 0x0, 0x0⟩
  | .CELL_CAL_STATUS => ⟨0x100, 0x0, 1, 0x0, 1, false, 0x0, 0x1, 0x0, 0x0, 0x0⟩
  | .CELL_CAL_COUNT => ⟨0x104, 0x0, 1, 0x0, 1, false, 0x0, 0x0, 0x0, 0x0, 0x0⟩
  | .CELL_CAL_ATTEMPTS => ⟨0x108, 0x0, 1, 0x0, 1, false, 0x0, 0x0, 0x0, 0x0, 0x0⟩
  | .CELL_CAL_TEMP => ⟨0x10C, 0x0, 1, 0x0, 1, false, 0x0, 0x0, 0x0, 0x0, 0x0⟩
  | .CELL_CAL_TIME => ⟨0x110, 0x0, 1, 0x0, 1, true, 0x0, 0x0, 0x0, 0x0, 0x0⟩
  | .CELL_CAL_RESID => ⟨0x118, 0x0, 1, 0x0, 1, false, 0x0, 0x0, 0x0, 0x0, 0x0⟩
  | .CAL_CTRL => ⟨0xF0000, 0x0, 1, 0x0, 1, false, 0x80000000, 0x0, 0x1, 0x0, 0x80000000⟩
  | .CAL_STATUS => ⟨0xF0004, 0x0, 1, 0x0, 1, false, 0x0, 0x1C, 0x0, 0x0, 0x0⟩
  | .CAL_REF_UV => ⟨0xF0008, 0x0, 1, 0x0, 1, false, 0xFFFFFFFF, 0x0, 0x0, 0x0, 0xF4240⟩
  | .CAL_SCHED => ⟨0xF000C, 0x0, 1, 0x0, 1, false, 0xFFFFFFFF, 0x0, 0x0, 0x0, 0xC8⟩
  | .CAL_TOL => ⟨0xF0010, 0x0, 1, 0x0, 1, false, 0xFFFFFFFF, 0x0, 0x0, 0x0, 0x2020020⟩
  | .CAL_REQ => ⟨0xF0014, 0x0, 1, 0x0, 1, false, 0x0, 0x0, 0x0, 0x1F1F, 0x0⟩
  | .CAL_ACCEPT_COUNT => ⟨0xF0018, 0x0, 1, 0x0, 1, false, 0x0, 0x0, 0x0, 0x0, 0x0⟩
  | .CAL_SUSPECT_COUNT => ⟨0xF001C, 0x0, 1, 0x0, 1, false, 0x0, 0x0, 0x0, 0x0, 0x0⟩
  | .CAL_RGN_TEMP => ⟨0xF0020, 0x4, 6, 0x0, 1, false, 0x0, 0x0, 0x0, 0x0, 0x0⟩
  | .CAL_BLK_STATUS => ⟨0xF0040, 0x4, 24, 0x0, 1, false, 0x0, 0x0, 0x0, 0x0, 0x0⟩
  | .CAL_MON_PERIOD => ⟨0xF0100, 0x0, 1, 0x0, 1, false, 0xFFFF, 0x0, 0x0, 0x0, 0x3E8⟩
  | .CAL_MON_CORR => ⟨0xF0110, 0x8, 2, 0x4, 2, false, 0x0, 0x0, 0x0, 0x0, 0x0⟩
  | .CAL_PULSE_CFG => ⟨0xF0200, 0x0, 1, 0x0, 1, false, 0x80FFFF00, 0x0, 0x0, 0x0, 0x80000⟩
  | .CAL_PULSE_LEVEL => ⟨0xF0204, 0x0, 1, 0x0, 1, false, 0xFFFF, 0x0, 0x0, 0x0, 0x0⟩
  | .CAL_STROBE_COUNT => ⟨0xF0208, 0x0, 1, 0x0, 1, false, 0x0, 0x0, 0x0, 0x0, 0x0⟩
  | .CAL_PULSE_MASK => ⟨0xF0210, 0x4, 12, 0x0, 1, false, 0xFFFFFFFF, 0x0, 0x0, 0x0, 0x0⟩
  | .UL_CTRL => ⟨0x70000, 0x40, 12, 0x0, 1, false, 0x31, 0x0, 0x8, 0x0, 0x1⟩
  | .UL_CFG => ⟨0x70004, 0x40, 12, 0x0, 1, false, 0x8000F1FF, 0x0, 0x0, 0x0, 0xA082⟩
  | .UL_STATUS => ⟨0x70008, 0x40, 12, 0x0, 1, false, 0x0, 0xC000, 0x0, 0x0, 0x1⟩
  | .UL_TRAIN_FAILS => ⟨0x7000C, 0x40, 12, 0x0, 1, false, 0x0, 0x0, 0x0, 0x0, 0x0⟩
  | .UL_FRAMES => ⟨0x70010, 0x40, 12, 0x0, 1, true, 0x0, 0x0, 0x0, 0x0, 0x0⟩
  | .UL_ACKED => ⟨0x70018, 0x40, 12, 0x0, 1, false, 0x0, 0x0, 0x0, 0x0, 0x0⟩
  | .UL_REPLAY_COUNT => ⟨0x7001C, 0x40, 12, 0x0, 1, false, 0x0, 0x0, 0x0, 0x0, 0x0⟩
  | .UL_LOOP_SYM => ⟨0x70020, 0x40, 12, 0x0, 1, true, 0x0, 0x0, 0x0, 0x0, 0x0⟩
  | .UL_LOOP_ERR => ⟨0x70028, 0x40, 12, 0x0, 1, false, 0x0, 0x0, 0x0, 0x0, 0x0⟩
  | .UL_COMMON_CFG => ⟨0x70400, 0x0, 1, 0x0, 1, false, 0x3, 0x0, 0x0, 0x0, 0x0⟩
  | .UL_COMMON_CTRL => ⟨0x70404, 0x0, 1, 0x0, 1, false, 0x0, 0x0, 0x1, 0x0, 0x0⟩
  | .UL_SPARE => ⟨0x70408, 0x0, 1, 0x0, 1, false, 0x10F, 0x0, 0x0, 0x0, 0x10B⟩
  | .UL_COMMON_STATUS => ⟨0x7040C, 0x0, 1, 0x0, 1, false, 0x0, 0x1E, 0x0, 0x0, 0x0⟩
  | .UL_TAKEOVER_COUNT => ⟨0x70410, 0x0, 1, 0x0, 1, false, 0x0, 0x0, 0x0, 0x0, 0x0⟩
  | .UL_REPLAY_LOST => ⟨0x70414, 0x0, 1, 0x0, 1, false, 0x0, 0x0, 0x0, 0x0, 0x0⟩
  | .UL_LAST_TAKEOVER => ⟨0x70418, 0x0, 1, 0x0, 1, true, 0x0, 0x0, 0x0, 0x0, 0x0⟩
  | .DL_CTRL => ⟨0x80000, 0x40, 2, 0x0, 1, false, 0x31, 0x0, 0x8, 0x0, 0x1⟩
  | .DL_CFG => ⟨0x80004, 0x40, 2, 0x0, 1, false, 0x8000011F, 0x0, 0x0, 0x0, 0x10⟩
  | .DL_STATUS => ⟨0x80008, 0x40, 2, 0x0, 1, false, 0x0, 0xC000, 0x0, 0x0, 0x1⟩
  | .DL_TRAIN_FAILS => ⟨0x8000C, 0x40, 2, 0x0, 1, false, 0x0, 0x0, 0x0, 0x0, 0x0⟩
  | .DL_CODE_ERR => ⟨0x80010, 0x40, 2, 0x0, 1, false, 0x0, 0x0, 0x0, 0x0, 0x0⟩
  | .DL_LOOP_SYM => ⟨0x80020, 0x40, 2, 0x0, 1, true, 0x0, 0x0, 0x0, 0x0, 0x0⟩
  | .DL_LOOP_ERR => ⟨0x80028, 0x40, 2, 0x0, 1, false, 0x0, 0x0, 0x0, 0x0, 0x0⟩
  | .SPK_CTRL => ⟨0x90000, 0x40, 16, 0x0, 1, false, 0x31, 0x0, 0x8, 0x0, 0x1⟩
  | .SPK_CFG => ⟨0x90004, 0x40, 16, 0x0, 1, false, 0xC000F11F, 0x0, 0x0, 0x0, 0xA010⟩
  | .SPK_STATUS => ⟨0x90008, 0x40, 16, 0x0, 1, false, 0x0, 0xC000, 0x0, 0x0, 0x1⟩
  | .SPK_TRAIN_FAILS => ⟨0x9000C, 0x40, 16, 0x0, 1, false, 0x0, 0x0, 0x0, 0x0, 0x0⟩
  | .SPK_CODE_ERR => ⟨0x90010, 0x40, 16, 0x0, 1, false, 0x0, 0x0, 0x0, 0x0, 0x0⟩
  | .SPK_LOOP_SYM => ⟨0x90020, 0x40, 16, 0x0, 1, true, 0x0, 0x0, 0x0, 0x0, 0x0⟩
  | .SPK_LOOP_ERR => ⟨0x90028, 0x40, 16, 0x0, 1, false, 0x0, 0x0, 0x0, 0x0, 0x0⟩
  | .UL_STREAM_FRAMES => ⟨0x71000, 0x4, 16, 0x0, 1, false, 0x0, 0x0, 0x0, 0x0, 0x0⟩
  | .UL_RESEND_COUNT => ⟨0x71040, 0x0, 1, 0x0, 1, false, 0x0, 0x0, 0x0, 0x0, 0x0⟩
  | .UL_RESEND_REFUSED => ⟨0x71044, 0x0, 1, 0x0, 1, false, 0x0, 0x0, 0x0, 0x0, 0x0⟩
  | .DL_FC_EN => ⟨0x81000, 0x0, 1, 0x0, 1, false, 0x3F, 0x0, 0x0, 0x0, 0xF⟩
  | .DL_HRST_ARM => ⟨0x81004, 0x0, 1, 0x0, 1, false, 0x0, 0x0, 0x1, 0x0, 0x0⟩
  | .DL_GROUPS => ⟨0x81008, 0x0, 1, 0x0, 1, false, 0xFF, 0x0, 0x0, 0x0, 0x0⟩
  | .DL_CTL_STATUS => ⟨0x8100C, 0x0, 1, 0x0, 1, false, 0x0, 0x1F, 0x0, 0x0, 0x0⟩
  | .DL_FC_LOST => ⟨0x81010, 0x0, 1, 0x0, 1, false, 0x0, 0x0, 0x0, 0x0, 0x0⟩
  | .DL_FC_RESCUED => ⟨0x81014, 0x0, 1, 0x0, 1, false, 0x0, 0x0, 0x0, 0x0, 0x0⟩
  | .DL_FC_IGNORED => ⟨0x81018, 0x0, 1, 0x0, 1, false, 0x0, 0x0, 0x0, 0x0, 0x0⟩
  | .DL_CTL_DISCARD => ⟨0x8101C, 0x0, 1, 0x0, 1, false, 0x0, 0x0, 0x0, 0x0, 0x0⟩
  | .DL_OUTSTANDING => ⟨0x81020, 0x0, 1, 0x0, 1, false, 0x0, 0x0, 0x0, 0x0, 0x0⟩
  | .DL_CTL_FULL => ⟨0x81024, 0x0, 1, 0x0, 1, false, 0x0, 0x0, 0x0, 0x0, 0x0⟩
  | .DL_FRAME_BAD => ⟨0x81040, 0x4, 2, 0x0, 1, false, 0x0, 0x0, 0x0, 0x0, 0x0⟩
  | .DL_HOST_ID => ⟨0x81048, 0x4, 2, 0x0, 1, false, 0x0, 0x0, 0x0, 0x0, 0x0⟩
  | .LEAF_CTRL => ⟨0x91000, 0x40, 16, 0x0, 1, false, 0x38, 0x0, 0x6, 0x0, 0x20⟩
  | .LEAF_STATUS => ⟨0x91004, 0x40, 16, 0x0, 1, false, 0x0, 0xBC, 0x0, 0x0, 0x0⟩
  | .LEAF_ID0 => ⟨0x91008, 0x40, 16, 0x0, 1, false, 0x0, 0x0, 0x0, 0x0, 0x0⟩
  | .LEAF_ID1 => ⟨0x9100C, 0x40, 16, 0x0, 1, false, 0x0, 0x0, 0x0, 0x0, 0x0⟩
  | .LEAF_SERIAL => ⟨0x91010, 0x40, 16, 0x0, 1, true, 0x0, 0x0, 0x0, 0x0, 0x0⟩
  | .LEAF_SHAPE => ⟨0x91018, 0x40, 16, 0x0, 1, false, 0x0, 0x0, 0x0, 0x0, 0x0⟩
  | .LEAF_TURN => ⟨0x9101C, 0x40, 16, 0x0, 1, false, 0x0, 0x0, 0x0, 0x0, 0x0⟩
  | .LEAF_CAPS => ⟨0x91020, 0x40, 16, 0x0, 1, false, 0x0, 0x0, 0x0, 0x0, 0x0⟩
  | .LEAF_TS_OFF => ⟨0x91024, 0x40, 16, 0x0, 1, false, 0x0, 0x0, 0x0, 0x0, 0x0⟩
  | .LEAF_TS_ADJ => ⟨0x91028, 0x40, 16, 0x0, 1, false, 0xFF, 0x0, 0x0, 0x0, 0x0⟩
  | .LEAF_REC_COUNT => ⟨0x9102C, 0x40, 16, 0x0, 1, false, 0x0, 0x0, 0x0, 0x0, 0x0⟩
  | .LEAF_REC_DROP => ⟨0x91030, 0x40, 16, 0x0, 1, false, 0x0, 0x0, 0x0, 0x0, 0x0⟩
  | .LEAF_LOST => ⟨0x91034, 0x40, 16, 0x0, 1, false, 0x0, 0x0, 0x0, 0x0, 0x0⟩
  | .LEAF_ALARM_LAST => ⟨0x91038, 0x40, 16, 0x0, 1, false, 0x0, 0x0, 0x0, 0x0, 0x0⟩
  | .LEAF_ISO_LIMIT => ⟨0x9103C, 0x40, 16, 0x0, 1, false, 0xFFFF, 0x0, 0x0, 0x0, 0x0⟩
  | .SPK_CTL_DISCARD => ⟨0x91400, 0x4, 16, 0x0, 1, false, 0x0, 0x0, 0x0, 0x0, 0x0⟩
  | .LEAF_CTL_TIMEOUT => ⟨0x91440, 0x0, 1, 0x0, 1, false, 0xFFFF, 0x0, 0x0, 0x0, 0x64⟩
  | .LEAF_BCAST_CFG => ⟨0x91444, 0x0, 1, 0x0, 1, false, 0xFFFFF, 0x0, 0x0, 0x0, 0x0⟩
  | .LEAF_BCAST_SEL => ⟨0x91448, 0x0, 1, 0x0, 1, false, 0x3FFF3FFF, 0x0, 0x0, 0x0, 0x0⟩
  | .LEAF_BCAST_VALUE => ⟨0x9144C, 0x0, 1, 0x0, 1, false, 0xFFFFFFFF, 0x0, 0x0, 0x0, 0x0⟩
  | .LEAF_BCAST_CTRL => ⟨0x91450, 0x0, 1, 0x0, 1, false, 0x0, 0x2, 0x1, 0x0, 0x0⟩
  | .LEAF_BCAST_RESULT => ⟨0x91454, 0x0, 1, 0x0, 1, false, 0x0, 0x0, 0x0, 0x0, 0x0⟩
  | .LEAF_BCAST_COUNT => ⟨0x91458, 0x0, 1, 0x0, 1, false, 0x0, 0x0, 0x0, 0x0, 0x0⟩
  | .CFG_CTRL => ⟨0x40000, 0x0, 1, 0x0, 1, false, 0x0, 0x0, 0x1F, 0x0, 0x0⟩
  | .CFG_STATUS => ⟨0x40004, 0x0, 1, 0x0, 1, false, 0x0, 0xFF00, 0x0, 0x0, 0x0⟩
  | .CFG_LOAD_DATA => ⟨0x40008, 0x0, 1, 0x0, 1, false, 0x0, 0x0, 0x0, 0xFFFFFFFF, 0x0⟩
  | .CFG_LOAD_COUNT => ⟨0x4000C, 0x0, 1, 0x0, 1, false, 0x0, 0x0, 0x0, 0x0, 0x0⟩
  | .CFG_ERR_FRAME => ⟨0x40010, 0x0, 1, 0x0, 1, false, 0x0, 0x0, 0x0, 0x0, 0x0⟩
  | .CFG_ERR_WORD => ⟨0x40014, 0x0, 1, 0x0, 1, false, 0x0, 0x0, 0x0, 0x0, 0x0⟩
  | .CFG_LOADED_FRAMES => ⟨0x40018, 0x0, 1, 0x0, 1, false, 0x0, 0x0, 0x0, 0x0, 0x0⟩
  | .CFG_APPLY_BX => ⟨0x40020, 0x0, 1, 0x0, 1, true, 0xFFFFFFFF, 0x0, 0x0, 0x0, 0x0⟩
  | .CFG_LAST_APPLY => ⟨0x40028, 0x0, 1, 0x0, 1, true, 0x0, 0x0, 0x0, 0x0, 0x0⟩
  | .CFG_APPLY_COUNT => ⟨0x40030, 0x0, 1, 0x0, 1, false, 0x0, 0x0, 0x0, 0x0, 0x0⟩
  | .CFG_MISSED_COUNT => ⟨0x40034, 0x0, 1, 0x0, 1, false, 0x0, 0x0, 0x0, 0x0, 0x0⟩
  | .CFG_NOP_COUNT => ⟨0x40038, 0x0, 1, 0x0, 1, false, 0x0, 0x0, 0x0, 0x0, 0x0⟩
  | .CFG_SCRUB_CORR => ⟨0x4003C, 0x0, 1, 0x0, 1, false, 0x0, 0x0, 0x0, 0x0, 0x0⟩
  | .CFG_SCRUB_UNCORR => ⟨0x40040, 0x0, 1, 0x0, 1, false, 0x0, 0x0, 0x0, 0x0, 0x0⟩
  | .CFG_READ_SEL => ⟨0x40048, 0x0, 1, 0x0, 1, false, 0xF1FFFFFF, 0x0, 0x0, 0x0, 0x0⟩
  | .CFG_READ_DATA => ⟨0x40100, 0x4, 32, 0x0, 1, false, 0x0, 0x0, 0x0, 0x0, 0x0⟩
  | .RGN_CFG_STATUS => ⟨0x100, 0x0, 1, 0x0, 1, false, 0x0, 0x0, 0x0, 0x0, 0x0⟩
  | .RGN_SCRUB_CORR => ⟨0x104, 0x0, 1, 0x0, 1, false, 0x0, 0x0, 0x0, 0x0, 0x0⟩
  | .RGN_SCRUB_UNCORR => ⟨0x108, 0x0, 1, 0x0, 1, false, 0x0, 0x0, 0x0, 0x0, 0x0⟩
  | .RGN_LOADED_FRAMES => ⟨0x10C, 0x0, 1, 0x0, 1, false, 0x0, 0x0, 0x0, 0x0, 0x0⟩
  | .ID_PART => ⟨0x0, 0x0, 1, 0x0, 1, false, 0x0, 0x0, 0x0, 0x0, 0x56384⟩
  | .ID_REV => ⟨0x4, 0x0, 1, 0x0, 1, false, 0x0, 0x0, 0x0, 0x0, 0xB⟩
  | .ID_UNIQUE => ⟨0x8, 0x0, 1, 0x0, 1, true, 0x0, 0x0, 0x0, 0x0, 0x0⟩
  | .ID_FW_A => ⟨0x10, 0x0, 1, 0x0, 1, false, 0x0, 0x0, 0x0, 0x0, 0x0⟩
  | .ID_FW_B => ⟨0x14, 0x0, 1, 0x0, 1, false, 0x0, 0x0, 0x0, 0x0, 0x0⟩
  | .ID_CFG_FORMAT => ⟨0x18, 0x0, 1, 0x0, 1, false, 0x0, 0x0, 0x0, 0x0, 0x10000⟩
  | .FEAT_OFFER => ⟨0x100, 0x0, 1, 0x0, 1, true, 0x0, 0x0, 0x0, 0x0, 0x0⟩
  | .FEAT_ACCEPT => ⟨0x108, 0x0, 1, 0x0, 1, true, 0xFFFFFFFF, 0x0, 0x0, 0x0, 0x1⟩
  | .SES_CTRL => ⟨0x200, 0x0, 1, 0x0, 1, false, 0x0, 0x0, 0x7, 0x30, 0x0⟩
  | .SES_STATUS => ⟨0x204, 0x0, 1, 0x0, 1, false, 0x0, 0x88000, 0x0, 0x0, 0x0⟩
  | .SES_IDLE_LIMIT => ⟨0x208, 0x0, 1, 0x0, 1, false, 0xFFF, 0x0, 0x0, 0x0, 0x3C⟩
  | .SES_NONCE => ⟨0x210, 0x4, 4, 0x0, 1, false, 0x0, 0x0, 0x0, 0x0, 0x0⟩
  | .SES_TAG => ⟨0x220, 0x4, 8, 0x0, 1, false, 0x0, 0x0, 0x0, 0xFFFFFFFF, 0x0⟩
  | .SES_SLOT => ⟨0x300, 0x4, 4, 0x0, 1, false, 0x0, 0x0, 0x0, 0x0, 0x0⟩
  | .SES_KEY_CTRL => ⟨0x310, 0x0, 1, 0x0, 1, false, 0x0, 0x60000000, 0x3, 0x3F30, 0x0⟩
  | .SES_KEY_DATA => ⟨0x320, 0x4, 8, 0x0, 1, false, 0x0, 0x0, 0x0, 0xFFFFFFFF, 0x0⟩
  | .PORT_CFG => ⟨0x50000, 0x0, 1, 0x0, 1, false, 0x3F, 0x0, 0x0, 0x0, 0x20⟩
  | .PORT_STATUS => ⟨0x50004, 0x0, 1, 0x0, 1, false, 0x0, 0x1F, 0x0, 0x0, 0x0⟩
  | .PORT_LAST_STATUS => ⟨0x50008, 0x0, 1, 0x0, 1, false, 0x0, 0x0, 0x0, 0x0, 0x0⟩
  | .PORT_TRANS_COUNT => ⟨0x5000C, 0x0, 1, 0x0, 1, false, 0x0, 0x0, 0x0, 0x0, 0x0⟩
  | .PORT_CUT_COUNT => ⟨0x50010, 0x0, 1, 0x0, 1, false, 0x0, 0x0, 0x0, 0x0, 0x0⟩
  | .FLASH_CFG => ⟨0x50100, 0x0, 1, 0x0, 1, false, 0xF, 0x0, 0x0, 0x0, 0x4⟩
  | .FLASH_STATUS => ⟨0x50104, 0x0, 1, 0x0, 1, false, 0x0, 0x60, 0x0, 0x0, 0x0⟩
  | .FLASH_JEDEC_ID => ⟨0x50108, 0x0, 1, 0x0, 1, false, 0x0, 0x0, 0x0, 0x0, 0x0⟩
  | .FLASH_DENSITY => ⟨0x5010C, 0x0, 1, 0x0, 1, false, 0x0, 0x0, 0x0, 0x0, 0x0⟩
  | .FLASH_DUMMY => ⟨0x50110, 0x0, 1, 0x0, 1, false, 0x0, 0x0, 0x0, 0x0, 0x0⟩
  | .FLASH_FETCHES => ⟨0x50114, 0x0, 1, 0x0, 1, false, 0x0, 0x0, 0x0, 0x0, 0x0⟩
  | .FLASH_HITS => ⟨0x50118, 0x0, 1, 0x0, 1, false, 0x0, 0x0, 0x0, 0x0, 0x0⟩
  | .KPR_CTRL => ⟨0x30000, 0x0, 1, 0x0, 1, false, 0x0, 0x0, 0x7, 0x0, 0x0⟩
  | .KPR_STATUS => ⟨0x30004, 0x0, 1, 0x0, 1, false, 0x0, 0xE000, 0x0, 0x0, 0x400⟩
  | .HASP_STATUS => ⟨0x30008, 0x0, 1, 0x0, 1, false, 0x0, 0x8, 0x0, 0x0, 0x0⟩
  | .HASP_TAKEOVER_COUNT => ⟨0x3000C, 0x0, 1, 0x0, 1, false, 0x0, 0x0, 0x0, 0x0, 0x0⟩
  | .HASP_LAST_TAKEOVER => ⟨0x30010, 0x0, 1, 0x0, 1, true, 0x0, 0x0, 0x0, 0x0, 0x0⟩
  | .KPR_REPLAY_COUNT => ⟨0x30018, 0x0, 1, 0x0, 1, false, 0x0, 0x0, 0x0, 0x0, 0x0⟩
  | .KPR_CKPT_GEN => ⟨0x3001C, 0x0, 1, 0x0, 1, false, 0x0, 0x0, 0x0, 0x0, 0x0⟩
  | .KPR_JOURNAL => ⟨0x30020, 0x0, 1, 0x0, 1, false, 0x0, 0x0, 0x0, 0x0, 0x0⟩
  | .KPR_HEALTH => ⟨0x30040, 0x20, 2, 0x0, 1, false, 0x0, 0x0, 0x0, 0x0, 0x0⟩
  | .KPR_MARCH_PASSES => ⟨0x30044, 0x20, 2, 0x0, 1, false, 0x0, 0x0, 0x0, 0x0, 0x0⟩
  | .KPR_SRAM_CORR => ⟨0x30048, 0x20, 2, 0x0, 1, false, 0x0, 0x0, 0x0, 0x0, 0x0⟩
  | .KPR_UPTIME => ⟨0x3004C, 0x20, 2, 0x0, 1, false, 0x0, 0x0, 0x0, 0x0, 0x0⟩
  | .KPR_UPD_CTRL => ⟨0x30100, 0x0, 1, 0x0, 1, false, 0x0, 0x0, 0x1F, 0x0, 0x0⟩
  | .KPR_UPD_STATUS => ⟨0x30104, 0x0, 1, 0x0, 1, false, 0x0, 0x3000, 0x0, 0x0, 0x0⟩
  | .KPR_UPD_LEN => ⟨0x30108, 0x0, 1, 0x0, 1, false, 0xFFFFFFFF, 0x0, 0x0, 0x0, 0x0⟩
  | .KPR_UPD_DATA => ⟨0x3010C, 0x0, 1, 0x0, 1, false, 0x0, 0x0, 0x0, 0xFFFFFFFF, 0x0⟩
  | .KPR_UPD_VERSION => ⟨0x30110, 0x0, 1, 0x0, 1, false, 0x0, 0x0, 0x0, 0x0, 0x0⟩
  | .KPR_UPD_COUNT => ⟨0x30114, 0x0, 1, 0x0, 1, false, 0x0, 0x0, 0x0, 0x0, 0x0⟩
  | .Q_COUNT => ⟨0x60000, 0x20, 8, 0x0, 1, false, 0x0, 0x0, 0x0, 0x0, 0x0⟩
  | .Q_CTRL => ⟨0x60004, 0x20, 8, 0x0, 1, false, 0x0, 0x0, 0x1, 0x0, 0x0⟩
  | .Q_STATUS => ⟨0x60008, 0x20, 8, 0x0, 1, false, 0x0, 0x1, 0x0, 0x0, 0x0⟩
  | .Q_CORR => ⟨0x6000C, 0x20, 8, 0x0, 1, false, 0x0, 0x0, 0x0, 0x0, 0x0⟩
  | .Q_UNCORR => ⟨0x60010, 0x20, 8, 0x0, 1, false, 0x0, 0x0, 0x0, 0x0, 0x0⟩
  | .Q_PUSH_FULL => ⟨0x60014, 0x20, 8, 0x0, 1, false, 0x0, 0x0, 0x0, 0x0, 0x0⟩
  | .Q_POP_EMPTY => ⟨0x60018, 0x20, 8, 0x0, 1, false, 0x0, 0x0, 0x0, 0x0, 0x0⟩
  | .Q_FLUSH_TAIL => ⟨0x6001C, 0x20, 8, 0x0, 1, false, 0x0, 0x0, 0x0, 0x0, 0x0⟩
  | .PWR_CTRL => ⟨0x10000, 0x0, 1, 0x0, 1, false, 0x0, 0x0, 0x18, 0xFF000007, 0x0⟩
  | .PWR_CFG => ⟨0x10004, 0x0, 1, 0x0, 1, false, 0x3FFF, 0x0, 0x0, 0x0, 0x1001⟩
  | .PWR_STATUS => ⟨0x10008, 0x0, 1, 0x0, 1, false, 0x0, 0x30, 0x0, 0x0, 0xF80001⟩
  | .PWR_CELL_RESET => ⟨0x1000C, 0x0, 1, 0x0, 1, false, 0x0, 0x0, 0x1, 0x1F3E, 0x0⟩
  | .PWR_BOOT_TIME => ⟨0x10010, 0x0, 1, 0x0, 1, false, 0x0, 0x0, 0x0, 0x0, 0xFFFFFFFF⟩
  | .PWR_RESET_COUNT => ⟨0x10014, 0x0, 1, 0x0, 1, false, 0x0, 0x0, 0x0, 0x0, 0x0⟩
  | .PWR_SUPPLY => ⟨0x10020, 0x4, 5, 0x0, 1, false, 0x0, 0x0, 0x0, 0x0, 0x0⟩
  | .GZB_CTRL => ⟨0x10100, 0x0, 1, 0x0, 1, false, 0x0, 0x0, 0x1, 0x0, 0x0⟩
  | .GZB_WAKE_EN => ⟨0x10104, 0x0, 1, 0x0, 1, false, 0x7, 0x0, 0x0, 0x0, 0x7⟩
  | .GZB_STATUS => ⟨0x10108, 0x0, 1, 0x0, 1, false, 0x0, 0xF, 0x0, 0x0, 0x0⟩
  | .GZB_TIME => ⟨0x10110, 0x0, 1, 0x0, 1, true, 0x0, 0x0, 0x0, 0x0, 0x0⟩
  | .GZB_LAST_ENTRY => ⟨0x10118, 0x0, 1, 0x0, 1, true, 0x0, 0x0, 0x0, 0x0, 0x0⟩
  | .GZB_LAST_WAKE => ⟨0x10120, 0x0, 1, 0x0, 1, true, 0x0, 0x0, 0x0, 0x0, 0x0⟩
  | .GZB_LOG_COUNT => ⟨0x10128, 0x0, 1, 0x0, 1, false, 0x0, 0x0, 0x0, 0x0, 0x0⟩
  | .GZB_LOG_TIME => ⟨0x10200, 0x10, 16, 0x0, 1, true, 0x0, 0x0, 0x0, 0x0, 0x0⟩
  | .GZB_LOG_CAUSE => ⟨0x10208, 0x10, 16, 0x0, 1, false, 0x0, 0x0, 0x0, 0x0, 0x0⟩

/-- The registers of the window at 0x0000_0000 (R22). -/
def page0 : List RegName :=
  [.ID_PART, .ID_REV, .ID_UNIQUE, .ID_FW_A, .ID_FW_B, .ID_CFG_FORMAT, .FEAT_OFFER, .FEAT_ACCEPT,
    .SES_CTRL, .SES_STATUS, .SES_IDLE_LIMIT, .SES_NONCE, .SES_TAG, .SES_SLOT, .SES_KEY_CTRL, .SES_KEY_DATA]

/-- The registers of the window at 0x0001_0000 (R22). -/
def page1 : List RegName :=
  [.PWR_CTRL, .PWR_CFG, .PWR_STATUS, .PWR_CELL_RESET, .PWR_BOOT_TIME, .PWR_RESET_COUNT, .PWR_SUPPLY,
    .GZB_CTRL, .GZB_WAKE_EN, .GZB_STATUS, .GZB_TIME, .GZB_LAST_ENTRY, .GZB_LAST_WAKE, .GZB_LOG_COUNT,
    .GZB_LOG_TIME, .GZB_LOG_CAUSE]

/-- The registers of the window at 0x0002_0000 (R22). -/
def page2 : List RegName :=
  [.CLK_CTRL, .CLK_STATUS, .CLK_REF_CFG, .CLK_BXC_FREQ, .CLK_AB_OFFSET, .CLK_HOLD_TIME, .CLK_SWITCH_COUNT,
    .TIME_NOW, .TIME_BX_PRESET, .TIME_STATUS, .TIME_BXSET_COUNT, .TIME_GZB_AT_SET, .TIME_TARGET,
    .TIME_PATH_DELAY, .TIME_RTT, .TIME_HUB_OFFSET, .TIME_ALIGN, .TIME_ALIGN_NEXT, .TIME_ALIGN_BX,
    .TIME_ALIGN_CTRL, .ORG_CTRL, .ORG_STATUS, .ORG_TEMP, .ORG_WARM_TIME]

/-- The registers of the window at 0x0003_0000 (R22). -/
def page3 : List RegName :=
  [.KPR_CTRL, .KPR_STATUS, .HASP_STATUS, .HASP_TAKEOVER_COUNT, .HASP_LAST_TAKEOVER, .KPR_REPLAY_COUNT,
    .KPR_CKPT_GEN, .KPR_JOURNAL, .KPR_HEALTH, .KPR_MARCH_PASSES, .KPR_SRAM_CORR, .KPR_UPTIME,
    .KPR_UPD_CTRL, .KPR_UPD_STATUS, .KPR_UPD_LEN, .KPR_UPD_DATA, .KPR_UPD_VERSION, .KPR_UPD_COUNT]

/-- The registers of the window at 0x0004_0000 (R22). -/
def page4 : List RegName :=
  [.CFG_CTRL, .CFG_STATUS, .CFG_LOAD_DATA, .CFG_LOAD_COUNT, .CFG_ERR_FRAME, .CFG_ERR_WORD,
    .CFG_LOADED_FRAMES, .CFG_APPLY_BX, .CFG_LAST_APPLY, .CFG_APPLY_COUNT, .CFG_MISSED_COUNT,
    .CFG_NOP_COUNT, .CFG_SCRUB_CORR, .CFG_SCRUB_UNCORR, .CFG_READ_SEL, .CFG_READ_DATA]

/-- The registers of the window at 0x0005_0000 (R22). -/
def page5 : List RegName :=
  [.PORT_CFG, .PORT_STATUS, .PORT_LAST_STATUS, .PORT_TRANS_COUNT, .PORT_CUT_COUNT, .FLASH_CFG,
    .FLASH_STATUS, .FLASH_JEDEC_ID, .FLASH_DENSITY, .FLASH_DUMMY, .FLASH_FETCHES, .FLASH_HITS]

/-- The registers of the window at 0x0006_0000 (R22). -/
def page6 : List RegName :=
  [.Q_COUNT, .Q_CTRL, .Q_STATUS, .Q_CORR, .Q_UNCORR, .Q_PUSH_FULL, .Q_POP_EMPTY, .Q_FLUSH_TAIL]

/-- The registers of the window at 0x0007_0000 (R22). -/
def page7 : List RegName :=
  [.UL_CTRL, .UL_CFG, .UL_STATUS, .UL_TRAIN_FAILS, .UL_FRAMES, .UL_ACKED, .UL_REPLAY_COUNT, .UL_LOOP_SYM,
    .UL_LOOP_ERR, .UL_COMMON_CFG, .UL_COMMON_CTRL, .UL_SPARE, .UL_COMMON_STATUS, .UL_TAKEOVER_COUNT,
    .UL_REPLAY_LOST, .UL_LAST_TAKEOVER, .UL_STREAM_FRAMES, .UL_RESEND_COUNT, .UL_RESEND_REFUSED]

/-- The registers of the window at 0x0008_0000 (R22). -/
def page8 : List RegName :=
  [.DL_CTRL, .DL_CFG, .DL_STATUS, .DL_TRAIN_FAILS, .DL_CODE_ERR, .DL_LOOP_SYM, .DL_LOOP_ERR, .DL_FC_EN,
    .DL_HRST_ARM, .DL_GROUPS, .DL_CTL_STATUS, .DL_FC_LOST, .DL_FC_RESCUED, .DL_FC_IGNORED, .DL_CTL_DISCARD,
    .DL_OUTSTANDING, .DL_CTL_FULL, .DL_FRAME_BAD, .DL_HOST_ID]

/-- The registers of the window at 0x0009_0000 (R22). -/
def page9 : List RegName :=
  [.SPK_CTRL, .SPK_CFG, .SPK_STATUS, .SPK_TRAIN_FAILS, .SPK_CODE_ERR, .SPK_LOOP_SYM, .SPK_LOOP_ERR,
    .LEAF_CTRL, .LEAF_STATUS, .LEAF_ID0, .LEAF_ID1, .LEAF_SERIAL, .LEAF_SHAPE, .LEAF_TURN, .LEAF_CAPS,
    .LEAF_TS_OFF, .LEAF_TS_ADJ, .LEAF_REC_COUNT, .LEAF_REC_DROP, .LEAF_LOST, .LEAF_ALARM_LAST,
    .LEAF_ISO_LIMIT, .SPK_CTL_DISCARD, .LEAF_CTL_TIMEOUT, .LEAF_BCAST_CFG, .LEAF_BCAST_SEL,
    .LEAF_BCAST_VALUE, .LEAF_BCAST_CTRL, .LEAF_BCAST_RESULT, .LEAF_BCAST_COUNT]

/-- The registers of the window at 0x000A_0000 (R22). -/
def pageA : List RegName :=
  [.TRG_CFG, .TRG_STATUS, .TRG_LATENCY, .TRG_WINDOW, .TRG_TB, .TRG_COND_LAT, .TRG_CTRL, .TRG_FREE_SLOTS,
    .TRG_SLOT_BUSY, .TRG_EVT_NEXT, .TRG_EVT_PRESET, .TRG_LAST_CAUSE, .TRG_LAST_EVT, .TRG_LAST_TIME,
    .TRG_COUNT, .TRG_DT_NO_SLOT, .TRG_DT_LATE, .TRG_DT_BUFFER, .TRG_ACC_IGNORED, .TRG_NOSLOT_LOST,
    .TRG_SUM_LOST, .TRG_TB_LATE_COUNT, .TRG_RGN_DT_NO_SLOT, .TRG_RGN_DT_LATE, .TRG_RGN_DT_BUFFER,
    .TRG_C_CFG, .TRG_C_COUNT, .TRG_C_TERM, .TRG_C_THR, .TRG_CHMASK]

/-- The registers of the window at 0x000B_0000 (R22). -/
def pageB : List RegName :=
  [.EVT_STATUS, .EVT_LAG_LIMIT, .EVT_SLOT_TIMEOUT, .EVT_LEAF_INCL, .EVT_LEAF_WIN, .EVT_FREE_PUB,
    .EVT_CLOSED_COUNT, .EVT_NOSLOT_SENT, .EVT_RELEASED, .FORM_CFG]

/-- The registers of the window at 0x000C_0000 (R22). -/
def pageC : List RegName :=
  [.CREC_CFG, .CREC_CTRL, .CREC_STATUS, .CREC_LOST_COUNT, .CREC_LAST_SYNC, .CREC_BLOCK_COUNT,
    .CREC_CH_MASK, .FLT_SETTLE, .FLT_ROM_DESC, .FLT_ROM_COEF]

/-- The registers of the window at 0x000D_0000 (R22). -/
def pageD : List RegName :=
  [.TDC_TIN_CFG, .TDC_TIN_STATUS, .TDC_TIN_FIFO, .TDC_TIN_FLAGS, .TDC_TIN_LEVEL, .TDC_TIN_SKEW, .IVL_CFG,
    .IVL_CTRL, .IVL_STATUS, .IVL_COUNT, .IVL_RESULT, .IVL_RTT_CFG, .IVL_RTT_PERIOD, .IVL_RTT_SPK,
    .IVL_DL_TURN, .IVL_RTT_STATUS, .IVL_RTT_TIMEOUTS, .IVL_DL_LAST, .IVL_SPK_RTT, .FRQ_CFG, .FRQ_GATE,
    .FRQ_CTRL, .FRQ_STATUS, .FRQ_EDGES, .FRQ_REFTIME, .FRQ_RESULT, .TDC_CD_STAT, .TDC_CD_AGE,
    .TDC_CD_COUNT, .TDC_CD_TABLE]

/-- The registers of the window at 0x000E_0000 (R22). -/
def pageE : List RegName :=
  [.MON_CFG, .MON_STATUS, .MON_SEQ_CFG, .MON_URGENT, .MON_GZB_CFG, .MON_LOST_COUNT, .MON_OVERRUN_COUNT,
    .MON_CH_CFG, .MON_CH_STATUS, .MON_LAST, .MON_WIN_CFG, .MON_WIN_THR, .MON_WIN_COUNT, .MON_WIN_STATUS,
    .EXC_CFG, .EXC_STATUS, .EXC_MEAS, .EXC_LOSS_COUNT]

/-- The registers of the window at 0x000F_0000 (R22). -/
def pageF : List RegName :=
  [.CAL_CTRL, .CAL_STATUS, .CAL_REF_UV, .CAL_SCHED, .CAL_TOL, .CAL_REQ, .CAL_ACCEPT_COUNT,
    .CAL_SUSPECT_COUNT, .CAL_RGN_TEMP, .CAL_BLK_STATUS, .CAL_MON_PERIOD, .CAL_MON_CORR, .CAL_PULSE_CFG,
    .CAL_PULSE_LEVEL, .CAL_STROBE_COUNT, .CAL_PULSE_MASK]

/-- The region registers (R229, R412). -/
def rgnPage : List RegName :=
  [.RGN_CTRL, .RGN_STATUS, .RGN_BUF_FREE, .RGN_FRAG_MAX, .RGN_LAG, .RGN_LAST_EVT, .RGN_FRAG_COUNT,
    .RGN_CFG_STATUS, .RGN_SCRUB_CORR, .RGN_SCRUB_UNCORR, .RGN_LOADED_FRAMES]

/-- The block registers (R120, R199, R230). -/
def blkPage : List RegName :=
  [.BLK_CTRL, .BLK_STATUS, .HNG_CFG, .HNG_TOL, .HNG_ROT_MASK, .HNG_STATUS, .HNG_MOVE, .HNG_COMMIT,
    .HNG_PENDING, .HNG_SHADOW_RESULT, .HNG_DIAG, .HNG_DWELL_COUNT, .HNG_HANDOVER_COUNT, .HNG_LAST_COMMIT,
    .BLK_SNAP_CFG, .BLK_SNAP_CTRL, .BLK_SNAP_STATUS, .BLK_SNAP_LABEL, .BLK_SNAP_LAST, .BLK_DIAG_LABEL,
    .BLK_EXTRACT_COUNT, .BLK_ARB_WAIT]

/-- The cell registers (R87, R153, R200, R230, R252, R300). -/
def cellPage : List RegName :=
  [.CELL_CTRL, .CELL_DISC, .CELL_TRIM_HG, .CELL_TRIM_LG, .CELL_GAIN_RATIO, .CELL_STATUS, .CELL_Q_CAUSE,
    .CELL_HEALTH, .CELL_HLTH_CFG, .CELL_Q_COUNT, .CELL_REDUND_COUNT, .CELL_DISC_RATE,
    .CELL_SHADOW_MISMATCH, .CELL_ECC_CORR, .CELL_ECC_UNCORR, .CELL_LAST, .CELL_DLY, .CELL_FLT_PED,
    .CELL_FLT_EST, .CELL_FLT_REC, .CELL_FLT_STATUS, .CELL_FLT_EST_LAST, .CELL_FLT_REC_LAST, .CELL_TRG,
    .CELL_FORM, .CELL_ZS, .TDC_CFG, .TDC_HIT_COUNT, .TDC_PILE_COUNT, .TDC_DROP_COUNT, .TDC_SKEW,
    .TDC_LAST_FLAGS, .TDC_LAST, .CELL_CAL_STATUS, .CELL_CAL_COUNT, .CELL_CAL_ATTEMPTS, .CELL_CAL_TEMP,
    .CELL_CAL_TIME, .CELL_CAL_RESID]

/-- The registers of a chip window by its upper sixteen address bits (R22). -/
def chipPage : Nat → List RegName
  | 0 => page0
  | 1 => page1
  | 2 => page2
  | 3 => page3
  | 4 => page4
  | 5 => page5
  | 6 => page6
  | 7 => page7
  | 8 => page8
  | 9 => page9
  | 10 => pageA
  | 11 => pageB
  | 12 => pageC
  | 13 => pageD
  | 14 => pageE
  | 15 => pageF
  | _ => []

/-- Base of the window of region r (R23). -/
def rgnBase (r : Nat) : Nat := 0x01000000 + r * 0x100000
/-- Base of the page of block j = 4 r + b (R23). -/
def blkBase (j : Nat) : Nat := 0x01000000 + (j / 4) * 0x100000 + 0x10000 + (j % 4) * 0x10000
/-- Base of the window of cell c of block j; c = 16 is the spare (R23). -/
def cellBase (j c : Nat) : Nat := blkBase j + 0x1000 + c * 0x800

/-- CLK_CTRL (R58). -/
def CLK_CTRL : RF := ⟨0x20000, 31, 0⟩
def CLK_CTRL_RELOCK : RF := ⟨0x20000, 7, 7⟩
def CLK_CTRL_REVERT : RF := ⟨0x20000, 6, 6⟩
def CLK_CTRL_DL_SEL : RF := ⟨0x20000, 5, 4⟩
def CLK_CTRL_HOLD_FORCE : RF := ⟨0x20000, 3, 3⟩
/-- CLK_STATUS (R58). -/
def CLK_STATUS : RF := ⟨0x20004, 31, 0⟩
def CLK_STATUS_CFG_ILLEGAL : RF := ⟨0x20004, 19, 19⟩
def CLK_STATUS_BXC_RANGE : RF := ⟨0x20004, 18, 18⟩
def CLK_STATUS_BX_SLIP : RF := ⟨0x20004, 17, 17⟩
def CLK_STATUS_HOLD_STEP : RF := ⟨0x20004, 16, 16⟩
def CLK_STATUS_HOLD_UNQUAL : RF := ⟨0x20004, 15, 15⟩
def CLK_STATUS_HOLD_LONG : RF := ⟨0x20004, 14, 14⟩
def CLK_STATUS_HOLDOVER : RF := ⟨0x20004, 13, 13⟩
def CLK_STATUS_GZB_STOP : RF := ⟨0x20004, 12, 12⟩
def CLK_STATUS_CTL_OSC_SWAP : RF := ⟨0x20004, 11, 11⟩
def CLK_STATUS_LANE_LOCK : RF := ⟨0x20004, 10, 10⟩
def CLK_STATUS_REF_LOST : RF := ⟨0x20004, 9, 9⟩
def CLK_STATUS_REF_COLD : RF := ⟨0x20004, 8, 8⟩
def CLK_STATUS_LOCAL : RF := ⟨0x20004, 6, 6⟩
def CLK_STATUS_DLB_OK : RF := ⟨0x20004, 5, 5⟩
def CLK_STATUS_DLA_OK : RF := ⟨0x20004, 4, 4⟩
def CLK_STATUS_DL_ACTIVE : RF := ⟨0x20004, 3, 3⟩
def CLK_STATUS_MACHINE_LOCK : RF := ⟨0x20004, 2, 2⟩
/-- CLK_REF_CFG (R58). -/
def CLK_REF_CFG : RF := ⟨0x20008, 31, 0⟩
def CLK_REF_CFG_LOCAL_KHZ : RF := ⟨0x20008, 31, 16⟩
def CLK_REF_CFG_REF_KHZ : RF := ⟨0x20008, 15, 0⟩
/-- CLK_BXC_FREQ (R58). -/
def CLK_BXC_FREQ : RF := ⟨0x2000C, 31, 0⟩
/-- CLK_AB_OFFSET (R58). -/
def CLK_AB_OFFSET : RF := ⟨0x20010, 31, 0⟩
/-- CLK_HOLD_TIME (R58). -/
def CLK_HOLD_TIME : RF := ⟨0x20014, 31, 0⟩
/-- CLK_SWITCH_COUNT (R58). -/
def CLK_SWITCH_COUNT : RF := ⟨0x20018, 31, 0⟩
/-- TIME_NOW (R58). -/
def TIME_NOW : RF := ⟨0x20100, 31, 0⟩
/-- TIME_BX_PRESET (R58). -/
def TIME_BX_PRESET : RF := ⟨0x20108, 31, 0⟩
/-- TIME_STATUS (R58). -/
def TIME_STATUS : RF := ⟨0x20110, 31, 0⟩
def TIME_STATUS_ALIGN_NO_CLK : RF := ⟨0x20110, 11, 11⟩
def TIME_STATUS_RTT_VALID : RF := ⟨0x20110, 10, 10⟩
def TIME_STATUS_ALIGN_DONE : RF := ⟨0x20110, 9, 9⟩
def TIME_STATUS_ALIGN_ARMED : RF := ⟨0x20110, 8, 8⟩
def TIME_STATUS_ALIGN_WHOLE_RUN : RF := ⟨0x20110, 7, 7⟩
def TIME_STATUS_ALIGN_LATE : RF := ⟨0x20110, 6, 6⟩
def TIME_STATUS_ALIGN_RANGE : RF := ⟨0x20110, 5, 5⟩
def TIME_STATUS_ALIGN_NEG : RF := ⟨0x20110, 4, 4⟩
def TIME_STATUS_ALIGN_NO_RTT : RF := ⟨0x20110, 3, 3⟩
def TIME_STATUS_WORD_ILLEGAL : RF := ⟨0x20110, 2, 2⟩
def TIME_STATUS_BX_JUMP : RF := ⟨0x20110, 1, 1⟩
def TIME_STATUS_BX_VALID : RF := ⟨0x20110, 0, 0⟩
/-- TIME_BXSET_COUNT (R58). -/
def TIME_BXSET_COUNT : RF := ⟨0x20114, 31, 0⟩
/-- TIME_GZB_AT_SET (R58). -/
def TIME_GZB_AT_SET : RF := ⟨0x20118, 31, 0⟩
/-- TIME_TARGET (R58). -/
def TIME_TARGET : RF := ⟨0x20120, 31, 0⟩
/-- TIME_PATH_DELAY (R58). -/
def TIME_PATH_DELAY : RF := ⟨0x20124, 31, 0⟩
/-- TIME_RTT (R58). -/
def TIME_RTT : RF := ⟨0x20128, 31, 0⟩
/-- TIME_HUB_OFFSET (R58). -/
def TIME_HUB_OFFSET : RF := ⟨0x2012C, 31, 0⟩
/-- TIME_ALIGN (R58). -/
def TIME_ALIGN : RF := ⟨0x20130, 31, 0⟩
def TIME_ALIGN_WHOLE : RF := ⟨0x20130, 19, 12⟩
def TIME_ALIGN_COARSE : RF := ⟨0x20130, 11, 6⟩
def TIME_ALIGN_FINE : RF := ⟨0x20130, 5, 0⟩
/-- TIME_ALIGN_NEXT (R58). -/
def TIME_ALIGN_NEXT : RF := ⟨0x20134, 31, 0⟩
def TIME_ALIGN_NEXT_WHOLE : RF := ⟨0x20134, 19, 12⟩
def TIME_ALIGN_NEXT_COARSE : RF := ⟨0x20134, 11, 6⟩
def TIME_ALIGN_NEXT_FINE : RF := ⟨0x20134, 5, 0⟩
/-- TIME_ALIGN_BX (R58). -/
def TIME_ALIGN_BX : RF := ⟨0x20138, 31, 0⟩
/-- TIME_ALIGN_CTRL (R58). -/
def TIME_ALIGN_CTRL : RF := ⟨0x20140, 31, 0⟩
def TIME_ALIGN_CTRL_CANCEL : RF := ⟨0x20140, 2, 2⟩
def TIME_ALIGN_CTRL_ARM : RF := ⟨0x20140, 1, 1⟩
def TIME_ALIGN_CTRL_COMPUTE : RF := ⟨0x20140, 0, 0⟩
/-- ORG_CTRL (R58). -/
def ORG_CTRL : RF := ⟨0x20200, 31, 0⟩
def ORG_CTRL_EN : RF := ⟨0x20200, 16, 16⟩
def ORG_CTRL_SETPOINT : RF := ⟨0x20200, 9, 0⟩
/-- ORG_STATUS (R58). -/
def ORG_STATUS : RF := ⟨0x20204, 31, 0⟩
def ORG_STATUS_HEATER_MW : RF := ⟨0x20204, 23, 16⟩
def ORG_STATUS_SET_ILLEGAL : RF := ⟨0x20204, 4, 4⟩
def ORG_STATUS_MARGIN_LOW : RF := ⟨0x20204, 3, 3⟩
def ORG_STATUS_HEAT_SAT : RF := ⟨0x20204, 2, 2⟩
def ORG_STATUS_WARM_LOST : RF := ⟨0x20204, 1, 1⟩
def ORG_STATUS_WARM : RF := ⟨0x20204, 0, 0⟩
/-- ORG_TEMP (R58). -/
def ORG_TEMP : RF := ⟨0x20208, 31, 0⟩
def ORG_TEMP_DIE_MAX : RF := ⟨0x20208, 31, 16⟩
def ORG_TEMP_ISLAND : RF := ⟨0x20208, 15, 0⟩
/-- ORG_WARM_TIME (R58). -/
def ORG_WARM_TIME : RF := ⟨0x2020C, 31, 0⟩
/-- CELL_CTRL (R87). -/
def CELL_CTRL (j c : Nat) : RF := ⟨cellBase j c + 0x0, 31, 0⟩
def CELL_CTRL_SAT_MARGIN (j c : Nat) : RF := ⟨cellBase j c + 0x0, 23, 16⟩
def CELL_CTRL_AAF_BW (j c : Nat) : RF := ⟨cellBase j c + 0x0, 13, 8⟩
def CELL_CTRL_GAIN_MODE (j c : Nat) : RF := ⟨cellBase j c + 0x0, 5, 4⟩
def CELL_CTRL_TERM (j c : Nat) : RF := ⟨cellBase j c + 0x0, 1, 1⟩
def CELL_CTRL_EN (j c : Nat) : RF := ⟨cellBase j c + 0x0, 0, 0⟩
/-- CELL_DISC (R87). -/
def CELL_DISC (j c : Nat) : RF := ⟨cellBase j c + 0x4, 31, 0⟩
def CELL_DISC_EN (j c : Nat) : RF := ⟨cellBase j c + 0x4, 16, 16⟩
def CELL_DISC_POL (j c : Nat) : RF := ⟨cellBase j c + 0x4, 15, 15⟩
def CELL_DISC_HYST (j c : Nat) : RF := ⟨cellBase j c + 0x4, 12, 10⟩
def CELL_DISC_THRESH (j c : Nat) : RF := ⟨cellBase j c + 0x4, 9, 0⟩
/-- CELL_TRIM_HG (R87). -/
def CELL_TRIM_HG (j c : Nat) : RF := ⟨cellBase j c + 0x8, 31, 0⟩
def CELL_TRIM_HG_GAIN (j c : Nat) : RF := ⟨cellBase j c + 0x8, 25, 16⟩
def CELL_TRIM_HG_OFFSET (j c : Nat) : RF := ⟨cellBase j c + 0x8, 9, 0⟩
/-- CELL_TRIM_LG (R87). -/
def CELL_TRIM_LG (j c : Nat) : RF := ⟨cellBase j c + 0xC, 31, 0⟩
def CELL_TRIM_LG_GAIN (j c : Nat) : RF := ⟨cellBase j c + 0xC, 25, 16⟩
def CELL_TRIM_LG_OFFSET (j c : Nat) : RF := ⟨cellBase j c + 0xC, 9, 0⟩
/-- CELL_GAIN_RATIO (R87). -/
def CELL_GAIN_RATIO (j c : Nat) : RF := ⟨cellBase j c + 0x10, 31, 0⟩
def CELL_GAIN_RATIO_RATIO (j c : Nat) : RF := ⟨cellBase j c + 0x10, 23, 0⟩
/-- CELL_STATUS (R87). -/
def CELL_STATUS (j c : Nat) : RF := ⟨cellBase j c + 0x14, 31, 0⟩
def CELL_STATUS_CFG_ILLEGAL (j c : Nat) : RF := ⟨cellBase j c + 0x14, 4, 4⟩
def CELL_STATUS_SETTLING (j c : Nat) : RF := ⟨cellBase j c + 0x14, 3, 3⟩
def CELL_STATUS_COVERED (j c : Nat) : RF := ⟨cellBase j c + 0x14, 2, 2⟩
def CELL_STATUS_SERVING (j c : Nat) : RF := ⟨cellBase j c + 0x14, 1, 1⟩
def CELL_STATUS_LIVE (j c : Nat) : RF := ⟨cellBase j c + 0x14, 0, 0⟩
/-- CELL_Q_CAUSE (R87). -/
def CELL_Q_CAUSE (j c : Nat) : RF := ⟨cellBase j c + 0x18, 31, 0⟩
def CELL_Q_CAUSE_TIMEBASE (j c : Nat) : RF := ⟨cellBase j c + 0x18, 10, 10⟩
def CELL_Q_CAUSE_PHASE (j c : Nat) : RF := ⟨cellBase j c + 0x18, 9, 9⟩
def CELL_Q_CAUSE_DELAY (j c : Nat) : RF := ⟨cellBase j c + 0x18, 8, 8⟩
def CELL_Q_CAUSE_UNCOVERED (j c : Nat) : RF := ⟨cellBase j c + 0x18, 7, 7⟩
def CELL_Q_CAUSE_SUSPECT (j c : Nat) : RF := ⟨cellBase j c + 0x18, 6, 6⟩
def CELL_Q_CAUSE_REDUND (j c : Nat) : RF := ⟨cellBase j c + 0x18, 5, 5⟩
def CELL_Q_CAUSE_TRIM (j c : Nat) : RF := ⟨cellBase j c + 0x18, 4, 4⟩
def CELL_Q_CAUSE_FRONT_END (j c : Nat) : RF := ⟨cellBase j c + 0x18, 3, 3⟩
def CELL_Q_CAUSE_GAIN_MODE (j c : Nat) : RF := ⟨cellBase j c + 0x18, 2, 2⟩
def CELL_Q_CAUSE_ENABLE (j c : Nat) : RF := ⟨cellBase j c + 0x18, 1, 1⟩
/-- CELL_HEALTH (R87). -/
def CELL_HEALTH (j c : Nat) : RF := ⟨cellBase j c + 0x1C, 31, 0⟩
def CELL_HEALTH_CLEAR (j c : Nat) : RF := ⟨cellBase j c + 0x1C, 15, 15⟩
def CELL_HEALTH_CAUSE_SHADOW (j c : Nat) : RF := ⟨cellBase j c + 0x1C, 7, 7⟩
def CELL_HEALTH_CAUSE_CAL (j c : Nat) : RF := ⟨cellBase j c + 0x1C, 6, 6⟩
def CELL_HEALTH_CAUSE_ECC (j c : Nat) : RF := ⟨cellBase j c + 0x1C, 5, 5⟩
def CELL_HEALTH_CAUSE_RATE (j c : Nat) : RF := ⟨cellBase j c + 0x1C, 4, 4⟩
def CELL_HEALTH_CAUSE_REDUND (j c : Nat) : RF := ⟨cellBase j c + 0x1C, 3, 3⟩
def CELL_HEALTH_STATE (j c : Nat) : RF := ⟨cellBase j c + 0x1C, 1, 0⟩
/-- CELL_HLTH_CFG (R87). -/
def CELL_HLTH_CFG (j c : Nat) : RF := ⟨cellBase j c + 0x20, 31, 0⟩
def CELL_HLTH_CFG_RATE_HI (j c : Nat) : RF := ⟨cellBase j c + 0x20, 31, 16⟩
def CELL_HLTH_CFG_RATE_LO (j c : Nat) : RF := ⟨cellBase j c + 0x20, 15, 8⟩
def CELL_HLTH_CFG_REDUND_LIMIT (j c : Nat) : RF := ⟨cellBase j c + 0x20, 7, 0⟩
/-- CELL_Q_COUNT (R87). -/
def CELL_Q_COUNT (j c : Nat) : RF := ⟨cellBase j c + 0x24, 31, 0⟩
/-- CELL_REDUND_COUNT (R87). -/
def CELL_REDUND_COUNT (j c : Nat) : RF := ⟨cellBase j c + 0x28, 31, 0⟩
/-- CELL_DISC_RATE (R87). -/
def CELL_DISC_RATE (j c : Nat) : RF := ⟨cellBase j c + 0x2C, 31, 0⟩
/-- CELL_SHADOW_MISMATCH (R87). -/
def CELL_SHADOW_MISMATCH (j c : Nat) : RF := ⟨cellBase j c + 0x30, 31, 0⟩
/-- CELL_ECC_CORR (R87). -/
def CELL_ECC_CORR (j c : Nat) : RF := ⟨cellBase j c + 0x34, 31, 0⟩
/-- CELL_ECC_UNCORR (R87). -/
def CELL_ECC_UNCORR (j c : Nat) : RF := ⟨cellBase j c + 0x38, 31, 0⟩
/-- CELL_LAST (R87). -/
def CELL_LAST (j c : Nat) : RF := ⟨cellBase j c + 0x40, 31, 0⟩
/-- BLK_CTRL (R120). -/
def BLK_CTRL (j : Nat) : RF := ⟨blkBase j + 0x0, 31, 0⟩
def BLK_CTRL_RESET (j : Nat) : RF := ⟨blkBase j + 0x0, 1, 1⟩
def BLK_CTRL_DROP (j : Nat) : RF := ⟨blkBase j + 0x0, 0, 0⟩
/-- BLK_STATUS (R120). -/
def BLK_STATUS (j : Nat) : RF := ⟨blkBase j + 0x4, 31, 0⟩
def BLK_STATUS_UNCOVERED (j : Nat) : RF := ⟨blkBase j + 0x4, 31, 16⟩
def BLK_STATUS_SELF_FAIL (j : Nat) : RF := ⟨blkBase j + 0x4, 3, 3⟩
def BLK_STATUS_DROPPED (j : Nat) : RF := ⟨blkBase j + 0x4, 2, 2⟩
def BLK_STATUS_NO_SPARE (j : Nat) : RF := ⟨blkBase j + 0x4, 1, 1⟩
def BLK_STATUS_DEGRADED (j : Nat) : RF := ⟨blkBase j + 0x4, 0, 0⟩
/-- HNG_CFG (R120). -/
def HNG_CFG (j : Nat) : RF := ⟨blkBase j + 0x100, 31, 0⟩
def HNG_CFG_AUTO_COVER (j : Nat) : RF := ⟨blkBase j + 0x100, 31, 31⟩
def HNG_CFG_SHADOW_EN (j : Nat) : RF := ⟨blkBase j + 0x100, 30, 30⟩
def HNG_CFG_MISS_LIMIT (j : Nat) : RF := ⟨blkBase j + 0x100, 23, 16⟩
def HNG_CFG_DWELL (j : Nat) : RF := ⟨blkBase j + 0x100, 15, 0⟩
/-- HNG_TOL (R120). -/
def HNG_TOL (j : Nat) : RF := ⟨blkBase j + 0x104, 31, 0⟩
def HNG_TOL_TOL (j : Nat) : RF := ⟨blkBase j + 0x104, 19, 0⟩
/-- HNG_ROT_MASK (R120). -/
def HNG_ROT_MASK (j : Nat) : RF := ⟨blkBase j + 0x108, 31, 0⟩
def HNG_ROT_MASK_MASK (j : Nat) : RF := ⟨blkBase j + 0x108, 15, 0⟩
/-- HNG_STATUS (R120). -/
def HNG_STATUS (j : Nat) : RF := ⟨blkBase j + 0x10C, 31, 0⟩
def HNG_STATUS_CFG_ILLEGAL (j : Nat) : RF := ⟨blkBase j + 0x10C, 21, 21⟩
def HNG_STATUS_MOVE_ILLEGAL (j : Nat) : RF := ⟨blkBase j + 0x10C, 20, 20⟩
def HNG_STATUS_REFUSE_WHY (j : Nat) : RF := ⟨blkBase j + 0x10C, 19, 17⟩
def HNG_STATUS_COMMIT_REFUSED (j : Nat) : RF := ⟨blkBase j + 0x10C, 16, 16⟩
def HNG_STATUS_DIAG (j : Nat) : RF := ⟨blkBase j + 0x10C, 13, 13⟩
def HNG_STATUS_COMMIT_PENDING (j : Nat) : RF := ⟨blkBase j + 0x10C, 12, 12⟩
def HNG_STATUS_USE (j : Nat) : RF := ⟨blkBase j + 0x10C, 10, 8⟩
def HNG_STATUS_PHASE (j : Nat) : RF := ⟨blkBase j + 0x10C, 6, 4⟩
def HNG_STATUS_ROUTE (j : Nat) : RF := ⟨blkBase j + 0x10C, 3, 0⟩
/-- HNG_MOVE (R120). -/
def HNG_MOVE (j : Nat) : RF := ⟨blkBase j + 0x110, 31, 0⟩
def HNG_MOVE_USE (j : Nat) : RF := ⟨blkBase j + 0x110, 10, 8⟩
def HNG_MOVE_TARGET (j : Nat) : RF := ⟨blkBase j + 0x110, 4, 0⟩
/-- HNG_COMMIT (R120). -/
def HNG_COMMIT (j : Nat) : RF := ⟨blkBase j + 0x114, 31, 0⟩
def HNG_COMMIT_DIR (j : Nat) : RF := ⟨blkBase j + 0x114, 8, 8⟩
def HNG_COMMIT_TARGET (j : Nat) : RF := ⟨blkBase j + 0x114, 3, 0⟩
/-- HNG_PENDING (R120). -/
def HNG_PENDING (j : Nat) : RF := ⟨blkBase j + 0x118, 31, 0⟩
def HNG_PENDING_RANK (j : Nat) : RF := ⟨blkBase j + 0x118, 18, 16⟩
def HNG_PENDING_CELLS (j : Nat) : RF := ⟨blkBase j + 0x118, 15, 0⟩
/-- HNG_SHADOW_RESULT (R120). -/
def HNG_SHADOW_RESULT (j : Nat) : RF := ⟨blkBase j + 0x11C, 31, 0⟩
def HNG_SHADOW_RESULT_CELL (j : Nat) : RF := ⟨blkBase j + 0x11C, 31, 28⟩
def HNG_SHADOW_RESULT_NO_VERDICT (j : Nat) : RF := ⟨blkBase j + 0x11C, 25, 25⟩
def HNG_SHADOW_RESULT_MISMATCH (j : Nat) : RF := ⟨blkBase j + 0x11C, 24, 24⟩
def HNG_SHADOW_RESULT_OVER (j : Nat) : RF := ⟨blkBase j + 0x11C, 23, 16⟩
def HNG_SHADOW_RESULT_MEAN_DIFF (j : Nat) : RF := ⟨blkBase j + 0x11C, 15, 0⟩
/-- HNG_DIAG (R120). -/
def HNG_DIAG (j : Nat) : RF := ⟨blkBase j + 0x120, 31, 0⟩
def HNG_DIAG_CELL (j : Nat) : RF := ⟨blkBase j + 0x120, 31, 28⟩
def HNG_DIAG_VERDICT (j : Nat) : RF := ⟨blkBase j + 0x120, 1, 0⟩
/-- HNG_DWELL_COUNT (R120). -/
def HNG_DWELL_COUNT (j : Nat) : RF := ⟨blkBase j + 0x124, 31, 0⟩
/-- HNG_HANDOVER_COUNT (R120). -/
def HNG_HANDOVER_COUNT (j : Nat) : RF := ⟨blkBase j + 0x128, 31, 0⟩
/-- HNG_LAST_COMMIT (R120). -/
def HNG_LAST_COMMIT (j : Nat) : RF := ⟨blkBase j + 0x130, 31, 0⟩
/-- CELL_DLY (R153). -/
def CELL_DLY (j c : Nat) : RF := ⟨cellBase j c + 0x300, 31, 0⟩
def CELL_DLY_INT (j c : Nat) : RF := ⟨cellBase j c + 0x300, 13, 8⟩
def CELL_DLY_FRAC (j c : Nat) : RF := ⟨cellBase j c + 0x300, 3, 0⟩
/-- CELL_FLT_PED (R153). -/
def CELL_FLT_PED (j c : Nat) : RF := ⟨cellBase j c + 0x304, 31, 0⟩
def CELL_FLT_PED_PED (j c : Nat) : RF := ⟨cellBase j c + 0x304, 11, 0⟩
/-- CELL_FLT_EST (R153). -/
def CELL_FLT_EST (j c : Nat) : RF := ⟨cellBase j c + 0x308, 31, 0⟩
def CELL_FLT_EST_SWAP (j c : Nat) : RF := ⟨cellBase j c + 0x308, 31, 31⟩
def CELL_FLT_EST_FORCE (j c : Nat) : RF := ⟨cellBase j c + 0x308, 30, 30⟩
def CELL_FLT_EST_FADE_LEN (j c : Nat) : RF := ⟨cellBase j c + 0x308, 26, 24⟩
def CELL_FLT_EST_NEXT (j c : Nat) : RF := ⟨cellBase j c + 0x308, 21, 16⟩
def CELL_FLT_EST_BANK (j c : Nat) : RF := ⟨cellBase j c + 0x308, 15, 15⟩
def CELL_FLT_EST_FADING (j c : Nat) : RF := ⟨cellBase j c + 0x308, 14, 14⟩
def CELL_FLT_EST_OTHER (j c : Nat) : RF := ⟨cellBase j c + 0x308, 13, 8⟩
def CELL_FLT_EST_CUR (j c : Nat) : RF := ⟨cellBase j c + 0x308, 5, 0⟩
/-- CELL_FLT_REC (R153). -/
def CELL_FLT_REC (j c : Nat) : RF := ⟨cellBase j c + 0x30C, 31, 0⟩
def CELL_FLT_REC_SWAP (j c : Nat) : RF := ⟨cellBase j c + 0x30C, 31, 31⟩
def CELL_FLT_REC_FORCE (j c : Nat) : RF := ⟨cellBase j c + 0x30C, 30, 30⟩
def CELL_FLT_REC_FADE_LEN (j c : Nat) : RF := ⟨cellBase j c + 0x30C, 26, 24⟩
def CELL_FLT_REC_NEXT (j c : Nat) : RF := ⟨cellBase j c + 0x30C, 21, 16⟩
def CELL_FLT_REC_BANK (j c : Nat) : RF := ⟨cellBase j c + 0x30C, 15, 15⟩
def CELL_FLT_REC_FADING (j c : Nat) : RF := ⟨cellBase j c + 0x30C, 14, 14⟩
def CELL_FLT_REC_OTHER (j c : Nat) : RF := ⟨cellBase j c + 0x30C, 13, 8⟩
def CELL_FLT_REC_CUR (j c : Nat) : RF := ⟨cellBase j c + 0x30C, 5, 0⟩
/-- CELL_FLT_STATUS (R153). -/
def CELL_FLT_STATUS (j c : Nat) : RF := ⟨cellBase j c + 0x310, 31, 0⟩
def CELL_FLT_STATUS_CFG_ILLEGAL (j c : Nat) : RF := ⟨cellBase j c + 0x310, 4, 4⟩
def CELL_FLT_STATUS_SWAP_BUSY (j c : Nat) : RF := ⟨cellBase j c + 0x310, 3, 3⟩
def CELL_FLT_STATUS_COMP_MISMATCH (j c : Nat) : RF := ⟨cellBase j c + 0x310, 2, 2⟩
def CELL_FLT_STATUS_REC_UNSETTLED (j c : Nat) : RF := ⟨cellBase j c + 0x310, 1, 1⟩
def CELL_FLT_STATUS_EST_UNSETTLED (j c : Nat) : RF := ⟨cellBase j c + 0x310, 0, 0⟩
/-- CELL_FLT_EST_LAST (R153). -/
def CELL_FLT_EST_LAST (j c : Nat) : RF := ⟨cellBase j c + 0x314, 31, 0⟩
/-- CELL_FLT_REC_LAST (R153). -/
def CELL_FLT_REC_LAST (j c : Nat) : RF := ⟨cellBase j c + 0x318, 31, 0⟩
def CELL_FLT_REC_LAST_Q (j c : Nat) : RF := ⟨cellBase j c + 0x318, 31, 31⟩
def CELL_FLT_REC_LAST_U (j c : Nat) : RF := ⟨cellBase j c + 0x318, 30, 30⟩
def CELL_FLT_REC_LAST_FADE (j c : Nat) : RF := ⟨cellBase j c + 0x318, 29, 29⟩
def CELL_FLT_REC_LAST_SAT (j c : Nat) : RF := ⟨cellBase j c + 0x318, 28, 28⟩
def CELL_FLT_REC_LAST_VALUE (j c : Nat) : RF := ⟨cellBase j c + 0x318, 15, 0⟩
/-- CREC_CFG (R159). -/
def CREC_CFG : RF := ⟨0xC0000, 31, 0⟩
def CREC_CFG_EN : RF := ⟨0xC0000, 31, 31⟩
def CREC_CFG_ORDER : RF := ⟨0xC0000, 9, 8⟩
def CREC_CFG_SHIFT : RF := ⟨0xC0000, 7, 4⟩
def CREC_CFG_LOG2D : RF := ⟨0xC0000, 3, 0⟩
/-- CREC_CTRL (R159). -/
def CREC_CTRL : RF := ⟨0xC0004, 31, 0⟩
def CREC_CTRL_RESTART : RF := ⟨0xC0004, 0, 0⟩
/-- CREC_STATUS (R159). -/
def CREC_STATUS : RF := ⟨0xC0008, 31, 0⟩
def CREC_STATUS_CFG_ILLEGAL : RF := ⟨0xC0008, 12, 12⟩
def CREC_STATUS_LOST : RF := ⟨0xC0008, 11, 11⟩
def CREC_STATUS_PENDING : RF := ⟨0xC0008, 10, 10⟩
def CREC_STATUS_SYNCED : RF := ⟨0xC0008, 9, 9⟩
def CREC_STATUS_ORDER_EFF : RF := ⟨0xC0008, 5, 4⟩
def CREC_STATUS_LOG2D_EFF : RF := ⟨0xC0008, 3, 0⟩
/-- CREC_LOST_COUNT (R159). -/
def CREC_LOST_COUNT : RF := ⟨0xC000C, 31, 0⟩
/-- CREC_LAST_SYNC (R159). -/
def CREC_LAST_SYNC : RF := ⟨0xC0010, 31, 0⟩
/-- CREC_BLOCK_COUNT (R159). -/
def CREC_BLOCK_COUNT : RF := ⟨0xC0018, 31, 0⟩
/-- CREC_CH_MASK (R159). -/
def CREC_CH_MASK (i : Nat) : RF := ⟨0xC0020 + 0x4 * i, 31, 0⟩
/-- FLT_SETTLE (R159). -/
def FLT_SETTLE (i : Nat) : RF := ⟨0xC1000 + 0x4 * i, 31, 0⟩
def FLT_SETTLE_REC_REMAIN (i : Nat) : RF := ⟨0xC1000 + 0x4 * i, 31, 24⟩
def FLT_SETTLE_EST_REMAIN (i : Nat) : RF := ⟨0xC1000 + 0x4 * i, 23, 16⟩
def FLT_SETTLE_REC (i : Nat) : RF := ⟨0xC1000 + 0x4 * i, 15, 8⟩
def FLT_SETTLE_EST (i : Nat) : RF := ⟨0xC1000 + 0x4 * i, 7, 0⟩
/-- FLT_ROM_DESC (R159). -/
def FLT_ROM_DESC (i : Nat) : RF := ⟨0xC1800 + 0x4 * i, 31, 0⟩
def FLT_ROM_DESC_FAMILY (i : Nat) : RF := ⟨0xC1800 + 0x4 * i, 31, 29⟩
def FLT_ROM_DESC_TAPS (i : Nat) : RF := ⟨0xC1800 + 0x4 * i, 28, 23⟩
def FLT_ROM_DESC_D2 (i : Nat) : RF := ⟨0xC1800 + 0x4 * i, 22, 21⟩
def FLT_ROM_DESC_SETTLE (i : Nat) : RF := ⟨0xC1800 + 0x4 * i, 20, 16⟩
def FLT_ROM_DESC_GROUP_DELAY (i : Nat) : RF := ⟨0xC1800 + 0x4 * i, 15, 0⟩
/-- FLT_ROM_COEF (R159). -/
def FLT_ROM_COEF (i k : Nat) : RF := ⟨0xC2000 + 0x80 * i + 0x4 * k, 31, 0⟩
/-- TRG_CFG (R192). -/
def TRG_CFG : RF := ⟨0xA0000, 31, 0⟩
def TRG_CFG_SUM_EN : RF := ⟨0xA0000, 31, 31⟩
def TRG_CFG_EVT_AT_BXSET : RF := ⟨0xA0000, 4, 4⟩
def TRG_CFG_TB_DRIVE_EN : RF := ⟨0xA0000, 3, 3⟩
def TRG_CFG_TB_RX_EN : RF := ⟨0xA0000, 2, 2⟩
def TRG_CFG_ACC_EN : RF := ⟨0xA0000, 1, 1⟩
def TRG_CFG_MODE : RF := ⟨0xA0000, 0, 0⟩
/-- TRG_STATUS (R192). -/
def TRG_STATUS : RF := ⟨0xA0004, 31, 0⟩
def TRG_STATUS_NOSLOT_OVF : RF := ⟨0xA0004, 8, 8⟩
def TRG_STATUS_SUM_LOST : RF := ⟨0xA0004, 7, 7⟩
def TRG_STATUS_TB_LATE : RF := ⟨0xA0004, 6, 6⟩
def TRG_STATUS_LAT_SHORT : RF := ⟨0xA0004, 5, 5⟩
def TRG_STATUS_RUN_LOCKED : RF := ⟨0xA0004, 4, 4⟩
def TRG_STATUS_CFG_ILLEGAL : RF := ⟨0xA0004, 3, 3⟩
def TRG_STATUS_ALLOC_FULL : RF := ⟨0xA0004, 2, 2⟩
/-- TRG_LATENCY (R192). -/
def TRG_LATENCY : RF := ⟨0xA0008, 31, 0⟩
def TRG_LATENCY_LAT : RF := ⟨0xA0008, 9, 0⟩
/-- TRG_WINDOW (R192). -/
def TRG_WINDOW : RF := ⟨0xA000C, 31, 0⟩
def TRG_WINDOW_PRE : RF := ⟨0xA000C, 13, 8⟩
def TRG_WINDOW_POST : RF := ⟨0xA000C, 5, 0⟩
/-- TRG_TB (R192). -/
def TRG_TB : RF := ⟨0xA0010, 31, 0⟩
def TRG_TB_TB_DELAY : RF := ⟨0xA0010, 13, 8⟩
def TRG_TB_TB_LAT : RF := ⟨0xA0010, 7, 0⟩
/-- TRG_COND_LAT (R192). -/
def TRG_COND_LAT : RF := ⟨0xA0014, 31, 0⟩
/-- TRG_CTRL (R192). -/
def TRG_CTRL : RF := ⟨0xA0018, 31, 0⟩
def TRG_CTRL_CLR_DT : RF := ⟨0xA0018, 1, 1⟩
def TRG_CTRL_EVT_LOAD : RF := ⟨0xA0018, 0, 0⟩
/-- TRG_FREE_SLOTS (R192). -/
def TRG_FREE_SLOTS : RF := ⟨0xA001C, 31, 0⟩
/-- TRG_SLOT_BUSY (R192). -/
def TRG_SLOT_BUSY (i : Nat) : RF := ⟨0xA0020 + 0x4 * i, 31, 0⟩
/-- TRG_EVT_NEXT (R192). -/
def TRG_EVT_NEXT : RF := ⟨0xA0030, 31, 0⟩
/-- TRG_EVT_PRESET (R192). -/
def TRG_EVT_PRESET : RF := ⟨0xA0034, 31, 0⟩
/-- TRG_LAST_CAUSE (R192). -/
def TRG_LAST_CAUSE : RF := ⟨0xA0038, 31, 0⟩
/-- TRG_LAST_EVT (R192). -/
def TRG_LAST_EVT : RF := ⟨0xA003C, 31, 0⟩
/-- TRG_LAST_TIME (R192). -/
def TRG_LAST_TIME : RF := ⟨0xA0040, 31, 0⟩
/-- TRG_COUNT (R192). -/
def TRG_COUNT : RF := ⟨0xA0048, 31, 0⟩
/-- TRG_DT_NO_SLOT (R192). -/
def TRG_DT_NO_SLOT : RF := ⟨0xA0050, 31, 0⟩
/-- TRG_DT_LATE (R192). -/
def TRG_DT_LATE : RF := ⟨0xA0058, 31, 0⟩
/-- TRG_DT_BUFFER (R192). -/
def TRG_DT_BUFFER : RF := ⟨0xA0060, 31, 0⟩
/-- TRG_ACC_IGNORED (R192). -/
def TRG_ACC_IGNORED : RF := ⟨0xA0068, 31, 0⟩
/-- TRG_NOSLOT_LOST (R192). -/
def TRG_NOSLOT_LOST : RF := ⟨0xA006C, 31, 0⟩
/-- TRG_SUM_LOST (R192). -/
def TRG_SUM_LOST : RF := ⟨0xA0070, 31, 0⟩
/-- TRG_TB_LATE_COUNT (R192). -/
def TRG_TB_LATE_COUNT : RF := ⟨0xA0074, 31, 0⟩
/-- TRG_RGN_DT_NO_SLOT (R192). -/
def TRG_RGN_DT_NO_SLOT (i : Nat) : RF := ⟨0xA0800 + 0x20 * i, 31, 0⟩
/-- TRG_RGN_DT_LATE (R192). -/
def TRG_RGN_DT_LATE (i : Nat) : RF := ⟨0xA0808 + 0x20 * i, 31, 0⟩
/-- TRG_RGN_DT_BUFFER (R192). -/
def TRG_RGN_DT_BUFFER (i : Nat) : RF := ⟨0xA0810 + 0x20 * i, 31, 0⟩
/-- TRG_C_CFG (R192). -/
def TRG_C_CFG (i : Nat) : RF := ⟨0xA0100 + 0x40 * i, 31, 0⟩
def TRG_C_CFG_EN (i : Nat) : RF := ⟨0xA0100 + 0x40 * i, 31, 31⟩
def TRG_C_CFG_CAPTURE (i : Nat) : RF := ⟨0xA0100 + 0x40 * i, 30, 30⟩
def TRG_C_CFG_DRIVE (i : Nat) : RF := ⟨0xA0100 + 0x40 * i, 29, 29⟩
def TRG_C_CFG_NEED (i : Nat) : RF := ⟨0xA0100 + 0x40 * i, 25, 24⟩
def TRG_C_CFG_COINC (i : Nat) : RF := ⟨0xA0100 + 0x40 * i, 23, 20⟩
def TRG_C_CFG_HOLDOFF (i : Nat) : RF := ⟨0xA0100 + 0x40 * i, 19, 12⟩
def TRG_C_CFG_TERM_EN (i : Nat) : RF := ⟨0xA0100 + 0x40 * i, 3, 0⟩
/-- TRG_C_COUNT (R192). -/
def TRG_C_COUNT (i : Nat) : RF := ⟨0xA0104 + 0x40 * i, 31, 0⟩
/-- TRG_C_TERM (R192). -/
def TRG_C_TERM (i k : Nat) : RF := ⟨0xA0110 + 0x40 * i + 0x8 * k, 31, 0⟩
def TRG_C_TERM_TYPE (i k : Nat) : RF := ⟨0xA0110 + 0x40 * i + 0x8 * k, 31, 29⟩
def TRG_C_TERM_MASKSEL (i k : Nat) : RF := ⟨0xA0110 + 0x40 * i + 0x8 * k, 26, 24⟩
def TRG_C_TERM_UNITMASK (i k : Nat) : RF := ⟨0xA0110 + 0x40 * i + 0x8 * k, 23, 0⟩
/-- TRG_C_THR (R192). -/
def TRG_C_THR (i k : Nat) : RF := ⟨0xA0114 + 0x40 * i + 0x8 * k, 31, 0⟩
def TRG_C_THR_THR (i k : Nat) : RF := ⟨0xA0114 + 0x40 * i + 0x8 * k, 23, 0⟩
/-- TRG_CHMASK (R192). -/
def TRG_CHMASK (i k : Nat) : RF := ⟨0xA0400 + 0x40 * i + 0x4 * k, 31, 0⟩
/-- CELL_TRG (R200). -/
def CELL_TRG (j c : Nat) : RF := ⟨cellBase j c + 0x400, 31, 0⟩
def CELL_TRG_HIT_EN (j c : Nat) : RF := ⟨cellBase j c + 0x400, 1, 1⟩
def CELL_TRG_SUM_EN (j c : Nat) : RF := ⟨cellBase j c + 0x400, 0, 0⟩
/-- BLK_SNAP_CFG (R199). -/
def BLK_SNAP_CFG (j : Nat) : RF := ⟨blkBase j + 0x200, 31, 0⟩
def BLK_SNAP_CFG_POST (j : Nat) : RF := ⟨blkBase j + 0x200, 26, 16⟩
def BLK_SNAP_CFG_COND (j : Nat) : RF := ⟨blkBase j + 0x200, 9, 2⟩
def BLK_SNAP_CFG_TB (j : Nat) : RF := ⟨blkBase j + 0x200, 1, 1⟩
def BLK_SNAP_CFG_ACCEPT (j : Nat) : RF := ⟨blkBase j + 0x200, 0, 0⟩
/-- BLK_SNAP_CTRL (R199). -/
def BLK_SNAP_CTRL (j : Nat) : RF := ⟨blkBase j + 0x204, 31, 0⟩
def BLK_SNAP_CTRL_FREEZE (j : Nat) : RF := ⟨blkBase j + 0x204, 2, 2⟩
def BLK_SNAP_CTRL_RELEASE (j : Nat) : RF := ⟨blkBase j + 0x204, 1, 1⟩
def BLK_SNAP_CTRL_ARM (j : Nat) : RF := ⟨blkBase j + 0x204, 0, 0⟩
/-- BLK_SNAP_STATUS (R199). -/
def BLK_SNAP_STATUS (j : Nat) : RF := ⟨blkBase j + 0x208, 31, 0⟩
def BLK_SNAP_STATUS_STATE (j : Nat) : RF := ⟨blkBase j + 0x208, 1, 0⟩
/-- BLK_SNAP_LABEL (R199). -/
def BLK_SNAP_LABEL (j : Nat) : RF := ⟨blkBase j + 0x210, 31, 0⟩
/-- BLK_SNAP_LAST (R199). -/
def BLK_SNAP_LAST (j : Nat) : RF := ⟨blkBase j + 0x218, 31, 0⟩
/-- BLK_DIAG_LABEL (R199). -/
def BLK_DIAG_LABEL (j : Nat) : RF := ⟨blkBase j + 0x220, 31, 0⟩
/-- EVT_STATUS (R227). -/
def EVT_STATUS : RF := ⟨0xB0000, 31, 0⟩
def EVT_STATUS_CLOSED : RF := ⟨0xB0000, 1, 1⟩
def EVT_STATUS_CFG_ILLEGAL : RF := ⟨0xB0000, 0, 0⟩
/-- EVT_LAG_LIMIT (R227). -/
def EVT_LAG_LIMIT : RF := ⟨0xB0004, 31, 0⟩
def EVT_LAG_LIMIT_LIMIT : RF := ⟨0xB0004, 6, 0⟩
/-- EVT_SLOT_TIMEOUT (R227). -/
def EVT_SLOT_TIMEOUT : RF := ⟨0xB0008, 31, 0⟩
def EVT_SLOT_TIMEOUT_MS : RF := ⟨0xB0008, 13, 0⟩
/-- EVT_LEAF_INCL (R227). -/
def EVT_LEAF_INCL : RF := ⟨0xB000C, 31, 0⟩
def EVT_LEAF_INCL_INCL : RF := ⟨0xB000C, 15, 0⟩
/-- EVT_LEAF_WIN (R227). -/
def EVT_LEAF_WIN : RF := ⟨0xB0010, 31, 0⟩
def EVT_LEAF_WIN_PRE_BX : RF := ⟨0xB0010, 11, 8⟩
def EVT_LEAF_WIN_POST_BX : RF := ⟨0xB0010, 3, 0⟩
/-- EVT_FREE_PUB (R227). -/
def EVT_FREE_PUB : RF := ⟨0xB0014, 31, 0⟩
/-- EVT_CLOSED_COUNT (R227). -/
def EVT_CLOSED_COUNT : RF := ⟨0xB0018, 31, 0⟩
/-- EVT_NOSLOT_SENT (R227). -/
def EVT_NOSLOT_SENT : RF := ⟨0xB0020, 31, 0⟩
/-- EVT_RELEASED (R227). -/
def EVT_RELEASED : RF := ⟨0xB0028, 31, 0⟩
/-- FORM_CFG (R227). -/
def FORM_CFG : RF := ⟨0xB0040, 31, 0⟩
def FORM_CFG_HITS_MAX : RF := ⟨0xB0040, 21, 16⟩
def FORM_CFG_BASE_N : RF := ⟨0xB0040, 9, 8⟩
def FORM_CFG_BASE_MODE : RF := ⟨0xB0040, 1, 1⟩
def FORM_CFG_KEEP_FLAGGED : RF := ⟨0xB0040, 0, 0⟩
/-- RGN_CTRL (R229). -/
def RGN_CTRL (r : Nat) : RF := ⟨rgnBase r + 0x0, 31, 0⟩
def RGN_CTRL_RESET (r : Nat) : RF := ⟨rgnBase r + 0x0, 2, 2⟩
def RGN_CTRL_SHARE (r : Nat) : RF := ⟨rgnBase r + 0x0, 1, 1⟩
def RGN_CTRL_OUT (r : Nat) : RF := ⟨rgnBase r + 0x0, 0, 0⟩
/-- RGN_STATUS (R229). -/
def RGN_STATUS (r : Nat) : RF := ⟨rgnBase r + 0x4, 31, 0⟩
def RGN_STATUS_CLOSED (r : Nat) : RF := ⟨rgnBase r + 0x4, 5, 5⟩
def RGN_STATUS_BUF_FULL (r : Nat) : RF := ⟨rgnBase r + 0x4, 4, 4⟩
def RGN_STATUS_SHARING (r : Nat) : RF := ⟨rgnBase r + 0x4, 3, 3⟩
def RGN_STATUS_LAG (r : Nat) : RF := ⟨rgnBase r + 0x4, 2, 2⟩
def RGN_STATUS_OUT_EFF (r : Nat) : RF := ⟨rgnBase r + 0x4, 1, 1⟩
/-- RGN_BUF_FREE (R229). -/
def RGN_BUF_FREE (r : Nat) : RF := ⟨rgnBase r + 0x8, 31, 0⟩
def RGN_BUF_FREE_WORDS (r : Nat) : RF := ⟨rgnBase r + 0x8, 31, 0⟩
/-- RGN_FRAG_MAX (R229). -/
def RGN_FRAG_MAX (r : Nat) : RF := ⟨rgnBase r + 0xC, 31, 0⟩
def RGN_FRAG_MAX_WORDS (r : Nat) : RF := ⟨rgnBase r + 0xC, 31, 0⟩
/-- RGN_LAG (R229). -/
def RGN_LAG (r : Nat) : RF := ⟨rgnBase r + 0x10, 31, 0⟩
def RGN_LAG_EVENTS (r : Nat) : RF := ⟨rgnBase r + 0x10, 31, 0⟩
/-- RGN_LAST_EVT (R229). -/
def RGN_LAST_EVT (r : Nat) : RF := ⟨rgnBase r + 0x14, 31, 0⟩
def RGN_LAST_EVT_EVENT (r : Nat) : RF := ⟨rgnBase r + 0x14, 31, 0⟩
/-- RGN_FRAG_COUNT (R229). -/
def RGN_FRAG_COUNT (r : Nat) : RF := ⟨rgnBase r + 0x18, 31, 0⟩
/-- BLK_EXTRACT_COUNT (R230). -/
def BLK_EXTRACT_COUNT (j : Nat) : RF := ⟨blkBase j + 0x400, 31, 0⟩
def BLK_EXTRACT_COUNT_COUNT (j : Nat) : RF := ⟨blkBase j + 0x400, 31, 0⟩
/-- BLK_ARB_WAIT (R230). -/
def BLK_ARB_WAIT (j : Nat) : RF := ⟨blkBase j + 0x404, 31, 0⟩
def BLK_ARB_WAIT_CYCLES (j : Nat) : RF := ⟨blkBase j + 0x404, 31, 0⟩
/-- CELL_FORM (R230). -/
def CELL_FORM (j c : Nat) : RF := ⟨cellBase j c + 0x410, 31, 0⟩
def CELL_FORM_NEG (j c : Nat) : RF := ⟨cellBase j c + 0x410, 7, 7⟩
def CELL_FORM_ZS (j c : Nat) : RF := ⟨cellBase j c + 0x410, 5, 4⟩
def CELL_FORM_FORMS (j c : Nat) : RF := ⟨cellBase j c + 0x410, 3, 0⟩
/-- CELL_ZS (R230). -/
def CELL_ZS (j c : Nat) : RF := ⟨cellBase j c + 0x414, 31, 0⟩
def CELL_ZS_THR (j c : Nat) : RF := ⟨cellBase j c + 0x414, 18, 0⟩
/-- TDC_CFG (R252). -/
def TDC_CFG (j c : Nat) : RF := ⟨cellBase j c + 0x200, 31, 0⟩
def TDC_CFG_CD_EN (j c : Nat) : RF := ⟨cellBase j c + 0x200, 1, 1⟩
def TDC_CFG_EN (j c : Nat) : RF := ⟨cellBase j c + 0x200, 0, 0⟩
/-- TDC_HIT_COUNT (R252). -/
def TDC_HIT_COUNT (j c : Nat) : RF := ⟨cellBase j c + 0x204, 31, 0⟩
/-- TDC_PILE_COUNT (R252). -/
def TDC_PILE_COUNT (j c : Nat) : RF := ⟨cellBase j c + 0x208, 31, 0⟩
/-- TDC_DROP_COUNT (R252). -/
def TDC_DROP_COUNT (j c : Nat) : RF := ⟨cellBase j c + 0x20C, 31, 0⟩
/-- TDC_SKEW (R252). -/
def TDC_SKEW (j c : Nat) : RF := ⟨cellBase j c + 0x210, 31, 0⟩
def TDC_SKEW_SKEW (j c : Nat) : RF := ⟨cellBase j c + 0x210, 15, 0⟩
/-- TDC_LAST_FLAGS (R252). -/
def TDC_LAST_FLAGS (j c : Nat) : RF := ⟨cellBase j c + 0x218, 31, 0⟩
def TDC_LAST_FLAGS_VALID (j c : Nat) : RF := ⟨cellBase j c + 0x218, 2, 2⟩
def TDC_LAST_FLAGS_PILE (j c : Nat) : RF := ⟨cellBase j c + 0x218, 1, 1⟩
def TDC_LAST_FLAGS_COLD (j c : Nat) : RF := ⟨cellBase j c + 0x218, 0, 0⟩
/-- TDC_LAST (R252). -/
def TDC_LAST (j c : Nat) : RF := ⟨cellBase j c + 0x220, 31, 0⟩
/-- TDC_TIN_CFG (R255). -/
def TDC_TIN_CFG : RF := ⟨0xD0000, 31, 0⟩
def TDC_TIN_CFG_FALL : RF := ⟨0xD0000, 11, 8⟩
def TDC_TIN_CFG_FIFO_EN : RF := ⟨0xD0000, 3, 0⟩
/-- TDC_TIN_STATUS (R255). -/
def TDC_TIN_STATUS : RF := ⟨0xD0004, 31, 0⟩
def TDC_TIN_STATUS_OVF : RF := ⟨0xD0004, 3, 0⟩
/-- TDC_TIN_FIFO (R255). -/
def TDC_TIN_FIFO (i : Nat) : RF := ⟨0xD0010 + 0x10 * i, 31, 0⟩
/-- TDC_TIN_FLAGS (R255). -/
def TDC_TIN_FLAGS (i : Nat) : RF := ⟨0xD0018 + 0x10 * i, 31, 0⟩
def TDC_TIN_FLAGS_EMPTY (i : Nat) : RF := ⟨0xD0018 + 0x10 * i, 2, 2⟩
def TDC_TIN_FLAGS_PILE (i : Nat) : RF := ⟨0xD0018 + 0x10 * i, 1, 1⟩
def TDC_TIN_FLAGS_COLD (i : Nat) : RF := ⟨0xD0018 + 0x10 * i, 0, 0⟩
/-- TDC_TIN_LEVEL (R255). -/
def TDC_TIN_LEVEL (i : Nat) : RF := ⟨0xD001C + 0x10 * i, 31, 0⟩
def TDC_TIN_LEVEL_LOST (i : Nat) : RF := ⟨0xD001C + 0x10 * i, 31, 16⟩
def TDC_TIN_LEVEL_LEVEL (i : Nat) : RF := ⟨0xD001C + 0x10 * i, 6, 0⟩
/-- TDC_TIN_SKEW (R255). -/
def TDC_TIN_SKEW (i : Nat) : RF := ⟨0xD0060 + 0x4 * i, 31, 0⟩
def TDC_TIN_SKEW_SKEW (i : Nat) : RF := ⟨0xD0060 + 0x4 * i, 15, 0⟩
/-- IVL_CFG (R255). -/
def IVL_CFG (i : Nat) : RF := ⟨0xD0100 + 0x20 * i, 31, 0⟩
def IVL_CFG_MODE (i : Nat) : RF := ⟨0xD0100 + 0x20 * i, 16, 16⟩
def IVL_CFG_STOP_FALL (i : Nat) : RF := ⟨0xD0100 + 0x20 * i, 13, 13⟩
def IVL_CFG_STOP_SRC (i : Nat) : RF := ⟨0xD0100 + 0x20 * i, 12, 9⟩
def IVL_CFG_START_FALL (i : Nat) : RF := ⟨0xD0100 + 0x20 * i, 5, 5⟩
def IVL_CFG_START_SRC (i : Nat) : RF := ⟨0xD0100 + 0x20 * i, 4, 1⟩
/-- IVL_CTRL (R255). -/
def IVL_CTRL (i : Nat) : RF := ⟨0xD0104 + 0x20 * i, 31, 0⟩
def IVL_CTRL_CANCEL (i : Nat) : RF := ⟨0xD0104 + 0x20 * i, 1, 1⟩
def IVL_CTRL_ARM (i : Nat) : RF := ⟨0xD0104 + 0x20 * i, 0, 0⟩
/-- IVL_STATUS (R255). -/
def IVL_STATUS (i : Nat) : RF := ⟨0xD0108 + 0x20 * i, 31, 0⟩
def IVL_STATUS_CFG_ILLEGAL (i : Nat) : RF := ⟨0xD0108 + 0x20 * i, 3, 3⟩
def IVL_STATUS_DONE (i : Nat) : RF := ⟨0xD0108 + 0x20 * i, 2, 2⟩
def IVL_STATUS_STATE (i : Nat) : RF := ⟨0xD0108 + 0x20 * i, 1, 0⟩
/-- IVL_COUNT (R255). -/
def IVL_COUNT (i : Nat) : RF := ⟨0xD010C + 0x20 * i, 31, 0⟩
/-- IVL_RESULT (R255). -/
def IVL_RESULT (i : Nat) : RF := ⟨0xD0110 + 0x20 * i, 31, 0⟩
/-- IVL_RTT_CFG (R255). -/
def IVL_RTT_CFG : RF := ⟨0xD0200, 31, 0⟩
def IVL_RTT_CFG_DL_EN : RF := ⟨0xD0200, 31, 31⟩
def IVL_RTT_CFG_AVG_LOG2 : RF := ⟨0xD0200, 11, 8⟩
def IVL_RTT_CFG_UL_LANE : RF := ⟨0xD0200, 3, 0⟩
/-- IVL_RTT_PERIOD (R255). -/
def IVL_RTT_PERIOD : RF := ⟨0xD0204, 31, 0⟩
def IVL_RTT_PERIOD_US : RF := ⟨0xD0204, 9, 0⟩
/-- IVL_RTT_SPK (R255). -/
def IVL_RTT_SPK : RF := ⟨0xD0208, 31, 0⟩
/-- IVL_DL_TURN (R255). -/
def IVL_DL_TURN : RF := ⟨0xD020C, 31, 0⟩
/-- IVL_RTT_STATUS (R255). -/
def IVL_RTT_STATUS : RF := ⟨0xD0210, 31, 0⟩
def IVL_RTT_STATUS_NO_LANE : RF := ⟨0xD0210, 3, 3⟩
def IVL_RTT_STATUS_CFG_ILLEGAL : RF := ⟨0xD0210, 2, 2⟩
def IVL_RTT_STATUS_LANE_SUBST : RF := ⟨0xD0210, 1, 1⟩
def IVL_RTT_STATUS_TIMEOUT : RF := ⟨0xD0210, 0, 0⟩
/-- IVL_RTT_TIMEOUTS (R255). -/
def IVL_RTT_TIMEOUTS : RF := ⟨0xD0214, 31, 0⟩
/-- IVL_DL_LAST (R255). -/
def IVL_DL_LAST : RF := ⟨0xD0218, 31, 0⟩
/-- IVL_SPK_RTT (R255). -/
def IVL_SPK_RTT (i : Nat) : RF := ⟨0xD0240 + 0x4 * i, 31, 0⟩
/-- FRQ_CFG (R255). -/
def FRQ_CFG : RF := ⟨0xD0300, 31, 0⟩
def FRQ_CFG_P : RF := ⟨0xD0300, 11, 8⟩
def FRQ_CFG_SRC : RF := ⟨0xD0300, 4, 0⟩
/-- FRQ_GATE (R255). -/
def FRQ_GATE : RF := ⟨0xD0304, 31, 0⟩
def FRQ_GATE_US : RF := ⟨0xD0304, 19, 0⟩
/-- FRQ_CTRL (R255). -/
def FRQ_CTRL : RF := ⟨0xD0308, 31, 0⟩
def FRQ_CTRL_CANCEL : RF := ⟨0xD0308, 1, 1⟩
def FRQ_CTRL_START : RF := ⟨0xD0308, 0, 0⟩
/-- FRQ_STATUS (R255). -/
def FRQ_STATUS : RF := ⟨0xD030C, 31, 0⟩
def FRQ_STATUS_CFG_ILLEGAL : RF := ⟨0xD030C, 5, 5⟩
def FRQ_STATUS_NO_REF : RF := ⟨0xD030C, 4, 4⟩
def FRQ_STATUS_NO_EDGE : RF := ⟨0xD030C, 3, 3⟩
def FRQ_STATUS_DONE : RF := ⟨0xD030C, 2, 2⟩
def FRQ_STATUS_BUSY : RF := ⟨0xD030C, 1, 1⟩
/-- FRQ_EDGES (R255). -/
def FRQ_EDGES : RF := ⟨0xD0310, 31, 0⟩
/-- FRQ_REFTIME (R255). -/
def FRQ_REFTIME : RF := ⟨0xD0318, 31, 0⟩
/-- FRQ_RESULT (R255). -/
def FRQ_RESULT : RF := ⟨0xD0320, 31, 0⟩
/-- TDC_CD_STAT (R255). -/
def TDC_CD_STAT (i : Nat) : RF := ⟨0xD1000 + 0x4 * i, 31, 0⟩
def TDC_CD_STAT_VALID (i : Nat) : RF := ⟨0xD1000 + 0x4 * i, 31, 31⟩
def TDC_CD_STAT_REJECT (i : Nat) : RF := ⟨0xD1000 + 0x4 * i, 30, 30⟩
def TDC_CD_STAT_FILL (i : Nat) : RF := ⟨0xD1000 + 0x4 * i, 20, 0⟩
/-- TDC_CD_AGE (R255). -/
def TDC_CD_AGE (i : Nat) : RF := ⟨0xD1100 + 0x4 * i, 31, 0⟩
/-- TDC_CD_COUNT (R255). -/
def TDC_CD_COUNT (i : Nat) : RF := ⟨0xD1200 + 0x4 * i, 31, 0⟩
/-- TDC_CD_TABLE (R255). -/
def TDC_CD_TABLE (i k : Nat) : RF := ⟨0xD2000 + 0x800 * i + 0x4 * k, 31, 0⟩
/-- MON_CFG (R277). -/
def MON_CFG : RF := ⟨0xE0000, 31, 0⟩
def MON_CFG_STREAM_EN : RF := ⟨0xE0000, 31, 31⟩
def MON_CFG_URGENT : RF := ⟨0xE0000, 8, 8⟩
def MON_CFG_STAY_ON : RF := ⟨0xE0000, 1, 0⟩
/-- MON_STATUS (R277). -/
def MON_STATUS : RF := ⟨0xE0004, 31, 0⟩
def MON_STATUS_CFG_ILLEGAL : RF := ⟨0xE0004, 7, 7⟩
def MON_STATUS_URG_BUSY : RF := ⟨0xE0004, 6, 6⟩
def MON_STATUS_LOST : RF := ⟨0xE0004, 5, 5⟩
def MON_STATUS_OVERRUN : RF := ⟨0xE0004, 4, 4⟩
def MON_STATUS_PWR : RF := ⟨0xE0004, 3, 2⟩
def MON_STATUS_BUSY : RF := ⟨0xE0004, 1, 0⟩
/-- MON_SEQ_CFG (R277). -/
def MON_SEQ_CFG : RF := ⟨0xE0008, 31, 0⟩
def MON_SEQ_CFG_EN : RF := ⟨0xE0008, 31, 31⟩
def MON_SEQ_CFG_PERIOD_US : RF := ⟨0xE0008, 19, 0⟩
/-- MON_URGENT (R277). -/
def MON_URGENT : RF := ⟨0xE000C, 31, 0⟩
def MON_URGENT_GO : RF := ⟨0xE000C, 31, 31⟩
def MON_URGENT_CH : RF := ⟨0xE000C, 5, 0⟩
/-- MON_GZB_CFG (R277). -/
def MON_GZB_CFG : RF := ⟨0xE0010, 31, 0⟩
def MON_GZB_CFG_WAKE_OPEN : RF := ⟨0xE0010, 31, 31⟩
def MON_GZB_CFG_PERIOD_MS : RF := ⟨0xE0010, 25, 16⟩
def MON_GZB_CFG_ON_US : RF := ⟨0xE0010, 9, 0⟩
/-- MON_LOST_COUNT (R277). -/
def MON_LOST_COUNT : RF := ⟨0xE0014, 31, 0⟩
/-- MON_OVERRUN_COUNT (R277). -/
def MON_OVERRUN_COUNT : RF := ⟨0xE0018, 31, 0⟩
/-- MON_CH_CFG (R277). -/
def MON_CH_CFG (i : Nat) : RF := ⟨0xE0100 + 0x4 * i, 31, 0⟩
def MON_CH_CFG_EN (i : Nat) : RF := ⟨0xE0100 + 0x4 * i, 31, 31⟩
def MON_CH_CFG_DIFF (i : Nat) : RF := ⟨0xE0100 + 0x4 * i, 30, 30⟩
def MON_CH_CFG_RANGE (i : Nat) : RF := ⟨0xE0100 + 0x4 * i, 29, 29⟩
def MON_CH_CFG_EXC_LINK (i : Nat) : RF := ⟨0xE0100 + 0x4 * i, 28, 28⟩
def MON_CH_CFG_EXC (i : Nat) : RF := ⟨0xE0100 + 0x4 * i, 26, 24⟩
def MON_CH_CFG_AVG_LOG2 (i : Nat) : RF := ⟨0xE0100 + 0x4 * i, 23, 20⟩
def MON_CH_CFG_COMP (i : Nat) : RF := ⟨0xE0100 + 0x4 * i, 17, 16⟩
/-- MON_CH_STATUS (R277). -/
def MON_CH_STATUS (i : Nat) : RF := ⟨0xE0200 + 0x4 * i, 31, 0⟩
def MON_CH_STATUS_SETTLE (i : Nat) : RF := ⟨0xE0200 + 0x4 * i, 15, 8⟩
def MON_CH_STATUS_REMAIN (i : Nat) : RF := ⟨0xE0200 + 0x4 * i, 7, 0⟩
/-- MON_LAST (R277). -/
def MON_LAST (i : Nat) : RF := ⟨0xE0400 + 0x8 * i, 31, 0⟩
/-- MON_WIN_CFG (R277). -/
def MON_WIN_CFG (i : Nat) : RF := ⟨0xE0600 + 0x10 * i, 31, 0⟩
def MON_WIN_CFG_EN (i : Nat) : RF := ⟨0xE0600 + 0x10 * i, 31, 31⟩
def MON_WIN_CFG_CAPTURE (i : Nat) : RF := ⟨0xE0600 + 0x10 * i, 30, 30⟩
def MON_WIN_CFG_WAKE (i : Nat) : RF := ⟨0xE0600 + 0x10 * i, 29, 29⟩
def MON_WIN_CFG_CH (i : Nat) : RF := ⟨0xE0600 + 0x10 * i, 21, 16⟩
def MON_WIN_CFG_HYST (i : Nat) : RF := ⟨0xE0600 + 0x10 * i, 7, 0⟩
/-- MON_WIN_THR (R277). -/
def MON_WIN_THR (i : Nat) : RF := ⟨0xE0604 + 0x10 * i, 31, 0⟩
def MON_WIN_THR_HIGH (i : Nat) : RF := ⟨0xE0604 + 0x10 * i, 27, 16⟩
def MON_WIN_THR_LOW (i : Nat) : RF := ⟨0xE0604 + 0x10 * i, 11, 0⟩
/-- MON_WIN_COUNT (R277). -/
def MON_WIN_COUNT (i : Nat) : RF := ⟨0xE0608 + 0x10 * i, 31, 0⟩
/-- MON_WIN_STATUS (R277). -/
def MON_WIN_STATUS : RF := ⟨0xE0700, 31, 0⟩
def MON_WIN_STATUS_OUTSIDE : RF := ⟨0xE0700, 31, 16⟩
def MON_WIN_STATUS_SEEN : RF := ⟨0xE0700, 15, 0⟩
/-- EXC_CFG (R277). -/
def EXC_CFG (i : Nat) : RF := ⟨0xE0800 + 0x10 * i, 31, 0⟩
def EXC_CFG_MODE (i : Nat) : RF := ⟨0xE0800 + 0x10 * i, 31, 30⟩
def EXC_CFG_ILIM (i : Nat) : RF := ⟨0xE0800 + 0x10 * i, 25, 24⟩
def EXC_CFG_LEVEL (i : Nat) : RF := ⟨0xE0800 + 0x10 * i, 11, 0⟩
/-- EXC_STATUS (R277). -/
def EXC_STATUS (i : Nat) : RF := ⟨0xE0804 + 0x10 * i, 31, 0⟩
def EXC_STATUS_CFG_ILLEGAL (i : Nat) : RF := ⟨0xE0804 + 0x10 * i, 5, 5⟩
def EXC_STATUS_WHY (i : Nat) : RF := ⟨0xE0804 + 0x10 * i, 4, 3⟩
def EXC_STATUS_BLANK (i : Nat) : RF := ⟨0xE0804 + 0x10 * i, 2, 2⟩
def EXC_STATUS_LOSS (i : Nat) : RF := ⟨0xE0804 + 0x10 * i, 1, 1⟩
def EXC_STATUS_OPEN (i : Nat) : RF := ⟨0xE0804 + 0x10 * i, 0, 0⟩
/-- EXC_MEAS (R277). -/
def EXC_MEAS (i : Nat) : RF := ⟨0xE0808 + 0x10 * i, 31, 0⟩
def EXC_MEAS_FORCE_MV (i : Nat) : RF := ⟨0xE0808 + 0x10 * i, 31, 16⟩
def EXC_MEAS_CURRENT (i : Nat) : RF := ⟨0xE0808 + 0x10 * i, 15, 0⟩
/-- EXC_LOSS_COUNT (R277). -/
def EXC_LOSS_COUNT (i : Nat) : RF := ⟨0xE080C + 0x10 * i, 31, 0⟩
/-- CELL_CAL_STATUS (R300). -/
def CELL_CAL_STATUS (j c : Nat) : RF := ⟨cellBase j c + 0x100, 31, 0⟩
def CELL_CAL_STATUS_BUSY (j c : Nat) : RF := ⟨cellBase j c + 0x100, 31, 31⟩
def CELL_CAL_STATUS_PHASE (j c : Nat) : RF := ⟨cellBase j c + 0x100, 30, 28⟩
def CELL_CAL_STATUS_ATTEMPT (j c : Nat) : RF := ⟨cellBase j c + 0x100, 27, 26⟩
def CELL_CAL_STATUS_VERDICT (j c : Nat) : RF := ⟨cellBase j c + 0x100, 23, 22⟩
def CELL_CAL_STATUS_WHY (j c : Nat) : RF := ⟨cellBase j c + 0x100, 21, 19⟩
def CELL_CAL_STATUS_SKEW_SKIPPED (j c : Nat) : RF := ⟨cellBase j c + 0x100, 0, 0⟩
/-- CELL_CAL_COUNT (R300). -/
def CELL_CAL_COUNT (j c : Nat) : RF := ⟨cellBase j c + 0x104, 31, 0⟩
/-- CELL_CAL_ATTEMPTS (R300). -/
def CELL_CAL_ATTEMPTS (j c : Nat) : RF := ⟨cellBase j c + 0x108, 31, 0⟩
/-- CELL_CAL_TEMP (R300). -/
def CELL_CAL_TEMP (j c : Nat) : RF := ⟨cellBase j c + 0x10C, 31, 0⟩
def CELL_CAL_TEMP_TRY (j c : Nat) : RF := ⟨cellBase j c + 0x10C, 31, 16⟩
def CELL_CAL_TEMP_LAST (j c : Nat) : RF := ⟨cellBase j c + 0x10C, 15, 0⟩
/-- CELL_CAL_TIME (R300). -/
def CELL_CAL_TIME (j c : Nat) : RF := ⟨cellBase j c + 0x110, 31, 0⟩
/-- CELL_CAL_RESID (R300). -/
def CELL_CAL_RESID (j c : Nat) : RF := ⟨cellBase j c + 0x118, 31, 0⟩
def CELL_CAL_RESID_HG_OFF (j c : Nat) : RF := ⟨cellBase j c + 0x118, 31, 24⟩
def CELL_CAL_RESID_HG_GAIN (j c : Nat) : RF := ⟨cellBase j c + 0x118, 23, 16⟩
def CELL_CAL_RESID_LG_OFF (j c : Nat) : RF := ⟨cellBase j c + 0x118, 15, 8⟩
def CELL_CAL_RESID_LG_GAIN (j c : Nat) : RF := ⟨cellBase j c + 0x118, 7, 0⟩
/-- CAL_CTRL (R302). -/
def CAL_CTRL : RF := ⟨0xF0000, 31, 0⟩
def CAL_CTRL_AUTO_EN : RF := ⟨0xF0000, 31, 31⟩
def CAL_CTRL_SWEEP : RF := ⟨0xF0000, 0, 0⟩
/-- CAL_STATUS (R302). -/
def CAL_STATUS : RF := ⟨0xF0004, 31, 0⟩
def CAL_STATUS_CFG_ILLEGAL : RF := ⟨0xF0004, 4, 4⟩
def CAL_STATUS_MON_BAD : RF := ⟨0xF0004, 3, 3⟩
def CAL_STATUS_TRIM_BUSY : RF := ⟨0xF0004, 2, 2⟩
def CAL_STATUS_REF_BAD : RF := ⟨0xF0004, 0, 0⟩
/-- CAL_REF_UV (R302). -/
def CAL_REF_UV : RF := ⟨0xF0008, 31, 0⟩
/-- CAL_SCHED (R302). -/
def CAL_SCHED : RF := ⟨0xF000C, 31, 0⟩
def CAL_SCHED_MAX_AGE_S : RF := ⟨0xF000C, 31, 16⟩
def CAL_SCHED_TEMP_DELTA : RF := ⟨0xF000C, 15, 0⟩
/-- CAL_TOL (R302). -/
def CAL_TOL : RF := ⟨0xF0010, 31, 0⟩
def CAL_TOL_OFFSET : RF := ⟨0xF0010, 31, 24⟩
def CAL_TOL_GAIN : RF := ⟨0xF0010, 23, 16⟩
def CAL_TOL_RATIO : RF := ⟨0xF0010, 15, 0⟩
/-- CAL_REQ (R302). -/
def CAL_REQ : RF := ⟨0xF0014, 31, 0⟩
def CAL_REQ_REGION : RF := ⟨0xF0014, 12, 10⟩
def CAL_REQ_BLOCK : RF := ⟨0xF0014, 9, 8⟩
def CAL_REQ_CELL : RF := ⟨0xF0014, 4, 0⟩
/-- CAL_ACCEPT_COUNT (R302). -/
def CAL_ACCEPT_COUNT : RF := ⟨0xF0018, 31, 0⟩
/-- CAL_SUSPECT_COUNT (R302). -/
def CAL_SUSPECT_COUNT : RF := ⟨0xF001C, 31, 0⟩
/-- CAL_RGN_TEMP (R302). -/
def CAL_RGN_TEMP (i : Nat) : RF := ⟨0xF0020 + 0x4 * i, 31, 0⟩
/-- CAL_BLK_STATUS (R302). -/
def CAL_BLK_STATUS (i : Nat) : RF := ⟨0xF0040 + 0x4 * i, 31, 0⟩
def CAL_BLK_STATUS_BUSY (i : Nat) : RF := ⟨0xF0040 + 0x4 * i, 31, 31⟩
def CAL_BLK_STATUS_CELL (i : Nat) : RF := ⟨0xF0040 + 0x4 * i, 28, 24⟩
def CAL_BLK_STATUS_QUEUED (i : Nat) : RF := ⟨0xF0040 + 0x4 * i, 16, 0⟩
/-- CAL_MON_PERIOD (R302). -/
def CAL_MON_PERIOD : RF := ⟨0xF0100, 31, 0⟩
def CAL_MON_PERIOD_MS : RF := ⟨0xF0100, 15, 0⟩
/-- CAL_MON_CORR (R302). -/
def CAL_MON_CORR (i k : Nat) : RF := ⟨0xF0110 + 0x8 * i + 0x4 * k, 31, 0⟩
def CAL_MON_CORR_OFFSET (i k : Nat) : RF := ⟨0xF0110 + 0x8 * i + 0x4 * k, 31, 16⟩
def CAL_MON_CORR_GAIN (i k : Nat) : RF := ⟨0xF0110 + 0x8 * i + 0x4 * k, 15, 0⟩
/-- CAL_PULSE_CFG (R302). -/
def CAL_PULSE_CFG : RF := ⟨0xF0200, 31, 0⟩
def CAL_PULSE_CFG_EN : RF := ⟨0xF0200, 31, 31⟩
def CAL_PULSE_CFG_WIDTH : RF := ⟨0xF0200, 23, 16⟩
def CAL_PULSE_CFG_DELAY : RF := ⟨0xF0200, 15, 8⟩
/-- CAL_PULSE_LEVEL (R302). -/
def CAL_PULSE_LEVEL : RF := ⟨0xF0204, 31, 0⟩
def CAL_PULSE_LEVEL_LEVEL : RF := ⟨0xF0204, 15, 0⟩
/-- CAL_STROBE_COUNT (R302). -/
def CAL_STROBE_COUNT : RF := ⟨0xF0208, 31, 0⟩
/-- CAL_PULSE_MASK (R302). -/
def CAL_PULSE_MASK (i : Nat) : RF := ⟨0xF0210 + 0x4 * i, 31, 0⟩
/-- UL_CTRL (R325). -/
def UL_CTRL (i : Nat) : RF := ⟨0x70000 + 0x40 * i, 31, 0⟩
def UL_CTRL_LOOP (i : Nat) : RF := ⟨0x70000 + 0x40 * i, 5, 4⟩
def UL_CTRL_RETRAIN (i : Nat) : RF := ⟨0x70000 + 0x40 * i, 3, 3⟩
def UL_CTRL_EN (i : Nat) : RF := ⟨0x70000 + 0x40 * i, 0, 0⟩
/-- UL_CFG (R325). -/
def UL_CFG (i : Nat) : RF := ⟨0x70004 + 0x40 * i, 31, 0⟩
def UL_CFG_POL_INV (i : Nat) : RF := ⟨0x70004 + 0x40 * i, 31, 31⟩
def UL_CFG_SWING (i : Nat) : RF := ⟨0x70004 + 0x40 * i, 15, 12⟩
def UL_CFG_POST (i : Nat) : RF := ⟨0x70004 + 0x40 * i, 8, 4⟩
def UL_CFG_PRE (i : Nat) : RF := ⟨0x70004 + 0x40 * i, 3, 0⟩
/-- UL_STATUS (R325). -/
def UL_STATUS (i : Nat) : RF := ⟨0x70008 + 0x40 * i, 31, 0⟩
def UL_STATUS_CFG_ILLEGAL (i : Nat) : RF := ⟨0x70008 + 0x40 * i, 15, 15⟩
def UL_STATUS_LOOP_REFUSED (i : Nat) : RF := ⟨0x70008 + 0x40 * i, 14, 14⟩
def UL_STATUS_LOOP_SYNC (i : Nat) : RF := ⟨0x70008 + 0x40 * i, 13, 13⟩
def UL_STATUS_ACK_LATE (i : Nat) : RF := ⟨0x70008 + 0x40 * i, 12, 12⟩
def UL_STATUS_CAUSE (i : Nat) : RF := ⟨0x70008 + 0x40 * i, 11, 8⟩
def UL_STATUS_SPARE (i : Nat) : RF := ⟨0x70008 + 0x40 * i, 7, 7⟩
def UL_STATUS_ASSIGNED (i : Nat) : RF := ⟨0x70008 + 0x40 * i, 6, 6⟩
def UL_STATUS_STATE (i : Nat) : RF := ⟨0x70008 + 0x40 * i, 3, 0⟩
/-- UL_TRAIN_FAILS (R325). -/
def UL_TRAIN_FAILS (i : Nat) : RF := ⟨0x7000C + 0x40 * i, 31, 0⟩
def UL_TRAIN_FAILS_TOTAL (i : Nat) : RF := ⟨0x7000C + 0x40 * i, 31, 16⟩
def UL_TRAIN_FAILS_RUN (i : Nat) : RF := ⟨0x7000C + 0x40 * i, 3, 0⟩
/-- UL_FRAMES (R325). -/
def UL_FRAMES (i : Nat) : RF := ⟨0x70010 + 0x40 * i, 31, 0⟩
/-- UL_ACKED (R325). -/
def UL_ACKED (i : Nat) : RF := ⟨0x70018 + 0x40 * i, 31, 0⟩
/-- UL_REPLAY_COUNT (R325). -/
def UL_REPLAY_COUNT (i : Nat) : RF := ⟨0x7001C + 0x40 * i, 31, 0⟩
/-- UL_LOOP_SYM (R325). -/
def UL_LOOP_SYM (i : Nat) : RF := ⟨0x70020 + 0x40 * i, 31, 0⟩
/-- UL_LOOP_ERR (R325). -/
def UL_LOOP_ERR (i : Nat) : RF := ⟨0x70028 + 0x40 * i, 31, 0⟩
/-- UL_COMMON_CFG (R325). -/
def UL_COMMON_CFG : RF := ⟨0x70400, 31, 0⟩
def UL_COMMON_CFG_RATE : RF := ⟨0x70400, 1, 0⟩
/-- UL_COMMON_CTRL (R325). -/
def UL_COMMON_CTRL : RF := ⟨0x70404, 31, 0⟩
def UL_COMMON_CTRL_RELOCK : RF := ⟨0x70404, 0, 0⟩
/-- UL_SPARE (R325). -/
def UL_SPARE : RF := ⟨0x70408, 31, 0⟩
def UL_SPARE_EN : RF := ⟨0x70408, 8, 8⟩
def UL_SPARE_LANE : RF := ⟨0x70408, 3, 0⟩
/-- UL_COMMON_STATUS (R325). -/
def UL_COMMON_STATUS : RF := ⟨0x7040C, 31, 0⟩
def UL_COMMON_STATUS_SPARE_MOVED : RF := ⟨0x7040C, 4, 4⟩
def UL_COMMON_STATUS_REPLAY_LOSS : RF := ⟨0x7040C, 3, 3⟩
def UL_COMMON_STATUS_CFG_ILLEGAL : RF := ⟨0x7040C, 2, 2⟩
def UL_COMMON_STATUS_RUN_LOCKED : RF := ⟨0x7040C, 1, 1⟩
def UL_COMMON_STATUS_NO_SPARE : RF := ⟨0x7040C, 0, 0⟩
/-- UL_TAKEOVER_COUNT (R325). -/
def UL_TAKEOVER_COUNT : RF := ⟨0x70410, 31, 0⟩
/-- UL_REPLAY_LOST (R325). -/
def UL_REPLAY_LOST : RF := ⟨0x70414, 31, 0⟩
/-- UL_LAST_TAKEOVER (R325). -/
def UL_LAST_TAKEOVER : RF := ⟨0x70418, 31, 0⟩
/-- DL_CTRL (R325). -/
def DL_CTRL (i : Nat) : RF := ⟨0x80000 + 0x40 * i, 31, 0⟩
def DL_CTRL_LOOP (i : Nat) : RF := ⟨0x80000 + 0x40 * i, 5, 4⟩
def DL_CTRL_RETRAIN (i : Nat) : RF := ⟨0x80000 + 0x40 * i, 3, 3⟩
def DL_CTRL_EN (i : Nat) : RF := ⟨0x80000 + 0x40 * i, 0, 0⟩
/-- DL_CFG (R325). -/
def DL_CFG (i : Nat) : RF := ⟨0x80004 + 0x40 * i, 31, 0⟩
def DL_CFG_POL_INV (i : Nat) : RF := ⟨0x80004 + 0x40 * i, 31, 31⟩
def DL_CFG_EQ_MODE (i : Nat) : RF := ⟨0x80004 + 0x40 * i, 8, 8⟩
def DL_CFG_EQ_SET (i : Nat) : RF := ⟨0x80004 + 0x40 * i, 4, 0⟩
/-- DL_STATUS (R325). -/
def DL_STATUS (i : Nat) : RF := ⟨0x80008 + 0x40 * i, 31, 0⟩
def DL_STATUS_EYE (i : Nat) : RF := ⟨0x80008 + 0x40 * i, 31, 24⟩
def DL_STATUS_EQ_STEP (i : Nat) : RF := ⟨0x80008 + 0x40 * i, 20, 16⟩
def DL_STATUS_CFG_ILLEGAL (i : Nat) : RF := ⟨0x80008 + 0x40 * i, 15, 15⟩
def DL_STATUS_LOOP_REFUSED (i : Nat) : RF := ⟨0x80008 + 0x40 * i, 14, 14⟩
def DL_STATUS_LOOP_SYNC (i : Nat) : RF := ⟨0x80008 + 0x40 * i, 13, 13⟩
def DL_STATUS_CAUSE (i : Nat) : RF := ⟨0x80008 + 0x40 * i, 11, 8⟩
def DL_STATUS_STATE (i : Nat) : RF := ⟨0x80008 + 0x40 * i, 3, 0⟩
/-- DL_TRAIN_FAILS (R325). -/
def DL_TRAIN_FAILS (i : Nat) : RF := ⟨0x8000C + 0x40 * i, 31, 0⟩
def DL_TRAIN_FAILS_TOTAL (i : Nat) : RF := ⟨0x8000C + 0x40 * i, 31, 16⟩
def DL_TRAIN_FAILS_RUN (i : Nat) : RF := ⟨0x8000C + 0x40 * i, 3, 0⟩
/-- DL_CODE_ERR (R325). -/
def DL_CODE_ERR (i : Nat) : RF := ⟨0x80010 + 0x40 * i, 31, 0⟩
/-- DL_LOOP_SYM (R325). -/
def DL_LOOP_SYM (i : Nat) : RF := ⟨0x80020 + 0x40 * i, 31, 0⟩
/-- DL_LOOP_ERR (R325). -/
def DL_LOOP_ERR (i : Nat) : RF := ⟨0x80028 + 0x40 * i, 31, 0⟩
/-- SPK_CTRL (R325). -/
def SPK_CTRL (i : Nat) : RF := ⟨0x90000 + 0x40 * i, 31, 0⟩
def SPK_CTRL_LOOP (i : Nat) : RF := ⟨0x90000 + 0x40 * i, 5, 4⟩
def SPK_CTRL_RETRAIN (i : Nat) : RF := ⟨0x90000 + 0x40 * i, 3, 3⟩
def SPK_CTRL_EN (i : Nat) : RF := ⟨0x90000 + 0x40 * i, 0, 0⟩
/-- SPK_CFG (R325). -/
def SPK_CFG (i : Nat) : RF := ⟨0x90004 + 0x40 * i, 31, 0⟩
def SPK_CFG_RX_INV (i : Nat) : RF := ⟨0x90004 + 0x40 * i, 31, 31⟩
def SPK_CFG_TX_INV (i : Nat) : RF := ⟨0x90004 + 0x40 * i, 30, 30⟩
def SPK_CFG_SWING (i : Nat) : RF := ⟨0x90004 + 0x40 * i, 15, 12⟩
def SPK_CFG_EQ_MODE (i : Nat) : RF := ⟨0x90004 + 0x40 * i, 8, 8⟩
def SPK_CFG_EQ_SET (i : Nat) : RF := ⟨0x90004 + 0x40 * i, 4, 0⟩
/-- SPK_STATUS (R325). -/
def SPK_STATUS (i : Nat) : RF := ⟨0x90008 + 0x40 * i, 31, 0⟩
def SPK_STATUS_EYE (i : Nat) : RF := ⟨0x90008 + 0x40 * i, 31, 24⟩
def SPK_STATUS_EQ_STEP (i : Nat) : RF := ⟨0x90008 + 0x40 * i, 20, 16⟩
def SPK_STATUS_CFG_ILLEGAL (i : Nat) : RF := ⟨0x90008 + 0x40 * i, 15, 15⟩
def SPK_STATUS_LOOP_REFUSED (i : Nat) : RF := ⟨0x90008 + 0x40 * i, 14, 14⟩
def SPK_STATUS_LOOP_SYNC (i : Nat) : RF := ⟨0x90008 + 0x40 * i, 13, 13⟩
def SPK_STATUS_CAUSE (i : Nat) : RF := ⟨0x90008 + 0x40 * i, 11, 8⟩
def SPK_STATUS_STATE (i : Nat) : RF := ⟨0x90008 + 0x40 * i, 3, 0⟩
/-- SPK_TRAIN_FAILS (R325). -/
def SPK_TRAIN_FAILS (i : Nat) : RF := ⟨0x9000C + 0x40 * i, 31, 0⟩
def SPK_TRAIN_FAILS_TOTAL (i : Nat) : RF := ⟨0x9000C + 0x40 * i, 31, 16⟩
def SPK_TRAIN_FAILS_RUN (i : Nat) : RF := ⟨0x9000C + 0x40 * i, 3, 0⟩
/-- SPK_CODE_ERR (R325). -/
def SPK_CODE_ERR (i : Nat) : RF := ⟨0x90010 + 0x40 * i, 31, 0⟩
/-- SPK_LOOP_SYM (R325). -/
def SPK_LOOP_SYM (i : Nat) : RF := ⟨0x90020 + 0x40 * i, 31, 0⟩
/-- SPK_LOOP_ERR (R325). -/
def SPK_LOOP_ERR (i : Nat) : RF := ⟨0x90028 + 0x40 * i, 31, 0⟩
/-- UL_STREAM_FRAMES (R350). -/
def UL_STREAM_FRAMES (i : Nat) : RF := ⟨0x71000 + 0x4 * i, 31, 0⟩
/-- UL_RESEND_COUNT (R350). -/
def UL_RESEND_COUNT : RF := ⟨0x71040, 31, 0⟩
/-- UL_RESEND_REFUSED (R350). -/
def UL_RESEND_REFUSED : RF := ⟨0x71044, 31, 0⟩
/-- DL_FC_EN (R350). -/
def DL_FC_EN : RF := ⟨0x81000, 31, 0⟩
def DL_FC_EN_RUN_STOP : RF := ⟨0x81000, 5, 5⟩
def DL_FC_EN_RUN_START : RF := ⟨0x81000, 4, 4⟩
def DL_FC_EN_APPLY : RF := ⟨0x81000, 3, 3⟩
def DL_FC_EN_CAL_STROBE : RF := ⟨0x81000, 2, 2⟩
def DL_FC_EN_REC_SYNC : RF := ⟨0x81000, 1, 1⟩
def DL_FC_EN_BX_SET : RF := ⟨0x81000, 0, 0⟩
/-- DL_HRST_ARM (R350). -/
def DL_HRST_ARM : RF := ⟨0x81004, 31, 0⟩
def DL_HRST_ARM_ARM : RF := ⟨0x81004, 0, 0⟩
/-- DL_GROUPS (R350). -/
def DL_GROUPS : RF := ⟨0x81008, 31, 0⟩
def DL_GROUPS_HUB_ADDR : RF := ⟨0x81008, 21, 16⟩
def DL_GROUPS_GROUPS : RF := ⟨0x81008, 7, 0⟩
/-- DL_CTL_STATUS (R350). -/
def DL_CTL_STATUS : RF := ⟨0x8100C, 31, 0⟩
def DL_CTL_STATUS_FC_LOST : RF := ⟨0x8100C, 4, 4⟩
def DL_CTL_STATUS_CTL_DISCARD : RF := ⟨0x8100C, 3, 3⟩
def DL_CTL_STATUS_FULL : RF := ⟨0x8100C, 2, 2⟩
def DL_CTL_STATUS_HRST_IGNORED : RF := ⟨0x8100C, 1, 1⟩
def DL_CTL_STATUS_FC_IGNORED : RF := ⟨0x8100C, 0, 0⟩
/-- DL_FC_LOST (R350). -/
def DL_FC_LOST : RF := ⟨0x81010, 31, 0⟩
/-- DL_FC_RESCUED (R350). -/
def DL_FC_RESCUED : RF := ⟨0x81014, 31, 0⟩
/-- DL_FC_IGNORED (R350). -/
def DL_FC_IGNORED : RF := ⟨0x81018, 31, 0⟩
/-- DL_CTL_DISCARD (R350). -/
def DL_CTL_DISCARD : RF := ⟨0x8101C, 31, 0⟩
/-- DL_OUTSTANDING (R350). -/
def DL_OUTSTANDING : RF := ⟨0x81020, 31, 0⟩
/-- DL_CTL_FULL (R350). -/
def DL_CTL_FULL : RF := ⟨0x81024, 31, 0⟩
/-- DL_FRAME_BAD (R350). -/
def DL_FRAME_BAD (i : Nat) : RF := ⟨0x81040 + 0x4 * i, 31, 0⟩
/-- DL_HOST_ID (R350). -/
def DL_HOST_ID (i : Nat) : RF := ⟨0x81048 + 0x4 * i, 31, 0⟩
/-- LEAF_CTRL (R381). -/
def LEAF_CTRL (i : Nat) : RF := ⟨0x91000 + 0x40 * i, 31, 0⟩
def LEAF_CTRL_STREAM_EN (i : Nat) : RF := ⟨0x91000 + 0x40 * i, 5, 5⟩
def LEAF_CTRL_FWD_REC (i : Nat) : RF := ⟨0x91000 + 0x40 * i, 4, 4⟩
def LEAF_CTRL_FWD_CAL (i : Nat) : RF := ⟨0x91000 + 0x40 * i, 3, 3⟩
def LEAF_CTRL_SYNC (i : Nat) : RF := ⟨0x91000 + 0x40 * i, 2, 2⟩
def LEAF_CTRL_RESET (i : Nat) : RF := ⟨0x91000 + 0x40 * i, 1, 1⟩
/-- LEAF_STATUS (R381). -/
def LEAF_STATUS (i : Nat) : RF := ⟨0x91004 + 0x40 * i, 31, 0⟩
def LEAF_STATUS_DROP_WHY (i : Nat) : RF := ⟨0x91004 + 0x40 * i, 14, 12⟩
def LEAF_STATUS_OUTSTANDING (i : Nat) : RF := ⟨0x91004 + 0x40 * i, 10, 8⟩
def LEAF_STATUS_LBX_SLIP (i : Nat) : RF := ⟨0x91004 + 0x40 * i, 7, 7⟩
def LEAF_STATUS_OFF_DRIFT (i : Nat) : RF := ⟨0x91004 + 0x40 * i, 6, 6⟩
def LEAF_STATUS_CTL_TIMEOUT (i : Nat) : RF := ⟨0x91004 + 0x40 * i, 5, 5⟩
def LEAF_STATUS_ISOLATED (i : Nat) : RF := ⟨0x91004 + 0x40 * i, 4, 4⟩
def LEAF_STATUS_IDENT_BAD (i : Nat) : RF := ⟨0x91004 + 0x40 * i, 3, 3⟩
def LEAF_STATUS_CFG_ILLEGAL (i : Nat) : RF := ⟨0x91004 + 0x40 * i, 2, 2⟩
def LEAF_STATUS_SYNCING (i : Nat) : RF := ⟨0x91004 + 0x40 * i, 1, 1⟩
def LEAF_STATUS_PRESENT (i : Nat) : RF := ⟨0x91004 + 0x40 * i, 0, 0⟩
/-- LEAF_ID0 (R381). -/
def LEAF_ID0 (i : Nat) : RF := ⟨0x91008 + 0x40 * i, 31, 0⟩
/-- LEAF_ID1 (R381). -/
def LEAF_ID1 (i : Nat) : RF := ⟨0x9100C + 0x40 * i, 31, 0⟩
/-- LEAF_SERIAL (R381). -/
def LEAF_SERIAL (i : Nat) : RF := ⟨0x91010 + 0x40 * i, 31, 0⟩
/-- LEAF_SHAPE (R381). -/
def LEAF_SHAPE (i : Nat) : RF := ⟨0x91018 + 0x40 * i, 31, 0⟩
/-- LEAF_TURN (R381). -/
def LEAF_TURN (i : Nat) : RF := ⟨0x9101C + 0x40 * i, 31, 0⟩
/-- LEAF_CAPS (R381). -/
def LEAF_CAPS (i : Nat) : RF := ⟨0x91020 + 0x40 * i, 31, 0⟩
/-- LEAF_TS_OFF (R381). -/
def LEAF_TS_OFF (i : Nat) : RF := ⟨0x91024 + 0x40 * i, 31, 0⟩
def LEAF_TS_OFF_NEW (i : Nat) : RF := ⟨0x91024 + 0x40 * i, 31, 16⟩
def LEAF_TS_OFF_OFF (i : Nat) : RF := ⟨0x91024 + 0x40 * i, 15, 0⟩
/-- LEAF_TS_ADJ (R381). -/
def LEAF_TS_ADJ (i : Nat) : RF := ⟨0x91028 + 0x40 * i, 31, 0⟩
def LEAF_TS_ADJ_ADJ (i : Nat) : RF := ⟨0x91028 + 0x40 * i, 7, 0⟩
/-- LEAF_REC_COUNT (R381). -/
def LEAF_REC_COUNT (i : Nat) : RF := ⟨0x9102C + 0x40 * i, 31, 0⟩
/-- LEAF_REC_DROP (R381). -/
def LEAF_REC_DROP (i : Nat) : RF := ⟨0x91030 + 0x40 * i, 31, 0⟩
/-- LEAF_LOST (R381). -/
def LEAF_LOST (i : Nat) : RF := ⟨0x91034 + 0x40 * i, 31, 0⟩
/-- LEAF_ALARM_LAST (R381). -/
def LEAF_ALARM_LAST (i : Nat) : RF := ⟨0x91038 + 0x40 * i, 31, 0⟩
/-- LEAF_ISO_LIMIT (R381). -/
def LEAF_ISO_LIMIT (i : Nat) : RF := ⟨0x9103C + 0x40 * i, 31, 0⟩
def LEAF_ISO_LIMIT_LIMIT (i : Nat) : RF := ⟨0x9103C + 0x40 * i, 15, 0⟩
/-- SPK_CTL_DISCARD (R381). -/
def SPK_CTL_DISCARD (i : Nat) : RF := ⟨0x91400 + 0x4 * i, 31, 0⟩
/-- LEAF_CTL_TIMEOUT (R381). -/
def LEAF_CTL_TIMEOUT : RF := ⟨0x91440, 31, 0⟩
def LEAF_CTL_TIMEOUT_US : RF := ⟨0x91440, 15, 0⟩
/-- LEAF_BCAST_CFG (R381). -/
def LEAF_BCAST_CFG : RF := ⟨0x91444, 31, 0⟩
def LEAF_BCAST_CFG_REG : RF := ⟨0x91444, 19, 16⟩
def LEAF_BCAST_CFG_SPOKES : RF := ⟨0x91444, 15, 0⟩
/-- LEAF_BCAST_SEL (R381). -/
def LEAF_BCAST_SEL : RF := ⟨0x91448, 31, 0⟩
def LEAF_BCAST_SEL_MASK : RF := ⟨0x91448, 29, 16⟩
def LEAF_BCAST_SEL_MATCH : RF := ⟨0x91448, 13, 0⟩
/-- LEAF_BCAST_VALUE (R381). -/
def LEAF_BCAST_VALUE : RF := ⟨0x9144C, 31, 0⟩
/-- LEAF_BCAST_CTRL (R381). -/
def LEAF_BCAST_CTRL : RF := ⟨0x91450, 31, 0⟩
def LEAF_BCAST_CTRL_CFG_ILLEGAL : RF := ⟨0x91450, 1, 1⟩
def LEAF_BCAST_CTRL_GO : RF := ⟨0x91450, 0, 0⟩
/-- LEAF_BCAST_RESULT (R381). -/
def LEAF_BCAST_RESULT : RF := ⟨0x91454, 31, 0⟩
def LEAF_BCAST_RESULT_SKIPPED : RF := ⟨0x91454, 31, 16⟩
def LEAF_BCAST_RESULT_DONE : RF := ⟨0x91454, 15, 0⟩
/-- LEAF_BCAST_COUNT (R381). -/
def LEAF_BCAST_COUNT : RF := ⟨0x91458, 31, 0⟩
/-- CFG_CTRL (R409). -/
def CFG_CTRL : RF := ⟨0x40000, 31, 0⟩
def CFG_CTRL_APPLY_NOW : RF := ⟨0x40000, 4, 4⟩
def CFG_CTRL_CANCEL : RF := ⟨0x40000, 3, 3⟩
def CFG_CTRL_ARM : RF := ⟨0x40000, 2, 2⟩
def CFG_CTRL_DISCARD : RF := ⟨0x40000, 1, 1⟩
def CFG_CTRL_BEGIN : RF := ⟨0x40000, 0, 0⟩
/-- CFG_STATUS (R409). -/
def CFG_STATUS : RF := ⟨0x40004, 31, 0⟩
def CFG_STATUS_FAIL_WHY : RF := ⟨0x40004, 23, 19⟩
def CFG_STATUS_MISS_WHY : RF := ⟨0x40004, 18, 16⟩
def CFG_STATUS_CFG_ILLEGAL : RF := ⟨0x40004, 15, 15⟩
def CFG_STATUS_WORD_ILLEGAL : RF := ⟨0x40004, 14, 14⟩
def CFG_STATUS_LOAD_REFUSED : RF := ⟨0x40004, 13, 13⟩
def CFG_STATUS_RUN_LOCKED : RF := ⟨0x40004, 12, 12⟩
def CFG_STATUS_ARM_CANCELLED : RF := ⟨0x40004, 11, 11⟩
def CFG_STATUS_ARM_LATE : RF := ⟨0x40004, 10, 10⟩
def CFG_STATUS_APPLY_DONE : RF := ⟨0x40004, 9, 9⟩
def CFG_STATUS_APPLY_MISSED : RF := ⟨0x40004, 8, 8⟩
def CFG_STATUS_CFG_BAD : RF := ⟨0x40004, 7, 7⟩
def CFG_STATUS_OWNER : RF := ⟨0x40004, 6, 5⟩
def CFG_STATUS_ARMED : RF := ⟨0x40004, 4, 4⟩
def CFG_STATUS_STATE : RF := ⟨0x40004, 2, 0⟩
/-- CFG_LOAD_DATA (R409). -/
def CFG_LOAD_DATA : RF := ⟨0x40008, 31, 0⟩
/-- CFG_LOAD_COUNT (R409). -/
def CFG_LOAD_COUNT : RF := ⟨0x4000C, 31, 0⟩
/-- CFG_ERR_FRAME (R409). -/
def CFG_ERR_FRAME : RF := ⟨0x40010, 31, 0⟩
/-- CFG_ERR_WORD (R409). -/
def CFG_ERR_WORD : RF := ⟨0x40014, 31, 0⟩
/-- CFG_LOADED_FRAMES (R409). -/
def CFG_LOADED_FRAMES : RF := ⟨0x40018, 31, 0⟩
/-- CFG_APPLY_BX (R409). -/
def CFG_APPLY_BX : RF := ⟨0x40020, 31, 0⟩
/-- CFG_LAST_APPLY (R409). -/
def CFG_LAST_APPLY : RF := ⟨0x40028, 31, 0⟩
/-- CFG_APPLY_COUNT (R409). -/
def CFG_APPLY_COUNT : RF := ⟨0x40030, 31, 0⟩
/-- CFG_MISSED_COUNT (R409). -/
def CFG_MISSED_COUNT : RF := ⟨0x40034, 31, 0⟩
/-- CFG_NOP_COUNT (R409). -/
def CFG_NOP_COUNT : RF := ⟨0x40038, 31, 0⟩
/-- CFG_SCRUB_CORR (R409). -/
def CFG_SCRUB_CORR : RF := ⟨0x4003C, 31, 0⟩
/-- CFG_SCRUB_UNCORR (R409). -/
def CFG_SCRUB_UNCORR : RF := ⟨0x40040, 31, 0⟩
/-- CFG_READ_SEL (R409). -/
def CFG_READ_SEL : RF := ⟨0x40048, 31, 0⟩
def CFG_READ_SEL_ADDR_HI : RF := ⟨0x40048, 31, 28⟩
def CFG_READ_SEL_COPY : RF := ⟨0x40048, 24, 24⟩
def CFG_READ_SEL_ADDR_LO : RF := ⟨0x40048, 23, 0⟩
/-- CFG_READ_DATA (R409). -/
def CFG_READ_DATA (i : Nat) : RF := ⟨0x40100 + 0x4 * i, 31, 0⟩
/-- RGN_CFG_STATUS (R412). -/
def RGN_CFG_STATUS (r : Nat) : RF := ⟨rgnBase r + 0x100, 31, 0⟩
def RGN_CFG_STATUS_CFG_BAD (r : Nat) : RF := ⟨rgnBase r + 0x100, 1, 1⟩
def RGN_CFG_STATUS_LOADED (r : Nat) : RF := ⟨rgnBase r + 0x100, 0, 0⟩
/-- RGN_SCRUB_CORR (R412). -/
def RGN_SCRUB_CORR (r : Nat) : RF := ⟨rgnBase r + 0x104, 31, 0⟩
def RGN_SCRUB_CORR_COUNT (r : Nat) : RF := ⟨rgnBase r + 0x104, 31, 0⟩
/-- RGN_SCRUB_UNCORR (R412). -/
def RGN_SCRUB_UNCORR (r : Nat) : RF := ⟨rgnBase r + 0x108, 31, 0⟩
def RGN_SCRUB_UNCORR_COUNT (r : Nat) : RF := ⟨rgnBase r + 0x108, 31, 0⟩
/-- RGN_LOADED_FRAMES (R412). -/
def RGN_LOADED_FRAMES (r : Nat) : RF := ⟨rgnBase r + 0x10C, 31, 0⟩
def RGN_LOADED_FRAMES_COUNT (r : Nat) : RF := ⟨rgnBase r + 0x10C, 31, 0⟩
/-- ID_PART (R430). -/
def ID_PART : RF := ⟨0x0, 31, 0⟩
/-- ID_REV (R430). -/
def ID_REV : RF := ⟨0x4, 31, 0⟩
/-- ID_UNIQUE (R430). -/
def ID_UNIQUE : RF := ⟨0x8, 31, 0⟩
/-- ID_FW_A (R430). -/
def ID_FW_A : RF := ⟨0x10, 31, 0⟩
def ID_FW_A_MAJOR : RF := ⟨0x10, 31, 24⟩
def ID_FW_A_MINOR : RF := ⟨0x10, 23, 16⟩
def ID_FW_A_PATCH : RF := ⟨0x10, 15, 8⟩
def ID_FW_A_FW_UPDATE : RF := ⟨0x10, 1, 1⟩
def ID_FW_A_AUTOCAL : RF := ⟨0x10, 0, 0⟩
/-- ID_FW_B (R430). -/
def ID_FW_B : RF := ⟨0x14, 31, 0⟩
def ID_FW_B_MAJOR : RF := ⟨0x14, 31, 24⟩
def ID_FW_B_MINOR : RF := ⟨0x14, 23, 16⟩
def ID_FW_B_PATCH : RF := ⟨0x14, 15, 8⟩
def ID_FW_B_FW_UPDATE : RF := ⟨0x14, 1, 1⟩
def ID_FW_B_AUTOCAL : RF := ⟨0x14, 0, 0⟩
/-- ID_CFG_FORMAT (R430). -/
def ID_CFG_FORMAT : RF := ⟨0x18, 31, 0⟩
def ID_CFG_FORMAT_MAJOR : RF := ⟨0x18, 31, 16⟩
def ID_CFG_FORMAT_MINOR : RF := ⟨0x18, 15, 0⟩
/-- FEAT_OFFER (R430). -/
def FEAT_OFFER : RF := ⟨0x100, 31, 0⟩
/-- FEAT_ACCEPT (R430). -/
def FEAT_ACCEPT : RF := ⟨0x108, 31, 0⟩
/-- SES_CTRL (R430). -/
def SES_CTRL : RF := ⟨0x200, 31, 0⟩
def SES_CTRL_SLOT : RF := ⟨0x200, 5, 4⟩
def SES_CTRL_CLOSE : RF := ⟨0x200, 2, 2⟩
def SES_CTRL_RESPOND : RF := ⟨0x200, 1, 1⟩
def SES_CTRL_CHALLENGE : RF := ⟨0x200, 0, 0⟩
/-- SES_STATUS (R430). -/
def SES_STATUS : RF := ⟨0x204, 31, 0⟩
def SES_STATUS_CFG_ILLEGAL : RF := ⟨0x204, 19, 19⟩
def SES_STATUS_WHY : RF := ⟨0x204, 18, 16⟩
def SES_STATUS_ACCEPT_REFUSED : RF := ⟨0x204, 15, 15⟩
def SES_STATUS_FEAT_FIXED : RF := ⟨0x204, 14, 14⟩
def SES_STATUS_WARDS : RF := ⟨0x204, 13, 8⟩
def SES_STATUS_SLOT : RF := ⟨0x204, 5, 4⟩
def SES_STATUS_PATH : RF := ⟨0x204, 3, 2⟩
def SES_STATUS_STATE : RF := ⟨0x204, 1, 0⟩
/-- SES_IDLE_LIMIT (R430). -/
def SES_IDLE_LIMIT : RF := ⟨0x208, 31, 0⟩
def SES_IDLE_LIMIT_S : RF := ⟨0x208, 11, 0⟩
/-- SES_NONCE (R430). -/
def SES_NONCE (i : Nat) : RF := ⟨0x210 + 0x4 * i, 31, 0⟩
/-- SES_TAG (R430). -/
def SES_TAG (i : Nat) : RF := ⟨0x220 + 0x4 * i, 31, 0⟩
/-- SES_SLOT (R430). -/
def SES_SLOT (i : Nat) : RF := ⟨0x300 + 0x4 * i, 31, 0⟩
def SES_SLOT_LOCKED (i : Nat) : RF := ⟨0x300 + 0x4 * i, 31, 31⟩
def SES_SLOT_REVOKED (i : Nat) : RF := ⟨0x300 + 0x4 * i, 30, 30⟩
def SES_SLOT_WARDS (i : Nat) : RF := ⟨0x300 + 0x4 * i, 5, 0⟩
/-- SES_KEY_CTRL (R430). -/
def SES_KEY_CTRL : RF := ⟨0x310, 31, 0⟩
def SES_KEY_CTRL_BUSY : RF := ⟨0x310, 31, 31⟩
def SES_KEY_CTRL_DONE : RF := ⟨0x310, 30, 30⟩
def SES_KEY_CTRL_FAIL : RF := ⟨0x310, 29, 29⟩
def SES_KEY_CTRL_WARDS : RF := ⟨0x310, 13, 8⟩
def SES_KEY_CTRL_SLOT : RF := ⟨0x310, 5, 4⟩
def SES_KEY_CTRL_REVOKE : RF := ⟨0x310, 1, 1⟩
def SES_KEY_CTRL_PROGRAM : RF := ⟨0x310, 0, 0⟩
/-- SES_KEY_DATA (R430). -/
def SES_KEY_DATA (i : Nat) : RF := ⟨0x320 + 0x4 * i, 31, 0⟩
/-- PORT_CFG (R454). -/
def PORT_CFG : RF := ⟨0x50000, 31, 0⟩
def PORT_CFG_UNIT : RF := ⟨0x50000, 5, 0⟩
/-- PORT_STATUS (R454). -/
def PORT_STATUS : RF := ⟨0x50004, 31, 0⟩
def PORT_STATUS_MODE : RF := ⟨0x50004, 8, 8⟩
def PORT_STATUS_CFG_ILLEGAL : RF := ⟨0x50004, 4, 4⟩
def PORT_STATUS_OVERCLOCK : RF := ⟨0x50004, 3, 3⟩
def PORT_STATUS_FRAME_CUT : RF := ⟨0x50004, 2, 2⟩
def PORT_STATUS_BUSY_SENT : RF := ⟨0x50004, 1, 1⟩
def PORT_STATUS_UNDERRUN : RF := ⟨0x50004, 0, 0⟩
/-- PORT_LAST_STATUS (R454). -/
def PORT_LAST_STATUS : RF := ⟨0x50008, 31, 0⟩
/-- PORT_TRANS_COUNT (R454). -/
def PORT_TRANS_COUNT : RF := ⟨0x5000C, 31, 0⟩
/-- PORT_CUT_COUNT (R454). -/
def PORT_CUT_COUNT : RF := ⟨0x50010, 31, 0⟩
/-- FLASH_CFG (R454). -/
def FLASH_CFG : RF := ⟨0x50100, 31, 0⟩
def FLASH_CFG_DIV : RF := ⟨0x50100, 3, 0⟩
/-- FLASH_STATUS (R454). -/
def FLASH_STATUS : RF := ⟨0x50104, 31, 0⟩
def FLASH_STATUS_RMODE : RF := ⟨0x50104, 9, 8⟩
def FLASH_STATUS_ADDR4 : RF := ⟨0x50104, 7, 7⟩
def FLASH_STATUS_CFG_ILLEGAL : RF := ⟨0x50104, 6, 6⟩
def FLASH_STATUS_READ_BUSY : RF := ⟨0x50104, 5, 5⟩
def FLASH_STATUS_ENGINE : RF := ⟨0x50104, 4, 4⟩
def FLASH_STATUS_SFDP_BAD : RF := ⟨0x50104, 3, 3⟩
def FLASH_STATUS_ABSENT : RF := ⟨0x50104, 2, 2⟩
def FLASH_STATUS_DISC_DONE : RF := ⟨0x50104, 1, 1⟩
/-- FLASH_JEDEC_ID (R454). -/
def FLASH_JEDEC_ID : RF := ⟨0x50108, 31, 0⟩
/-- FLASH_DENSITY (R454). -/
def FLASH_DENSITY : RF := ⟨0x5010C, 31, 0⟩
/-- FLASH_DUMMY (R454). -/
def FLASH_DUMMY : RF := ⟨0x50110, 31, 0⟩
/-- FLASH_FETCHES (R454). -/
def FLASH_FETCHES : RF := ⟨0x50114, 31, 0⟩
/-- FLASH_HITS (R454). -/
def FLASH_HITS : RF := ⟨0x50118, 31, 0⟩
/-- KPR_CTRL (R480). -/
def KPR_CTRL : RF := ⟨0x30000, 31, 0⟩
def KPR_CTRL_SWAP : RF := ⟨0x30000, 2, 2⟩
def KPR_CTRL_RESET_B : RF := ⟨0x30000, 1, 1⟩
def KPR_CTRL_RESET_A : RF := ⟨0x30000, 0, 0⟩
/-- KPR_STATUS (R480). -/
def KPR_STATUS : RF := ⟨0x30004, 31, 0⟩
def KPR_STATUS_PORT_REPLAYED : RF := ⟨0x30004, 15, 15⟩
def KPR_STATUS_REFUSED : RF := ⟨0x30004, 14, 14⟩
def KPR_STATUS_STANDBY_LOST : RF := ⟨0x30004, 13, 13⟩
def KPR_STATUS_HASP_PATH : RF := ⟨0x30004, 12, 12⟩
def KPR_STATUS_HEARTBEAT_PATH : RF := ⟨0x30004, 11, 11⟩
def KPR_STATUS_NO_STANDBY : RF := ⟨0x30004, 10, 10⟩
def KPR_STATUS_KEEPERLESS : RF := ⟨0x30004, 9, 9⟩
def KPR_STATUS_STATE_B : RF := ⟨0x30004, 6, 4⟩
def KPR_STATUS_STATE_A : RF := ⟨0x30004, 2, 0⟩
/-- HASP_STATUS (R480). -/
def HASP_STATUS : RF := ⟨0x30008, 31, 0⟩
def HASP_STATUS_ABSENT_US : RF := ⟨0x30008, 23, 16⟩
def HASP_STATUS_FENCED_B : RF := ⟨0x30008, 5, 5⟩
def HASP_STATUS_FENCED_A : RF := ⟨0x30008, 4, 4⟩
def HASP_STATUS_CLAIM_REFUSED : RF := ⟨0x30008, 3, 3⟩
def HASP_STATUS_KEEPALIVE : RF := ⟨0x30008, 2, 2⟩
def HASP_STATUS_OWNER : RF := ⟨0x30008, 1, 0⟩
/-- HASP_TAKEOVER_COUNT (R480). -/
def HASP_TAKEOVER_COUNT : RF := ⟨0x3000C, 31, 0⟩
/-- HASP_LAST_TAKEOVER (R480). -/
def HASP_LAST_TAKEOVER : RF := ⟨0x30010, 31, 0⟩
/-- KPR_REPLAY_COUNT (R480). -/
def KPR_REPLAY_COUNT : RF := ⟨0x30018, 31, 0⟩
/-- KPR_CKPT_GEN (R480). -/
def KPR_CKPT_GEN : RF := ⟨0x3001C, 31, 0⟩
/-- KPR_JOURNAL (R480). -/
def KPR_JOURNAL : RF := ⟨0x30020, 31, 0⟩
def KPR_JOURNAL_EARLY : RF := ⟨0x30020, 31, 16⟩
def KPR_JOURNAL_LEVEL : RF := ⟨0x30020, 8, 0⟩
/-- KPR_HEALTH (R480). -/
def KPR_HEALTH (i : Nat) : RF := ⟨0x30040 + 0x20 * i, 31, 0⟩
def KPR_HEALTH_FIT (i : Nat) : RF := ⟨0x30040 + 0x20 * i, 31, 31⟩
def KPR_HEALTH_LAST_FAULT (i : Nat) : RF := ⟨0x30040 + 0x20 * i, 27, 24⟩
def KPR_HEALTH_MIRROR_MISMATCH (i : Nat) : RF := ⟨0x30040 + 0x20 * i, 23, 16⟩
def KPR_HEALTH_INSTR_FAIL (i : Nat) : RF := ⟨0x30040 + 0x20 * i, 15, 8⟩
def KPR_HEALTH_MARCH_ERR (i : Nat) : RF := ⟨0x30040 + 0x20 * i, 7, 0⟩
/-- KPR_MARCH_PASSES (R480). -/
def KPR_MARCH_PASSES (i : Nat) : RF := ⟨0x30044 + 0x20 * i, 31, 0⟩
/-- KPR_SRAM_CORR (R480). -/
def KPR_SRAM_CORR (i : Nat) : RF := ⟨0x30048 + 0x20 * i, 31, 0⟩
/-- KPR_UPTIME (R480). -/
def KPR_UPTIME (i : Nat) : RF := ⟨0x3004C + 0x20 * i, 31, 0⟩
/-- KPR_UPD_CTRL (R480). -/
def KPR_UPD_CTRL : RF := ⟨0x30100, 31, 0⟩
def KPR_UPD_CTRL_ABORT : RF := ⟨0x30100, 4, 4⟩
def KPR_UPD_CTRL_COMPLETE : RF := ⟨0x30100, 3, 3⟩
def KPR_UPD_CTRL_PROVE : RF := ⟨0x30100, 2, 2⟩
def KPR_UPD_CTRL_END : RF := ⟨0x30100, 1, 1⟩
def KPR_UPD_CTRL_BEGIN : RF := ⟨0x30100, 0, 0⟩
/-- KPR_UPD_STATUS (R480). -/
def KPR_UPD_STATUS : RF := ⟨0x30104, 31, 0⟩
def KPR_UPD_STATUS_STEP_REFUSED : RF := ⟨0x30104, 13, 13⟩
def KPR_UPD_STATUS_CFG_ILLEGAL : RF := ⟨0x30104, 12, 12⟩
def KPR_UPD_STATUS_WHY : RF := ⟨0x30104, 11, 8⟩
def KPR_UPD_STATUS_STATE : RF := ⟨0x30104, 3, 0⟩
/-- KPR_UPD_LEN (R480). -/
def KPR_UPD_LEN : RF := ⟨0x30108, 31, 0⟩
/-- KPR_UPD_DATA (R480). -/
def KPR_UPD_DATA : RF := ⟨0x3010C, 31, 0⟩
/-- KPR_UPD_VERSION (R480). -/
def KPR_UPD_VERSION : RF := ⟨0x30110, 31, 0⟩
/-- KPR_UPD_COUNT (R480). -/
def KPR_UPD_COUNT : RF := ⟨0x30114, 31, 0⟩
/-- Q_COUNT (R492). -/
def Q_COUNT (i : Nat) : RF := ⟨0x60000 + 0x20 * i, 31, 0⟩
def Q_COUNT_COUNT (i : Nat) : RF := ⟨0x60000 + 0x20 * i, 5, 0⟩
/-- Q_CTRL (R492). -/
def Q_CTRL (i : Nat) : RF := ⟨0x60004 + 0x20 * i, 31, 0⟩
def Q_CTRL_FLUSH (i : Nat) : RF := ⟨0x60004 + 0x20 * i, 0, 0⟩
/-- Q_STATUS (R492). -/
def Q_STATUS (i : Nat) : RF := ⟨0x60008 + 0x20 * i, 31, 0⟩
def Q_STATUS_TAIL_DROP (i : Nat) : RF := ⟨0x60008 + 0x20 * i, 2, 2⟩
def Q_STATUS_OPEN (i : Nat) : RF := ⟨0x60008 + 0x20 * i, 1, 1⟩
def Q_STATUS_UNCORR (i : Nat) : RF := ⟨0x60008 + 0x20 * i, 0, 0⟩
/-- Q_CORR (R492). -/
def Q_CORR (i : Nat) : RF := ⟨0x6000C + 0x20 * i, 31, 0⟩
/-- Q_UNCORR (R492). -/
def Q_UNCORR (i : Nat) : RF := ⟨0x60010 + 0x20 * i, 31, 0⟩
/-- Q_PUSH_FULL (R492). -/
def Q_PUSH_FULL (i : Nat) : RF := ⟨0x60014 + 0x20 * i, 31, 0⟩
/-- Q_POP_EMPTY (R492). -/
def Q_POP_EMPTY (i : Nat) : RF := ⟨0x60018 + 0x20 * i, 31, 0⟩
/-- Q_FLUSH_TAIL (R492). -/
def Q_FLUSH_TAIL (i : Nat) : RF := ⟨0x6001C + 0x20 * i, 31, 0⟩
/-- PWR_CTRL (R508). -/
def PWR_CTRL : RF := ⟨0x10000, 31, 0⟩
def PWR_CTRL_KEY : RF := ⟨0x10000, 31, 24⟩
def PWR_CTRL_CHIP_RESET : RF := ⟨0x10000, 4, 4⟩
def PWR_CTRL_GO : RF := ⟨0x10000, 3, 3⟩
def PWR_CTRL_TARGET : RF := ⟨0x10000, 2, 0⟩
/-- PWR_CFG (R508). -/
def PWR_CFG : RF := ⟨0x10004, 31, 0⟩
def PWR_CFG_STBY_HEAT : RF := ⟨0x10004, 13, 13⟩
def PWR_CFG_STBY_MON : RF := ⟨0x10004, 12, 12⟩
def PWR_CFG_STBY_LANES : RF := ⟨0x10004, 11, 0⟩
/-- PWR_STATUS (R508). -/
def PWR_STATUS : RF := ⟨0x10008, 31, 0⟩
def PWR_STATUS_SUPPLY_GOOD : RF := ⟨0x10008, 23, 19⟩
def PWR_STATUS_BOOT_WHY : RF := ⟨0x10008, 17, 15⟩
def PWR_STATUS_RESET_WHY : RF := ⟨0x10008, 14, 12⟩
def PWR_STATUS_CFG_ILLEGAL : RF := ⟨0x10008, 5, 5⟩
def PWR_STATUS_GOTO_REFUSED : RF := ⟨0x10008, 4, 4⟩
def PWR_STATUS_STATE : RF := ⟨0x10008, 2, 0⟩
/-- PWR_CELL_RESET (R508). -/
def PWR_CELL_RESET : RF := ⟨0x1000C, 31, 0⟩
def PWR_CELL_RESET_REGION : RF := ⟨0x1000C, 12, 10⟩
def PWR_CELL_RESET_BLOCK : RF := ⟨0x1000C, 9, 8⟩
def PWR_CELL_RESET_CELL : RF := ⟨0x1000C, 5, 1⟩
def PWR_CELL_RESET_GO : RF := ⟨0x1000C, 0, 0⟩
/-- PWR_BOOT_TIME (R508). -/
def PWR_BOOT_TIME : RF := ⟨0x10010, 31, 0⟩
/-- PWR_RESET_COUNT (R508). -/
def PWR_RESET_COUNT : RF := ⟨0x10014, 31, 0⟩
/-- PWR_SUPPLY (R508). -/
def PWR_SUPPLY (i : Nat) : RF := ⟨0x10020 + 0x4 * i, 31, 0⟩
def PWR_SUPPLY_MV (i : Nat) : RF := ⟨0x10020 + 0x4 * i, 15, 0⟩
/-- GZB_CTRL (R508). -/
def GZB_CTRL : RF := ⟨0x10100, 31, 0⟩
def GZB_CTRL_ENTER : RF := ⟨0x10100, 0, 0⟩
/-- GZB_WAKE_EN (R508). -/
def GZB_WAKE_EN : RF := ⟨0x10104, 31, 0⟩
def GZB_WAKE_EN_PORT : RF := ⟨0x10104, 2, 2⟩
def GZB_WAKE_EN_DL : RF := ⟨0x10104, 1, 1⟩
def GZB_WAKE_EN_PIN : RF := ⟨0x10104, 0, 0⟩
/-- GZB_STATUS (R508). -/
def GZB_STATUS : RF := ⟨0x10108, 31, 0⟩
def GZB_STATUS_WAKE_WHY : RF := ⟨0x10108, 7, 5⟩
def GZB_STATUS_WAKE_ALARM : RF := ⟨0x10108, 3, 3⟩
def GZB_STATUS_CFG_ILLEGAL : RF := ⟨0x10108, 2, 2⟩
def GZB_STATUS_ENTER_REFUSED : RF := ⟨0x10108, 1, 1⟩
def GZB_STATUS_TIME_LOST : RF := ⟨0x10108, 0, 0⟩
/-- GZB_TIME (R508). -/
def GZB_TIME : RF := ⟨0x10110, 31, 0⟩
/-- GZB_LAST_ENTRY (R508). -/
def GZB_LAST_ENTRY : RF := ⟨0x10118, 31, 0⟩
/-- GZB_LAST_WAKE (R508). -/
def GZB_LAST_WAKE : RF := ⟨0x10120, 31, 0⟩
/-- GZB_LOG_COUNT (R508). -/
def GZB_LOG_COUNT : RF := ⟨0x10128, 31, 0⟩
def GZB_LOG_COUNT_OVF : RF := ⟨0x10128, 31, 16⟩
def GZB_LOG_COUNT_LEVEL : RF := ⟨0x10128, 4, 0⟩
/-- GZB_LOG_TIME (R508). -/
def GZB_LOG_TIME (i : Nat) : RF := ⟨0x10200 + 0x10 * i, 31, 0⟩
/-- GZB_LOG_CAUSE (R508). -/
def GZB_LOG_CAUSE (i : Nat) : RF := ⟨0x10208 + 0x10 * i, 31, 0⟩
def GZB_LOG_CAUSE_SOURCE (i : Nat) : RF := ⟨0x10208 + 0x10 * i, 7, 4⟩
def GZB_LOG_CAUSE_WOKE (i : Nat) : RF := ⟨0x10208 + 0x10 * i, 1, 1⟩
def GZB_LOG_CAUSE_KIND (i : Nat) : RF := ⟨0x10208 + 0x10 * i, 0, 0⟩

end Sys2Proof.Machine
end

