-- ==== Sys2Proof/Machine/Rom.lean ====
section
/-! DEFINITION. The response ROM (R136, R137, R540): family, D2, settle count, group delay and coefficients of
the 64 fixed responses, each coefficient the rounded value of the formula of R540 in units of 2^−16. -/

namespace Sys2Proof.Machine

/-- One response of the ROM (R137). -/
structure Response where
  family : Nat
  d2 : Nat
  settle : Nat
  delay16 : Nat
  coef : List Int
  deriving DecidableEq, Repr

/-- Responses 0 to 7 (R540). -/
def rom0 : List Response := [
  ⟨0, 1, 0, 0, [65536]⟩,
  ⟨1, 1, 7, 48, [0, 0, 0, 65536, 0, 0, 0, 0]⟩,
  ⟨1, 1, 7, 49, [-37, 389, -2265, 64169, 4278, -1242, 273, -29]⟩,
  ⟨1, 1, 7, 50, [-71, 731, -4143, 62144, 8878, -2486, 540, -57]⟩,
  ⟨1, 1, 7, 51, [-100, 1020, -5637, 59505, 13732, -3693, 793, -84]⟩,
  ⟨1, 1, 7, 52, [-124, 1251, -6757, 56306, 18769, -4826, 1024, -107]⟩,
  ⟨1, 1, 7, 53, [-142, 1422, -7515, 52607, 23913, -5845, 1223, -127]⟩,
  ⟨1, 1, 7, 54, [-154, 1531, -7932, 48475, 29086, -6712, 1385, -143]⟩]

/-- Responses 8 to 15 (R540). -/
def rom8 : List Response := [
  ⟨1, 1, 7, 55, [-160, 1579, -8031, 43981, 34208, -7389, 1502, -154]⟩,
  ⟨1, 1, 7, 56, [-160, 1568, -7840, 39200, 39200, -7840, 1568, -160]⟩,
  ⟨1, 1, 7, 57, [-154, 1502, -7389, 34208, 43981, -8031, 1579, -160]⟩,
  ⟨1, 1, 7, 58, [-143, 1385, -6712, 29086, 48475, -7932, 1531, -154]⟩,
  ⟨1, 1, 7, 59, [-127, 1223, -5845, 23913, 52607, -7515, 1422, -142]⟩,
  ⟨1, 1, 7, 60, [-107, 1024, -4826, 18769, 56306, -6757, 1251, -124]⟩,
  ⟨1, 1, 7, 61, [-84, 793, -3693, 13732, 59505, -5637, 1020, -100]⟩,
  ⟨1, 1, 7, 62, [-57, 540, -2486, 8878, 62144, -4143, 731, -71]⟩]

/-- Responses 16 to 23 (R540). -/
def rom16 : List Response := [
  ⟨1, 1, 7, 63, [-29, 273, -1242, 4278, 64169, -2265, 389, -37]⟩,
  ⟨2, 1, 8, 64, [-7267, -459, 9970, 19142, 22764, 19142, 9970, -459, -7267]⟩,
  ⟨2, 1, 16, 128, [-3497, 6721, -2289, -5882, 8829, -420, -15201, 18949, 51116, 18949, -15201, -420, 8829,
    -5882, -2289, 6721, -3497]⟩,
  ⟨2, 2, 8, 120, [-4095, -2848, -544, 2467, 5725, 8736, 11040, 12287, 12287, 11040, 8736, 5725, 2467, -544,
    -2848, -4095]⟩,
  ⟨2, 2, 16, 248, [-2036, 108, 2200, 2034, -351, -2582, -2221, 700, 3383, 2760, -1349, -5360, -4487, 3148,
    14320, 22501, 22501, 14320, 3148, -4487, -5360, -1349, 2760, 3383, 700, -2221, -2582, -351, 2034, 2200,
    108, -2036]⟩,
  ⟨2, 1, 8, 64, [-7566, -619, 10026, 19386, 23082, 19386, 10026, -619, -7566]⟩,
  ⟨2, 1, 16, 128, [-4176, 7977, -2590, -7119, 10280, 140, -18018, 18920, 54708, 18920, -18018, 140, 10280,
    -7119, -2590, 7977, -4176]⟩,
  ⟨2, 2, 8, 120, [-4148, -2893, -574, 2456, 5736, 8766, 11085, 12340, 12340, 11085, 8766, 5736, 2456, -574,
    -2893, -4148]⟩]

/-- Responses 24 to 31 (R540). -/
def rom24 : List Response := [
  ⟨2, 2, 16, 248, [-2137, 110, 2307, 2140, -357, -2704, -2343, 708, 3537, 2926, -1346, -5579, -4796, 2983,
    14451, 22866, 22870, 14451, 2983, -4796, -5579, -1346, 2926, 3537, 708, -2343, -2704, -357, 2140, 2307,
    110, -2137]⟩,
  ⟨2, 1, 8, 64, [-7872, -782, 10082, 19636, 23408, 19636, 10082, -782, -7872]⟩,
  ⟨2, 1, 16, 128, [-4982, 9458, -2923, -8591, 11942, 867, -21199, 18833, 58726, 18833, -21199, 867, 11942,
    -8591, -2923, 9458, -4982]⟩,
  ⟨2, 2, 8, 120, [-4201, -2938, -604, 2446, 5746, 8796, 11130, 12393, 12393, 11130, 8796, 5746, 2446, -604,
    -2938, -4201]⟩,
  ⟨2, 2, 16, 248, [-2244, 112, 2418, 2251, -363, -2831, -2471, 715, 3696, 3100, -1340, -5804, -5116, 2811,
    14585, 23249, 23249, 14585, 2811, -5116, -5804, -1340, 3100, 3696, 715, -2471, -2831, -363, 2251, 2418,
    112, -2244]⟩,
  ⟨3, 1, 4, 32, [-12798, 23002, 45128, 23002, -12798]⟩,
  ⟨3, 1, 8, 64, [7026, -9789, -7563, 22382, 41424, 22382, -7563, -9789, 7026]⟩,
  ⟨3, 1, 16, 128, [3716, -4439, -3393, 5883, 3494, -9265, -5025, 22225, 39144, 22225, -5025, -9265, 3494,
    5883, -3393, -4439, 3716]⟩]

/-- Responses 32 to 39 (R540). -/
def rom32 : List Response := [
  ⟨4, 2, 3, 64, [416, 1966, 8173, 26839, 49578, 0]⟩,
  ⟨4, 2, 4, 80, [2104, 4202, 7932, 13800, 21101, 25492, 17324, 0]⟩,
  ⟨4, 2, 5, 96, [2825, 4348, 6483, 9278, 12549, 15643, 17138, 14836, 7224, 0]⟩,
  ⟨4, 2, 6, 112, [2955, 4026, 5377, 7004, 8841, 10709, 12262, 12938, 11999, 8792, 3624, 0]⟩,
  ⟨4, 2, 7, 128, [2871, 3650, 4575, 5641, 6816, 8035, 9177, 10058, 10420, 9949, 8349, 5536, 2065, 0]⟩,
  ⟨4, 2, 8, 144, [2720, 3306, 3979, 4731, 5548, 6399, 7234, 7977, 8524, 8740, 8470, 7566, 5939, 3684, 1285,
    0]⟩,
  ⟨4, 2, 9, 160, [2553, 3009, 3519, 4079, 4681, 5307, 5934, 6526, 7035, 7396, 7536, 7367, 6808, 5798, 4340,
    2567, 854, 0]⟩,
  ⟨4, 2, 10, 176, [2390, 2755, 3155, 3588, 4050, 4530, 5015, 5487, 5920, 6282, 6534, 6629, 6516, 6147,
    5482, 4505, 3254, 1857, 596, 0]⟩]

/-- Responses 40 to 47 (R540). -/
def rom40 : List Response := [
  ⟨4, 2, 11, 192, [2239, 2537, 2859, 3205, 3570, 3949, 4335, 4716, 5078, 5403, 5670, 5852, 5920, 5841,
    5585, 5125, 4444, 3552, 2495, 1385, 432, 0]⟩,
  ⟨4, 2, 12, 208, [2102, 2349, 2614, 2896, 3193, 3500, 3813, 4125, 4429, 4712, 4962, 5164, 5300, 5350,
    5293, 5108, 4777, 4287, 3636, 2842, 1953, 1060, 324, 0]⟩,
  ⟨4, 2, 13, 224, [1978, 2186, 2408, 2643, 2888, 3142, 3401, 3661, 3917, 4161, 4387, 4583, 4740, 4844,
    4882, 4839, 4701, 4455, 4091, 3605, 3003, 2305, 1555, 829, 249, 0]⟩,
  ⟨4, 2, 14, 240, [1866, 2044, 2233, 2431, 2637, 2851, 3068, 3288, 3505, 3717, 3916, 4098, 4255, 4379,
    4461, 4490, 4457, 4352, 4164, 3887, 3516, 3051, 2503, 1893, 1258, 660, 195, 0]⟩,
  ⟨4, 2, 15, 256, [1765, 1919, 2081, 2250, 2427, 2608, 2794, 2981, 3168, 3352, 3528, 3693, 3842, 3969,
    4069, 4134, 4157, 4131, 4049, 3903, 3687, 3398, 3034, 2600, 2106, 1572, 1031, 534, 156, 0]⟩,
  ⟨4, 2, 16, 272, [1673, 1808, 1948, 2095, 2248, 2404, 2564, 2726, 2888, 3048, 3204, 3352, 3490, 3613,
    3718, 3799, 3852, 3871, 3850, 3784, 3668, 3497, 3268, 2978, 2630, 2229, 1786, 1318, 856, 439, 126, 0]⟩,
  ⟨4, 2, 16, 256, [1875, 2006, 2142, 2282, 2425, 2569, 2714, 2858, 2999, 3135, 3264, 3383, 3489, 3578,
    3646, 3691, 3706, 3689, 3635, 3539, 3398, 3209, 2970, 2681, 2345, 1969, 1562, 1143, 734, 373, 107, 0]⟩,
  ⟨4, 2, 16, 240, [2063, 2190, 2319, 2449, 2581, 2712, 2841, 2967, 3087, 3201, 3305, 3397, 3474, 3533,
    3571, 3584, 3570, 3524, 3443, 3324, 3165, 2964, 2720, 2436, 2113, 1759, 1384, 1004, 640, 322, 91, 0]⟩]

/-- Responses 48 to 55 (R540). -/
def rom48 : List Response := [
  ⟨5, 2, 3, 64, [-1497, -5994, -18027, -21960, 47880, 0]⟩,
  ⟨5, 2, 4, 80, [-4840, -8605, -13535, -16841, -10130, 18843, 39962, 0]⟩,
  ⟨5, 2, 5, 96, [-4976, -6980, -9133, -10692, -10112, -4888, 7525, 24879, 23612, 0]⟩,
  ⟨5, 2, 6, 112, [-5468, -6893, -8306, -9377, -9535, -7923, -3453, 4794, 16366, 26379, 18497, 0]⟩,
  ⟨5, 2, 7, 128, [-5106, -6069, -6989, -7709, -7990, -7492, -5780, -2374, 3091, 10495, 18451, 22764, 13540,
    0]⟩,
  ⟨5, 2, 8, 144, [-4526, -5187, -5806, -6303, -6566, -6440, -5732, -4216, -1667, 2078, 6979, 12546, 17398,
    18504, 9916, 0]⟩,
  ⟨5, 2, 9, 160, [-4084, -4567, -5014, -5382, -5608, -5613, -5299, -4549, -3238, -1246, 1506, 5005, 9040,
    13051, 15872, 15332, 7643, 0]⟩,
  ⟨5, 2, 10, 176, [-3798, -4173, -4519, -4809, -5004, -5060, -4919, -4515, -3776, -2624, -990, 1169, 3848,
    6942, 10185, 13043, 14562, 13143, 6214, 0]⟩]

/-- Responses 56 to 63 (R540). -/
def rom56 : List Response := [
  ⟨5, 2, 11, 192, [-3480, -3774, -4045, -4275, -4440, -4513, -4460, -4241, -3811, -3124, -2131, -793, 919,
    2999, 5393, 7964, 10444, 12373, 12999, 11152, 5062, 0]⟩,
  ⟨5, 2, 12, 208, [-3168, -3401, -3616, -3801, -3940, -4016, -4007, -3889, -3634, -3212, -2592, -1743,
    -641, 732, 2372, 4250, 6288, 8346, 10180, 11408, 11449, 9444, 4151, 0]⟩,
  ⟨5, 2, 13, 224, [-2972, -3165, -3344, -3498, -3619, -3694, -3708, -3645, -3487, -3213, -2803, -2233,
    -1485, -541, 610, 1966, 3508, 5191, 6931, 8589, 9950, 10693, 10354, 8276, 3544, 0]⟩,
  ⟨5, 2, 14, 240, [-2778, -2940, -3090, -3221, -3326, -3397, -3423, -3393, -3295, -3115, -2838, -2448,
    -1931, -1272, -459, 513, 1645, 2925, 4324, 5790, 7241, 8547, 9523, 9903, 9316, 7257, 3042, 0]⟩,
  ⟨5, 2, 15, 256, [-2588, -2725, -2851, -2962, -3054, -3119, -3151, -3141, -3082, -2963, -2773, -2503,
    -2139, -1673, -1093, -392, 435, 1387, 2457, 3626, 4862, 6112, 7297, 8304, 8973, 9085, 8346, 6364, 2619,
    0]⟩,
  ⟨5, 2, 16, 272, [-2430, -2547, -2655, -2752, -2832, -2892, -2926, -2929, -2894, -2815, -2683, -2490,
    -2229, -1891, -1468, -953, -340, 374, 1189, 2099, 3093, 4148, 5230, 6289, 7251, 8017, 8450, 8369, 7537,
    5643, 2287, 0]⟩,
  ⟨5, 2, 16, 256, [-2551, -2638, -2711, -2767, -2803, -2814, -2795, -2740, -2645, -2502, -2306, -2050,
    -1728, -1333, -861, -306, 334, 1058, 1862, 2739, 3672, 4638, 5602, 6514, 7308, 7893, 8149, 7923, 7015,
    5171, 2068, 0]⟩,
  ⟨5, 2, 16, 240, [-2596, -2649, -2685, -2701, -2692, -2656, -2587, -2481, -2332, -2136, -1888, -1582,
    -1214, -780, -276, 300, 946, 1662, 2439, 3268, 4131, 5004, 5852, 6629, 7274, 7704, 7818, 7482, 6528,
    4747, 1876, 0]⟩]

/-- The response ROM. -/
def rom : List Response :=
  rom0 ++ rom8 ++ rom16 ++ rom24 ++ rom32 ++ rom40 ++ rom48 ++ rom56

/-- Response `i` of the ROM. -/
def romAt (i : Nat) : Response := rom.getD i ⟨0, 1, 0, 0, [65536]⟩

/-- FLT_ROM_DESC of response `i` (R160). -/
def romDesc (i : Nat) : Nat :=
  let r := romAt i
  r.family * 2 ^ 29 + r.coef.length * 2 ^ 23 + r.d2 * 2 ^ 21 + r.settle * 2 ^ 16 + r.delay16

/-- FLT_ROM_COEF of tap `t` of response `i`, sign-extended to 32 bits; 0 beyond the taps (R159). -/
def romCoef (i t : Nat) : Nat := (((romAt i).coef.getD t 0) % 2 ^ 32).toNat

/-- The response of indices the compensator accepts for CIC order `n` (R137, R138). -/
def compOrder (i : Nat) : Nat := 3 + (i - 17) / 4

end Sys2Proof.Machine
end

