-- ==== Sys2Proof/Machine/Reset.lean ====
section
/-! DEFINITION. Where a bus address lies (R22, R23) and what a register reads right after a chip reset. -/

namespace Sys2Proof.Machine

/-- A register found at a bus address: its name, its two indices and whether the address is its high half. In the
region space `i` is the region or the block 4 r + b, and `k` the cell. -/
structure Loc where
  name : RegName
  i : Nat
  k : Nat
  high : Bool
  deriving DecidableEq, Repr

/-- Whether offset `off` of a window lies on a register, and on which element of it. -/
def descHit (d : RegDesc) (off : Nat) : Option (Nat × Nat × Bool) :=
  if off < d.base then none
  else
    let o := off - d.base
    let i := if d.count1 ≤ 1 then 0 else o / d.stride1
    let o1 := if d.count1 ≤ 1 then o else o % d.stride1
    let k := if d.count2 ≤ 1 then 0 else o1 / d.stride2
    let o2 := if d.count2 ≤ 1 then o1 else o1 % d.stride2
    if i < d.count1 ∧ k < d.count2 then
      if o2 = 0 then some (i, k, false)
      else if d.wide ∧ o2 = 4 then some (i, k, true)
      else none
    else none

/-- The register of a list that offset `off` lies on. -/
def findReg : List RegName → Nat → Option (RegName × Nat × Nat × Bool)
  | [], _ => none
  | n :: t, off =>
    match descHit (regDesc n) off with
    | some (i, k, hi) => some (n, i, k, hi)
    | none => findReg t off

/-- The register at a byte address, if the address is implemented as a register (R22, R23). Bits 1:0 are ignored. -/
def locate (addr : Nat) : Option Loc :=
  let a := addr - addr % 4
  if a < 0x100000 then
    (findReg (chipPage (a / 0x10000)) a).map fun (n, i, k, hi) => ⟨n, i, k, hi⟩
  else if 0x01000000 ≤ a ∧ a < 0x01600000 then
    let r := (a - 0x01000000) / 0x100000
    let o := a % 0x100000
    if o < 0x10000 then
      (findReg rgnPage o).map fun (n, _, _, hi) => ⟨n, r, 0, hi⟩
    else if o < 0x50000 then
      let j := 4 * r + (o / 0x10000 - 1)
      let p := o % 0x10000
      if p < 0x1000 then
        (findReg blkPage p).map fun (n, _, _, hi) => ⟨n, j, 0, hi⟩
      else if p < 0x9800 then
        let c := (p - 0x1000) / 0x800
        let w := (p - 0x1000) % 0x800
        -- the spare has no channel registers: offsets 0x300 to 0x4FF (R153, R200, R230)
        if c = 16 ∧ 0x300 ≤ w ∧ w < 0x500 then none
        else (findReg cellPage w).map fun (n, _, _, hi) => ⟨n, j, c, hi⟩
      else none
    else none
  else none

/-- Reset values that differ from one element of a table row to the next: the ROM (R159), the spare uplink's
SPARE bit (R326), the spare cell's SERVING bit (R92), FEAT_ACCEPT (R430), key slot 0 (R415) and the reserved bit
CD_EN of a TDC that is not timing-grade (R253). -/
def resetSpecial (l : Loc) : Option Nat :=
  match l.name with
  | .FLT_ROM_DESC => some (romDesc l.i)
  | .FLT_ROM_COEF => some (romCoef l.i l.k)
  | .UL_STATUS => some (if l.i = 11 then 0x81 else 1)
  | .CELL_STATUS => some (if l.k = 16 then 0 else 2)
  | .TDC_CFG => some (if l.k = 0 then 3 else 1)
  | .FEAT_ACCEPT => some (if l.high then 0 else 1)
  | .SES_SLOT => some (if l.i = 0 then 0x8000003F else 0)
  | _ => none

/-- The value of the register at a key right after a chip reset, fuses left aside; the key of a banked register
carries its path above bit 32, which SES_STATUS.PATH reads (R413). -/
def resetValue (key : Nat) : Nat :=
  match locate (key % 2 ^ 32) with
  | none => 0
  | some l =>
    if l.name = .SES_STATUS then key / 2 ^ 32 * 4
    else match resetSpecial l with
    | some v => v
    | none =>
      let d := regDesc l.name
      if d.wide ∧ l.high then 0 else d.reset

end Sys2Proof.Machine
end

