-- ==== Sys2Proof/Machine/State.lean ====
section
/-! DEFINITION. The state of the hub as plain data: its registers, and for every part the state the spec gives it
beyond its registers. `Hub` is the hardware; `State` adds the queue of commands that wait. -/

namespace Sys2Proof.Machine

/-! ## Time base (02) -/

/-- The time base beyond its registers (R28, R34 to R42, R49, R55). `frame` and `slot` name the sample period in
progress; `tick` counts sample periods since reset and `usec` counts microseconds since reset. -/
structure Clk where
  frame : Nat := 0
  slot : Nat := 0
  tick : Nat := 0
  usec : Nat := 0
  badRunA : Nat := 0          -- bad frames in a row on downlink A (R28)
  badRunB : Nat := 0
  offsetBad : Bool := false   -- measured A to B offset outside ±3/8 BX (R30)
  ocxoWarm : Bool := false    -- level of the ocxo_warm input (R33)
  ocxoHz : Option Nat := none -- frequency of ocxo_clk last measured, in Hz (R33)
  refKhz : Nat := 25000       -- REF_KHZ taken up by the last re-lock (R34)
  localKhz : Nat := 0         -- LOCAL_KHZ taken up on entry to local mode (R35)
  everGood : Bool := false    -- a downlink has been good since reset (R35)
  firstLock : Bool := false   -- the MACHINE PLL has locked since reset (R146)
  qualified : Bool := false   -- the 10 s condition of R36 holds
  relocking : Bool := false   -- a planned re-lock is in progress (R34)
  slewing : Bool := false     -- slewing back to a downlink (R38)
  stepPending : Bool := false -- a phase step waits for the next BX boundary (R38)
  slipMark : Bool := false    -- every sample carries Q until the next BX_SET (R35, R38, R39)
  refReturned : Bool := false -- the oscillator came back after free-run (R39)
  freeRun : Bool := false     -- no downlink and no oscillator (R39)
  pol : Nat := 0              -- DL_SEL taken up (R32)
  hz : Nat := 0               -- BXC frequency last measured, local or held, in Hz (R58)
  armedBx : Nat := 0          -- the BX an alignment is armed for (R49)
  orgUsec : Nat := 0          -- microseconds since the last ORG_CTRL write (R58)
  phaseTo : Nat := 0          -- samples below this tick carry Q for a phase change (R38, R51)
  labels : List Nat := []     -- labels of the last sixteen samples as they were taken, newest first (R47)
  deriving DecidableEq, Repr

/-! ## Units (07) -/

/-- A unit waiting for, or on its way through, the chip arbiter (R218): its stream and source, its words, how many
of its bytes have been sent, and the event slot it belongs to. -/
structure TxUnit where
  stream : Nat
  source : Nat
  words : List Nat
  sent : Nat := 0            -- bytes already handed to a lane
  ended : Bool := false      -- its end has been handed to a lane (R349)
  slot : Option Nat := none
  age : Nat := 0             -- tick from which the arbiter counts its age (R218)
  lane : Option Nat := none  -- the lane it has started on
  buf : Nat := 0             -- words it holds in a fragment buffer
  deriving DecidableEq, Repr

/-! ## Cells, channels and blocks (03, 04, 05) -/

/-- One conversion of a cell with the settings it was made under (R72, R78): `causes` holds, as bits of CELL_Q_CAUSE,
what arises in the cell and marks the sample (R75), `moving` that the spare makes a move (R101). -/
structure Conv where
  hg : Nat
  lg : Nat
  ctrl : Nat
  ratio : Nat
  moving : Bool
  causes : Nat
  deriving DecidableEq, Repr

/-- A cell or spare beyond its registers. Cell id = 17 j + c. `ctrl`, `disc` and `ratio` are the settings in
effect (R70, R76, R77, R79, R81, R82). -/
structure Cell where
  hg : Nat := 8192
  lg : Nat := 8192
  conv : List Conv := []       -- newest first
  ctrl : Nat := 0x201403
  disc : Nat := 0x106C0
  ratio : Nat := 0x100000
  trimHg : Nat := 0
  trimLg : Nat := 0
  armed : Bool := true
  blankTick : Option Nat := none -- the sample period in which the discriminator is blanked (R82)
  hits : Nat := 0              -- hits counted in the current 1 ms window (R84)
  rateRun : Nat := 0           -- windows in a row outside the limits
  redundWin : Nat := 0         -- redundancy errors in the current window
  enableTo : Nat := 0          -- power-up of R77 complete from this tick on
  deriving DecidableEq, Repr

/-- One sample of a channel as it is taken: its source and the causes of Q that arise after the cell at that instant
(R75). -/
structure PipeWord where
  spare : Bool
  causes : Nat
  deriving DecidableEq, Repr

/-- One word in the delay line of a channel (R131): codes, combined amplitude × 4, G and Q. -/
structure LineWord where
  g : Bool
  q : Bool
  h : Nat
  l : Nat
  a4 : Nat
  deriving DecidableEq, Repr

/-- A counted mark: cause bit of CELL_Q_CAUSE and the first tick no longer marked. -/
structure Mark where
  cause : Nat
  from_ : Nat
  upto : Nat
  deriving DecidableEq, Repr

/-- A cross-fade in progress (R147): old and new response, outputs done, length. -/
structure Fade where
  old : Nat
  new : Nat
  done : Nat
  len : Nat
  deriving DecidableEq, Repr

/-- A channel (0 to 383) beyond its registers. -/
structure Chan where
  spare : Bool := false                -- the spare serves the channel
  bound : Option Nat := none           -- tick of the boundary sample of the last handover (R107, R108)
  pipe : List PipeWord := []           -- newest first
  marks : List Mark := []              -- counted marks of the channel, by sample
  line : List LineWord := []           -- delay line, newest first, at most 72 words
  dly : List (Nat × Nat) := []         -- (first sample, delay in 1/16 sample), newest first
  peds : List (Nat × Int) := []        -- (first sample, CELL_FLT_PED), newest first (R155)
  est : List (Int × Bool) := []        -- estimator input history, newest first
  estFade : Option Fade := none
  estDue : Option Nat := none          -- label from which an applied NEXT is taken up (R149)
  ests : List (Nat × Nat) := []        -- (label BX, estimate word), newest first (R140, R175)
  recFade : Option Fade := none
  recDue : Option Nat := none
  integ : List Nat := [0, 0, 0, 0, 0]  -- CIC integrators, modulo 2^80 (R141)
  comb : List Nat := [0, 0, 0, 0, 0]
  cicN : Nat := 0                      -- samples since the last CIC output
  cicQ : Bool := false                 -- a sample since the last CIC output carried Q
  outN : Nat := 0                      -- CIC outputs since the last restart (R142)
  comp : List (Int × Bool) := []       -- compensator history, newest first
  recNew : Bool := false               -- a record value was produced in this sample period
  recLast : Nat := 0                   -- last record value with its flags (R158)
  deriving DecidableEq, Repr

/-- A dwell of the spare (R103): the cell, the samples still to take, DWELL and MISS_LIMIT at its start. -/
structure Dwell where
  cell : Nat
  left : Nat
  len : Nat
  limit : Nat
  compared : Nat := 0
  beyond : Nat := 0
  diff : Int := 0
  last : Option (Bool × Int) := none  -- the comparison of the sample taken last: over, and its difference
  deriving DecidableEq, Repr

/-- A waiting request for the spare (R113): cell, use as HNG_MOVE codes it, and the tick it was raised. -/
structure UseReq where
  cell : Nat
  use : Nat
  age : Nat
  deriving DecidableEq, Repr

/-- An accepted commit that has not taken effect yet (R110). -/
structure Commit where
  back : Bool
  cell : Nat
  internal : Bool
  deriving DecidableEq, Repr

/-- A ring read that waits for the block arbiter (R166, R216): the tick in which it was raised, the cell, and for a
diagnostic read its master, access and position there and the ring position it asks for; a calibration read has none. -/
structure ArbRead where
  age : Nat
  cell : Nat
  diag : Option (Nat × Nat × Nat × Nat) := none
  deriving DecidableEq, Repr

/-- A block (0 to 23) beyond its registers (04). -/
structure Blk where
  step : Nat := 0                     -- samples spent in DISCHARGE or SETTLING (R100)
  moveTo : Nat := 0                   -- input the move goes to
  useCell : Nat := 0                  -- cell the current use names
  serving : Option Nat := none        -- channel the spare serves
  dwell : Option Dwell := none
  directed : Bool := false            -- the spare shadows a cell that a SHADOW request named (R112)
  rotAt : Nat := 15                   -- cell last visited by the rotation
  matched : Nat := 0                  -- bit c: the most recent dwell on cell c matched
  visits : List Nat := []             -- cells in the order of their most recent dwells, newest first
  diag : Option (Nat × Nat) := none   -- cell under diagnosis and its stage, 1 or 2 (R105)
  waiting : List UseReq := []
  commit : Option Commit := none
  reads : List ArbRead := []          -- ring reads that wait for the block arbiter, oldest first (R216)
  arbPtr : Nat := 0                   -- rotating pointer of the block arbiter (R13, R216)
  resetTo : Nat := 0                  -- BLK_CTRL.RESET reads 1 before this tick (R6, R505)
  ending : Option Nat := none         -- tick from which a use runs to its safe point (R113)
  ptr : Nat := 0                      -- rotating pointer over the waiting requests (R13)
  scrub : Nat := 0                    -- next group of the ring scrub, ring × 512 + group (R165)
  snapLabel : Nat := 0                -- label whose group ends the run-out (R188)
  snapTime : Nat := 0                 -- trigger time of the freeze trigger
  snapFrom : Nat := 0                 -- first tick of the BX in which the freeze trigger is decided (R188)
  resume : Bool := false              -- writing resumes at the next group boundary (R189)
  deriving DecidableEq, Repr

/-! ## Lanes and Lomhan (11, 12) -/

/-- The checker of a loopback (R323): the last 31 bits of the sequence, how many of the last data bytes it knows (at
most 4), the correct symbols in a row (at most 64), LOOP_SYNC, and whether it counts. -/
structure Checker where
  gen : Nat := 0
  seen : Nat := 0
  run : Nat := 0
  sync : Bool := false
  on : Bool := false
  deriving DecidableEq, Repr

/-- A lane beyond its registers: uplinks are 0 to 11, the downlinks 12 and 13, spoke s is 14 + s. `cfg` is the CFG
register as the training in progress or the last one took it up (R309, R310), `drive` as the last frame boundary
took it up (R308). `tx` and `rx` are the running disparities, true for positive; the receiver has none before its
first K28.5 (R306). `line` holds the groups sent last, `gen` the last 31 bits of the pattern generator, and `lead`
the frames before a spoke's far-end pattern starts (R364). -/
structure Lane where
  signal : Bool := false       -- signal detect of a receive lane (R313)
  cfg : Nat := 0
  drive : Nat := 0
  tx : Bool := false
  rx : Option Bool := none
  line : List Nat := []
  gen : Nat := 0
  lead : Nat := 0
  check : Checker := {}
  silent : Bool := false       -- no frames come from the partner of a far-end loopback (R324)
  deriving DecidableEq, Repr

/-- A replay that is running on a lane (R318, R349): the lane whose frames are sent again, the lane frame number of
the next, the frames still to send, oldest first, whether the next slot belongs to live frames, and whether it
answers a RESEND, whose frames the lane still counts as its own (R347). -/
structure Replay where
  lane : Nat
  first : Nat
  frames : List (List Nat)
  live : Bool := false
  resend : Bool := false
  deriving DecidableEq, Repr

/-- Frames that a lane owes the host (R317 to R320): those of `lane` still held, from number `first` on, and how many
before them are no longer held. -/
structure OwedRun where
  lane : Nat
  first : Nat
  frames : List (List Nat)
  lost : Nat := 0
  deriving DecidableEq, Repr

/-- An uplink beyond its registers (R316 to R321, R347 to R349): the places of the lane map it stands in, the number
of the next frame, the retransmit buffer (80 bytes a frame, newest first, at most 2,048), SEQ by 16 STREAM + SOURCE,
lane-service units waiting, the replay running, the frames owed to the host that it is to replay next or once it is
UP again, the pointer of its chip arbiter, and the frame sent last. `moving` marks the lane of a planned move, `off`
that it powers down, `lost` an active lane that was lost and that the spare is to stand in for (R318). -/
structure Uplink where
  places : List Nat
  next : Nat := 0
  frames : List (List Nat) := []
  seqs : SMap Nat := []
  service : List (List Nat) := []
  replay : Option Replay := none
  owed : List OwedRun := []
  ptr : Nat := 0
  last : List Nat := []
  moving : Bool := false
  off : Bool := false
  lost : Bool := false
  deriving DecidableEq, Repr

/-- An item in assembly (R338, R359): its bytes so far; none: the stream is ignored up to the next K28.2. -/
abbrev Assembly := Option (List Nat)

/-- A control request whose reply has not been sent off yet (R343): the reply's header fields MODE and TAG, the
results of its registers in order, none while a leaf has not answered, whether it reads, STALE and REPLAYED. -/
structure DlReply where
  mode : Nat
  tag : Nat
  results : List (Option (Nat × Bool)) := []
  isRead : Bool := false
  stale : Bool := false
  replayed : Bool := false
  access : Nat := 0            -- number of the access its leaf requests belong to
  refused : Option Nat := none -- status bit of a refused request: 28 DENIED, 27 MALFORMED
  deriving DecidableEq, Repr

/-- The downlink control stream beyond the registers: the item in assembly, the time of the comma of the ECHO frame it
began in (R348), the item in assembly on each downlink in IDENT (R315), and the replies in order of their requests. -/
structure Lom where
  item : Assembly := none
  echo : Option Nat := none
  ident : SMap Assembly := []
  replies : List DlReply := []
  deriving DecidableEq, Repr

/-! ## Spokes and leaves (13) -/

/-- Who waits for a leaf request: the control channel, the serial port, a keeper, or a broadcast. -/
inductive LeafFor where
  | downlink | port | keeper | bcast
  deriving DecidableEq, Repr

/-- A request to a leaf (R361, R370): who waits, the position in that access of its first register, the TAG once it
has been sent, OP, COUNT, REG, word 2, data, and the access it belongs to. -/
structure LeafReq where
  who : LeafFor
  pos : Nat
  tag : Nat := 0
  op : Nat
  count : Nat
  reg : Nat
  sel : Nat
  data : List Nat
  modify : Option (Nat × Nat) := none -- MASK and VALUE of a MODIFY whose read this is (R541)
  access : Nat
  deriving DecidableEq, Repr

/-- A hub record in a hold store (R376, R377): TS, its words, and whether a fragment has taken a copy. -/
structure HubRec where
  ts : Nat
  words : List Nat
  copied : Bool := false
  deriving DecidableEq, Repr

/-- A spoke and its leaf beyond the registers (13). `fs` is F_s of R358; `up` the number of the last upstream frame;
`down` the control symbols waiting for downstream frames, a K character as 256 + its byte. -/
structure Leaf where
  fs : Nat := 0
  syncDue : Bool := false
  resetDue : Bool := false
  echoDue : Bool := false      -- the next downstream frame carries K28.6 (R363)
  echoFrame : Option Nat := none -- downstream frame number the outstanding K28.6 left in
  exits : Nat := 0             -- frames with K28.7 still to send (R364)
  down : List Nat := []
  forward : List (Nat × Nat) := [] -- (frame count, fast-command bits) to forward (R379)
  lastDown : List Nat := []    -- downstream frame sent last
  up : Option Nat := none
  item : Assembly := none
  record : Assembly := none
  recordAt : Nat := 0
  slipped : Bool := false      -- the last upstream frame slipped (R358)
  tag : Nat := 0               -- TAG of the next request
  out : List LeafReq := []     -- outstanding, oldest first, at most 4 (R370)
  measured : Bool := false     -- a round trip measured since UP (R367)
  adj : Nat := 0               -- LEAF_TS_ADJ in effect
  hold : List HubRec := []     -- in order of arrival
  lost : Bool := false         -- the next stream-4 record carries LOST
  faults : Nat := 0            -- in the current 1 ms window (R380)
  passedTo : Option Nat := none -- BX that the stream has passed (R378)
  gone : Bool := false         -- the leaf has stopped being present since `passedTo` began
  deriving DecidableEq, Repr

/-! ## The serial port (16) -/

/-- The transaction of the serial port whose header has completed (R435, R436): the results of its registers, none
while a leaf, a line fetch or a keeper has not answered, and the flags of its status word. -/
structure PortTxn where
  isRead : Bool
  results : List (Option (Nat × Bool)) := []
  stale : Bool := false
  denied : Bool := false
  access : Nat := 0
  prevCut : Bool := false      -- the transaction before it was cut, or had overclock edges
  prevOver : Bool := false
  ended : Option Bool := none  -- it has ended; true: a unit of its body was not ready (R438)
  deriving DecidableEq, Repr

/-- The serial port beyond its registers: PREV_CUT and PREV_OVERCLOCK of the next status word, overclock edges seen
in the transaction in progress, and the transfer unit it uses (R441, R442). -/
structure Port where
  txn : Option PortTxn := none
  prevCut : Bool := false
  prevOver : Bool := false
  overclock : Bool := false
  deaf : Bool := false         -- the transaction in progress addresses another hub (R433)
  unit : Nat := 32
  deriving DecidableEq, Repr

/-- What one register of a request asks for: a read, a write, or a MODIFY with MASK and VALUE (R342, R541). -/
inductive BusOp where
  | read
  | write (v : Nat)
  | modify (mask v : Nat)
  deriving DecidableEq, Repr

/-- One register of a request of a master that has not been carried out: the access it belongs to and its position
there, its address, and whether the address repeats (R434, R471). -/
structure BusItem where
  access : Nat
  pos : Nat
  addr : Nat
  op : BusOp
  fix : Bool
  deriving DecidableEq, Repr

/-- What a master remembers between accesses (R447, R448): its read shadow (address and value), the flag words
latched with it, the held +0 of a 64-bit write, and the registers of its requests that wait. -/
structure Master where
  shadow : Option (Nat × Nat) := none
  flags : Option (Nat × Nat) := none
  latch : Option (Nat × Nat) := none
  todo : List BusItem := []     -- registers behind a keeper command, oldest first (R471)
  deriving DecidableEq, Repr

/-! ## Queues (18) and alarms (01) -/

/-- What an item in a queue stands for beyond its words (R18, R484): nothing; a record of an alarm source; a unit for
requester k of the chip arbiter; the registers of a port transaction; results for its reply; a journal entry, which may
follow a missing one; a request to the leaf of spoke s. -/
inductive QItem where
  | plain
  | record (source : Nat)
  | unit (k : Nat) (u : TxUnit)
  | access (addr : Nat) (fix : Bool) (ops : List BusOp)
  | results (access pos : Nat) (rs : List (Nat × Bool))
  | journal (gap : Bool)
  | leaf (s : Nat) (r : LeafReq)
  deriving DecidableEq, Repr

/-- One stage of a queue: DATA and MARK of R485, and the item the word is of; CHECK is a function of DATA and MARK. -/
structure QWord where
  data : Nat
  mark : Bool
  item : QItem := .plain
  deriving DecidableEq, Repr

/-- One of the eight queues (R484 to R491) beyond its registers. -/
structure Queue where
  words : List QWord := []   -- oldest first, at most 32
  midPop : Bool := false     -- the consumer has popped part of an item
  cut : Bool := false        -- the next pop carries the cut indication (R490, R491)
  skip : Bool := false       -- discarding up to the next good MARK = 1 word (R490)
  drop : Bool := false       -- the producer drops the rest of a refused item (R484)
  held : List QWord := []    -- words the producers inside the hub hold, in order: refused, or behind an open item (R488)
  part : Bool := false       -- the open item is the one whose rest `held` begins with
  last : Option QWord := none -- the word last delivered to the consumer
  got : List Nat := []       -- the words of its item that the consumer has, that one included
  lastCut : Bool := false    -- that word came with the cut indication
  deriving DecidableEq, Repr

/-! ## Rings, hit stores, triggers and events (06, 07) -/

/-- A word of a ring with its label, and the combined amplitude × 4 of the same sample (R162, R204). -/
structure RingWord where
  label : Nat
  word : Nat
  a4 : Nat
  deriving DecidableEq, Repr

/-- One ring (R162, R163): places 0 to 2,047 by label, the write buffer of the group in progress, the labels committed
since the ring last started, as runs of a first label and a number of labels, newest run first, and the newest
committed label. -/
structure Ring where
  words : SMap (Option RingWord) := []
  buf : List RingWord := []
  runs : List (Nat × Nat) := []
  newest : Option Nat := none
  deriving DecidableEq, Repr

/-- A hit: time word with the channel delay added, PILE and COLD. -/
structure Hit where
  tw : Nat
  pile : Bool
  cold : Bool
  deriving DecidableEq, Repr

/-- The hit store of a channel (R167): newest first, at most 256, and the newest hit discarded. -/
structure HitStore where
  hits : List Hit := []
  gone : Option Nat := none
  deriving DecidableEq, Repr

/-- What extraction delivered for one channel of one event (R187): window samples in label order, with none for a
gap, the three cause bits LATE, ECC, UNWRITTEN, the hits in range and HIT_LOST. -/
structure ChanEvt where
  samples : List (Option (Nat × Nat)) := []
  late : Bool := false
  ecc : Bool := false
  unwritten : Bool := false
  hits : List Hit := []
  hitLost : Bool := false
  deriving DecidableEq, Repr

/-- Where a unit of an event stands (R221, R224). -/
inductive UnitState where
  | none | wait | built | started | sent
  deriving DecidableEq, Repr

/-- An allocated event slot with the settings that govern its event (R184, R201). `forms` holds CELL_FORM, CELL_ZS
and PED of every channel; `out`, `drop` and `frozen` are bit masks over regions and blocks. -/
structure Slot where
  evt : Nat
  time : Nat
  cause : Nat
  pre : Nat
  post : Nat
  born : Nat                           -- microsecond of the allocation
  age : Nat                            -- tick of the accept
  forms : List (Nat × Nat × Int)
  formCfg : Nat
  leafIncl : Nat
  leafWin : Nat
  out : Nat
  drop : Nat
  frozen : Nat
  failed : Nat := 0                    -- blocks failed when their part was extracted (R201)
  dtsum : List Nat
  extracted : Nat := 0                 -- bit j: block j has been extracted
  data : SMap ChanEvt := []
  rgn : List UnitState                 -- six region fragments
  leaf : List UnitState                -- sixteen leaf fragments
  leafOut : Nat := 0                   -- spokes whose leaf was absent at the allocation cycle (R215)
  leafTaken : Bool := false            -- the records in the hold stores at the allocation have been copied
  leafBody : SMap (List Nat) := []     -- words of the leaf records copied so far, by spoke (R377)
  closed : Bool := false
  deriving DecidableEq, Repr

/-- A trigger decided in this BX (R180, R181): trigger time, CAUSE, and its place in the order of R184. -/
structure PendTrig where
  time : Nat
  cause : Nat
  rank : Nat
  due : Nat                            -- first tick of the BX in which it is decided
  deriving DecidableEq, Repr

/-- Trigger state beyond the registers. `term` holds, for each of the 32 terms, the unit masks of the last 16 label
BX, newest first: for channel terms 1 when true, for sum terms the units that met THR. -/
structure Trig where
  slots : SMap (Option Slot) := []
  pend : List PendTrig := []
  term : List (List Nat) := []
  met : List (List Bool) := []         -- per condition, newest first, at most 256
  decided : Option Nat := none         -- label BX last decided
  tbHigh : List Nat := []              -- frame counts in which the bus was sampled high
  bus : List (Nat × Nat) := []         -- bus samples to decide: first tick of the deciding BX, frame count sampled
  sum : Option (List Nat) := none      -- trigger-sum record that waits for the allocations of its BX (R179)
  drive : List (Nat × Nat) := []       -- (frame count, condition) the bus is to be driven in
  tbOut : Bool := false                -- level the hub drives on the trigger bus
  sumGap : Bool := false               -- a trigger-sum record was not sent before the next one (R179)
  accept : Bool := false               -- an ACCEPT freezes or captures in this BX
  extractAt : List Nat := []           -- event numbers extracted so far, newest first
  deriving DecidableEq, Repr

/-- The continuous record beyond its registers (R146, R150, R152). -/
structure Crec where
  order : Nat := 4
  log2d : Nat := 8
  restarted : Bool := true             -- the next block is the first after a restart
  resumed : Bool := false              -- the next block sent carries RESUMED
  gap : Bool := false                  -- the next block sent carries LOST
  -- restarts due: the delayed label (none: the next BX), and 0 REC_SYNC, 1 RESTART, 2 an apply, 3 the first PLL lock
  sched : List (Option Nat × Nat) := []
  deriving DecidableEq, Repr

/-- A diagnostic read of a fragment buffer that waits for the region arbiter (R25, R217): the tick in which it was
raised, its master, access and position there, and its address. -/
structure BufRead where
  age : Nat
  master : Nat
  access : Nat
  pos : Nat
  addr : Nat
  deriving DecidableEq, Repr

/-- A region beyond its registers (R217, R223, R225). -/
structure Rgn where
  resetPending : Bool := false
  out : Bool := false                  -- RGN_CTRL.OUT in effect since the BX began (R225)
  reads : List BufRead := []           -- diagnostic reads of the fragment buffer that wait, oldest first (R217)
  ptr : Nat := 0                       -- rotating pointer of the region arbiter (R13, R217)
  deriving DecidableEq, Repr
/-! ## Time measurement (08) -/

/-- A TDC beyond its registers: `en` and `skew` in effect (R238, R253), the sample period from which it is enabled,
the edge time of the last measured hit and the event-clock period of the last recorded hit, both counted from reset
(R235, R236), and the density counters of the table being filled (R239). Cells are 0 to 407, tin_i is 408 + i. -/
structure Tdc where
  en : Bool := true
  enFrom : Option Nat := none
  skew : Nat := 0
  edge : Option Int := none
  period : Option Nat := none
  measured : Option Nat := none     -- event-clock period of the last measured hit (R239)
  bins : SMap Nat := []
  fill : Nat := 0
  deriving DecidableEq, Repr

/-- A time input (R242): the edge in effect and the queue, oldest first. -/
structure Tin where
  fall : Bool := false
  fifo : List Hit := []
  deriving DecidableEq, Repr

/-- An interval engine (R243): IVL_CFG as armed, the sample period it is armed from, and its first edge: whether it
is the stop, its time value and COLD. -/
structure Ivl where
  cfg : Nat := 0
  armFrom : Nat := 0
  first : Option (Bool × Nat × Bool) := none
  deriving DecidableEq, Repr

/-- The round-trip engine (R246 to R248): single measurements since each average restarted, newest first, and the
measurement outstanding, spoke s as s + 1 and the downlink as 0. -/
structure Rtt where
  dl : List Nat := []
  spk : SMap (List Nat) := []
  out : Option Nat := none
  dlTurn : Bool := true        -- the next measurement is the downlink's
  spkNext : Nat := 0           -- spoke from which the next spoke turn searches
  echo : Nat := 0              -- number of the last echo request
  deriving DecidableEq, Repr

/-! ## Monitor (09) -/

/-- A running operation of a monitor converter (R263): source as SRC of R273 codes it, channel, the comparator of a
capture, the channel settings and change count it started under, the CAL_MON_CORR word it is corrected by, the
event-clock cycles in which its channel is connected and its conversion step begins, the label and BX_VALID of the
sample period in which that step began, and OPEN seen so far. -/
structure MonOp where
  src : Nat
  ch : Nat
  win : Nat := 0
  cfg : Nat
  chg : Nat
  corr : Nat
  ready : Nat
  conv : Nat
  label : Option (Nat × Bool) := none
  isOpen : Bool
  deriving DecidableEq, Repr

/-- A conversion of a linked channel whose open window has not ended (R269): its record, if it produced one. -/
structure MonHeld where
  ch : Nat
  cfg : Nat
  conv : Nat                         -- number of the conversion in the channel's averager
  src : Nat
  rec_ : Option (Nat × Nat)
  isOpen : Bool
  deriving DecidableEq, Repr

/-- A monitor converter (R263 to R265). -/
structure MonConv where
  run : Option MonOp := none
  seq : List Nat := []               -- channels of the scan still to convert
  urg : Option Nat := none
  caps : List (Nat × Nat) := []      -- waiting captures, oldest first: comparator and channel
  connected : Option Nat := none
  again : Bool := false              -- the next sequencer operation restarts an abandoned one
  up : Nat := 0                      -- event-clock cycle in which start-up ends
  held : List MonHeld := []          -- oldest first
  deriving DecidableEq, Repr

/-- The averager of a monitor channel (R270, R271): changes written and loaded, the preload code, the CIC state of
the codes minus the preload, and when a conversion last was clipped or open. -/
structure MonAvg where
  chg : Nat := 1
  loaded : Nat := 0
  first : Bool := true               -- the next output is the first after a change
  base : Int := 0
  integ : List Int := [0, 0, 0]
  comb : List Int := [0, 0, 0]
  n : Nat := 0                       -- conversions since the last output
  hist : List Int := []              -- CIC outputs, newest first
  conv : Nat := 0                    -- conversions since reset
  clip : Option Nat := none          -- number of the last clipped conversion
  lastOpen : Option Nat := none      -- number of the last conversion with OPEN
  deriving DecidableEq, Repr

/-- The monitor beyond its registers: a scan that waits for the one running (R264), the comparators that wait for a
rearm, the excitation settings in effect and the excitations changed since, and a record lost since the last one that
entered the queue. -/
structure Mon where
  convs : SMap MonConv := []
  avgs : SMap MonAvg := []
  late : Bool := false
  tripped : Nat := 0
  excs : SMap Nat := []
  excDue : Nat := 0
  gap : Bool := false
  deriving DecidableEq, Repr

/-! ## Calibration (10) -/

/-- The trims and ratio a pass yields (R288): high-gain OFFSET and GAIN, low-gain OFFSET and GAIN, and ρ. -/
structure TrimSet where
  hgOff : Int
  hgGain : Int
  lgOff : Int
  lgGain : Int
  ratio : Int
  deriving DecidableEq, Repr

/-- A calibration in progress (R287 to R291): the cell, the trims before it, CAL_REF_UV and CAL_TOL as it started,
the set of PASS_A, a restore in APPLY, the label and temperature of CHECK, and the acceptance. -/
structure Calib where
  cell : Nat
  oldHg : Nat
  oldLg : Nat
  refUv : Nat
  tol : Nat
  passA : Option TrimSet := none
  restoring : Bool := false
  stop : Bool := false        -- SWITCH_OUT follows the restore
  label : Nat := 0
  temp : Nat := 0
  final : Bool := false       -- the verdict has been given
  host : Bool := false        -- a host request asked for it (R293)
  sweep : Bool := false       -- it is the cell's part of a sweep (R303)
  deriving DecidableEq, Repr

/-- A queued calibration (R294): cell and rank, 0 ended, 1 host request, 2 sweep, temperature or age; whether the host has
asked for it, and whether it is the cell's part of a sweep (R293, R303). -/
structure CalReq where
  cell : Nat
  rank : Nat
  host : Bool := false
  sweep : Bool := false
  deriving DecidableEq, Repr

/-- The calibration engine and queue of a block; `blocked` holds the cells not queued by temperature (R295). -/
structure CalBlk where
  run : Option Calib := none
  queue : List CalReq := []
  blocked : Nat := 0
  deriving DecidableEq, Repr

/-- A test pulse (R299): the frame count it starts in, samples, LEVEL, and the channels. -/
structure Pulse where
  bx : Nat
  width : Nat
  level : Nat
  left : Nat := 0             -- samples still to inject; 0 before it starts
  deriving DecidableEq, Repr

/-- Calibration beyond the registers: engines, the cells of a sweep not ended yet, the cells whose trims the engine has
written for the next BX boundary (R287), test pulses due and running. -/
structure Cal where
  blks : SMap CalBlk := []
  sweep : List Nat := []
  trims : List Nat := []
  due : List Pulse := []
  active : List Pulse := []
  deriving DecidableEq, Repr


/-! ## The configuration bit-stream (14) -/

/-- An apply that has been decided and acts at BX `bx` (R404, R405): its frames by address word. -/
structure CfgApply where
  bx : Nat
  frames : SMap (List Nat)
  deriving DecidableEq, Repr

/-- The loader and the copies of configuration memory beyond the registers (R398 to R408): the words taken since
BEGIN, newest first, NFRAMES, the frames of the load in progress and the loaded shadow frames, of 32 words each by
address word, the session path of the load's owner, the BX an apply is armed for and the BX an arm decided last. The
registers and `plan` (PLAN words, by block) hold the active frames, `late` the cell words of an apply whose samples are
labelled WHOLE samples after its first cycle (R47, R405); `bad` names those that are uncorrectable. -/
structure Cfg where
  words : List Nat := []
  total : Nat := 0
  work : SMap (List Nat) := []
  loaded : SMap (List Nat) := []
  path : Nat := 2
  armedBx : Nat := 0
  armDone : Option Nat := none
  due : Option CfgApply := none
  late : List (Nat × Nat × Nat × Int) := [] -- applied cell words not in effect yet: tick, register, BX, signal level
  plan : SMap Nat := []
  bad : List Nat := []
  deriving DecidableEq, Repr

/-! ## Sessions (15) -/

/-- A session bank beyond its registers (R413, R418 to R422): whether a nonce is outstanding and for which slot, the
load key of its open session, whether the path is aged, BAD_TAG results in a row, and the microsecond in which its
lockout ends. -/
structure Ses where
  nonce : Bool := false
  slot : Nat := 0
  loadKey : List Nat := []
  aged : Bool := false
  badTags : Nat := 0
  lockTo : Nat := 0
  deriving DecidableEq, Repr

/-- Programming of a key slot that is running (R416): slot, wards and the key's bytes. -/
structure KeyJob where
  slot : Nat
  wards : Nat
  key : List Nat
  deriving DecidableEq, Repr

/-! ## The flash master (16) -/

/-- A window read that waits for its line (R451, R452): when it was raised, the master, the access and position of the
register, and the flash byte offset. -/
structure FlashRead where
  age : Nat
  master : Nat
  access : Nat
  pos : Nat
  offset : Nat
  deriving DecidableEq, Repr

/-- The line buffers (R452), most recently used first: line offset and its 64 bytes; the reads that wait; the pointer of
the fetch arbiter; and the opcode of a read command (R449, R450). -/
structure Flash where
  lines : List (Nat × List Nat) := []
  waiting : List FlashRead := []
  ptr : Nat := 0
  opcode : Nat := 0x03
  deriving DecidableEq, Repr

/-! ## Keepers (17) -/

/-- A keeper command (R471): a sweep, one cell to queue, a KPR_CTRL write, an update step, an image word. -/
inductive KeeperOp where
  | sweep
  | calReq (j c : Nat)
  | ctrl (v : Nat)
  | step (v : Nat)
  | data (v : Nat)
  deriving DecidableEq, Repr

/-- A pending keeper command (R472, R473): its master, the access and position of its register, whether the active
keeper has journaled its receipt, and whether it is executed under REPLAYED. -/
structure KeeperCmd where
  master : Nat
  access : Nat
  pos : Nat
  op : KeeperOp
  receipt : Bool
  replay : Bool := false
  deriving DecidableEq, Repr

/-- One keeper beyond its registers: the image area it runs, the SRAM block it marches next, whether a checkpoint
has committed since it entered SYNCING, and the microsecond of its last mirror mismatch (R474, R476). -/
structure Keeper where
  area : Nat := 0
  block : Nat := 0
  synced : Bool := false
  mismatch : Option Nat := none
  deriving DecidableEq, Repr

/-- Keepers and hasp beyond the registers: pending commands in order, keepers whose heartbeat is absent (bit mask),
a keepalive missing while its owner runs, a takeover being completed, the last checkpoint generation started, the
one being sent, journal entries since it started, journaling stopped (R470), a planned swap, the area the boot header
names, an erase running, and the values of the last SUMMARY (R17). -/
structure Kpr where
  cmds : List KeeperCmd := []
  beatAbsent : Nat := 0
  quiet : Bool := false
  restoring : Bool := false
  gen : Nat := 0
  ckpt : Option Nat := none
  since : Nat := 0
  stopped : Bool := false
  swap : Bool := false
  header : Nat := 0
  erasing : Bool := false
  entry : Nat := 0             -- sequence number of the last journal entry (R467)
  missed : Bool := false       -- an entry has been lost in the mirror queue (R490)
  claimPtr : Nat := 0          -- the keeper whose claim wins a tie (R13, R462)
  haspMon : Bool := false      -- the level of the hasp_mon ball (R461)
  keepers : SMap Keeper := []
  summary : SMap Word := []
  deriving DecidableEq, Repr

/-! ## Power, supplies and gazebo (19) -/

/-- The six power states of R494. -/
inductive PState where
  | off | boot | standby | ready | run | gazebo
  deriving DecidableEq, Repr

/-- Power and gazebo state beyond the registers. -/
structure Pwr where
  state : PState := .boot
  goTarget : Option Nat := none   -- a GO that waits for its BX boundary (R495)
  stopAt : Option Nat := none     -- the frame count after whose last cycle RUN ends (R334)
  bootUsec : Nat := 0             -- microseconds since the start of boot step 1 (R499)
  firstReady : Bool := true       -- READY has not been entered since boot (R293, R496)
  supplyBad : Nat := 0            -- bit k: supply k is bad (R497)
  ioLost : Bool := false          -- vdd_io was bad: gazebo time restarts when it returns (R497)
  gzbStopped : Bool := false      -- the gazebo oscillator stands still (R19, R503)
  gzbPulse : Bool := false        -- an excitation pulse of R276 is on
  wake : Option Nat := none       -- WAKE_WHY of the wake source that has acted first (R503)
  wakeRuns : List Nat := [0, 0]   -- good WAKE frames in a row on each downlink (R503)
  listenTo : List Nat := [0, 0]   -- the microsecond up to which each downlink's receiver listens (R503)
  woke : Bool := false            -- this boot follows a wake (R502)
  entering : Option Nat := none   -- the microsecond of an ENTER that is being carried out (R501)
  copies : List (List Nat) := [[], []]   -- the words of the boot header copies read in this boot (R498, R499)
  cellTo : Nat := 0               -- PWR_CELL_RESET.GO reads 1 before this tick (R6, R505)
  logNext : Nat := 16             -- the next gazebo log entry that enters the ALARM queue (R502)
  deriving DecidableEq, Repr

/-! ## The test access port (20) -/

/-- The instructions of the test access port (R528). -/
inductive TapInstr where
  | bypass | extest | samplePreload | highz | clamp | extestPulse | extestTrain
  deriving DecidableEq, Repr

/-- The test access port (R528): the instruction in force and the update stage of the boundary register, one bit
for each of its 74 cells, cell 0 in bit 0. -/
structure Tap where
  instr : TapInstr := .bypass
  boundary : Nat := 0
  deriving DecidableEq, Repr

/-! ## The hub -/

/-- The whole hardware. `regs` holds every register that differs from its reset value, by byte address; `fuse`
holds fuses, OTP and straps as overrides of reset values, which survive every reset (R505). -/
structure Hub where
  regs : SMap Word := []
  fuse : SMap Nat := []
  clk : Clk := {}
  queues : SMap Queue := []
  seq6 : Nat := 0                 -- SEQ of stream 6 (R15)
  tx : SMap (List TxUnit) := []   -- units waiting for the chip arbiter, by requester of R218, oldest first
  cells : SMap Cell := []
  chans : SMap Chan := []
  blks : SMap Blk := []
  rgns : SMap Rgn := []
  rings : SMap Ring := []         -- by cell id 17 j + c
  hitStores : SMap HitStore := [] -- by channel
  trig : Trig := {}
  crec : Crec := {}
  tdcs : SMap Tdc := []           -- cells 0 to 407, tin_i at 408 + i
  tins : SMap Tin := []
  ivls : SMap Ivl := []
  lanes : SMap Lane := []
  uls : SMap Uplink := []
  ulRate : Nat := 0               -- RATE in effect (R307)
  lom : Lom := {}
  leaves : SMap Leaf := []
  access : Nat := 0               -- number of the last access of a master
  flash : Flash := {}
  kpr : Kpr := {}
  laneMap : SMap Nat := []        -- words of the active LANE_MAP frame, by lane (R395)
  cfg : Cfg := {}
  sess : SMap Ses := []           -- by path 1 to 3
  keys : SMap (List Nat) := []    -- OTP keys of the slots, 32 bytes each (R415); survive every reset
  keyJob : Option KeyJob := none
  nonces : Nat := 0               -- nonces drawn, each fresh (R418)
  port : Port := {}
  masters : SMap Master := []     -- 0 downlink, 1 serial port, 2 keeper A, 3 keeper B
  rtt : Rtt := {}
  frq : Nat × Nat × Nat := (0, 0, 0) -- SRC, P and GATE of the frequency measurement running (R259)
  mon : Mon := {}
  cal : Cal := {}
  pwr : Pwr := {}
  tap : Tap := {}
  deriving DecidableEq, Repr

/-- The machine: the hardware and the commands that wait, first in, first out. -/
structure State where
  hub : Hub
  pending : List Instr
  deriving DecidableEq, Repr

/-- What an ill-formed command does. -/
inductive Fault where
  /-- Raised by a meaning whose command is not well-formed (a frame of the wrong length): no such command can be
  sent to the hub. Safe: the model stops where no hardware behaviour exists. -/
  | illFormed
  deriving DecidableEq, Repr

/-- Why a command has no meaning. -/
inductive Refusal where
  /-- Raised by the dispatch alone, for a command that has no meaning yet. Safe. -/
  | notModelled (mnemonic : String)
  deriving DecidableEq, Repr

/-- The hardware right after a power-on reset, in BOOT (R494, R505). -/
def Hub.reset : Hub := {}

/-- The machine right after reset, with no command waiting. -/
def State.reset : State := { hub := Hub.reset, pending := [] }

end Sys2Proof.Machine
end

