-- ==== Sys2Proof/Machine/Ops.lean ====
section
/-! DEFINITION. The named operations over the state that every family shares: registers and fields, sparse tables,
labels and time words, queues (R484 to R491), alarm records (R15, R16), units for the chip arbiter. -/

namespace Sys2Proof.Machine

/-! ## Registers -/

/-- What register `key` reads right after a reset: its fuse or strap if it has one, else its reset value. -/
def resetWord (fuse : SMap Nat) (key : Nat) : Word :=
  BitVec.ofNat 32 (SMap.get resetValue fuse key)

/-- The register at `key`. -/
def Hub.rd (h : Hub) (key : Nat) : Nat := (SMap.get (resetWord h.fuse) h.regs key).toNat

/-- Sets the register at `key`. -/
def Hub.wr (h : Hub) (key v : Nat) : Hub :=
  { h with regs := SMap.set (resetWord h.fuse) h.regs key (BitVec.ofNat 32 v) }

/-- Replaces bits `hi` down to `lo` of `old` by `n`. -/
def setBits (old hi lo n : Nat) : Nat :=
  old - bits old hi lo * 2 ^ lo + n % 2 ^ (hi - lo + 1) * 2 ^ lo

/-- A field of a register. -/
def Hub.get (h : Hub) (f : RF) : Nat := bits (h.rd f.addr) f.hi f.lo

/-- Sets a field of a register. -/
def Hub.put (h : Hub) (f : RF) (n : Nat) : Hub := h.wr f.addr (setBits (h.rd f.addr) f.hi f.lo n)

/-- A field of a register is not zero. -/
def Hub.on (h : Hub) (f : RF) : Bool := h.get f != 0

/-- Sets a one-bit field. -/
def Hub.set1 (h : Hub) (f : RF) : Hub := h.put f 1

/-- Sets a field when a condition holds. -/
def Hub.putIf (h : Hub) (c : Bool) (f : RF) (n : Nat) : Hub := if c then h.put f n else h

/-- Increments a field that wraps. -/
def Hub.inc (h : Hub) (f : RF) : Hub := h.put f (h.get f + 1)

/-- Adds to a field that wraps. -/
def Hub.add (h : Hub) (f : RF) (n : Nat) : Hub := h.put f (h.get f + n)

/-- Increments a field that saturates at all ones. -/
def Hub.incSat (h : Hub) (f : RF) : Hub := h.put f (satInc (2 ^ (f.hi - f.lo + 1) - 1) (h.get f))

/-- A 64-bit value at +0 and +4. -/
def Hub.r64 (h : Hub) (f : RF) : Nat := h.rd f.addr + 2 ^ 32 * h.rd (f.addr + 4)

/-- Sets a 64-bit value. -/
def Hub.w64 (h : Hub) (f : RF) (v : Nat) : Hub := (h.wr f.addr (v % 2 ^ 32)).wr (f.addr + 4) (v / 2 ^ 32 % 2 ^ 32)

/-- Increments a 64-bit counter, which wraps. -/
def Hub.inc64 (h : Hub) (f : RF) : Hub := h.w64 f (h.r64 f + 1)

/-- The register of a session bank: path `p` of R413. -/
def bank (p : Nat) (f : RF) : RF := { f with addr := f.addr + p * 2 ^ 32 }

/-! ## Tables -/

/-- Cell `c` of block `j` as a cell id. -/
def cellId (j c : Nat) : Nat := 17 * j + c

/-- The channel of live cell `c` of block `j` (R12). -/
def chanOf (j c : Nat) : Nat := 16 * j + c

def Hub.cell (h : Hub) (id : Nat) : Cell := SMap.get (fun _ => ({} : Cell)) h.cells id
def Hub.setCell (h : Hub) (id : Nat) (c : Cell) : Hub :=
  { h with cells := SMap.set (fun _ => ({} : Cell)) h.cells id c }
def Hub.chan (h : Hub) (n : Nat) : Chan := SMap.get (fun _ => ({} : Chan)) h.chans n
def Hub.setChan (h : Hub) (n : Nat) (c : Chan) : Hub :=
  { h with chans := SMap.set (fun _ => ({} : Chan)) h.chans n c }
def Hub.blk (h : Hub) (j : Nat) : Blk := SMap.get (fun _ => ({} : Blk)) h.blks j
def Hub.setBlk (h : Hub) (j : Nat) (b : Blk) : Hub :=
  { h with blks := SMap.set (fun _ => ({} : Blk)) h.blks j b }
def Hub.rgn (h : Hub) (r : Nat) : Rgn := SMap.get (fun _ => ({} : Rgn)) h.rgns r
def Hub.setRgn (h : Hub) (r : Nat) (x : Rgn) : Hub :=
  { h with rgns := SMap.set (fun _ => ({} : Rgn)) h.rgns r x }
def Hub.ring (h : Hub) (id : Nat) : Ring := SMap.get (fun _ => ({} : Ring)) h.rings id
def Hub.setRing (h : Hub) (id : Nat) (x : Ring) : Hub :=
  { h with rings := SMap.set (fun _ => ({} : Ring)) h.rings id x }
def Hub.hitStore (h : Hub) (n : Nat) : HitStore := SMap.get (fun _ => ({} : HitStore)) h.hitStores n
def Hub.setHitStore (h : Hub) (n : Nat) (x : HitStore) : Hub :=
  { h with hitStores := SMap.set (fun _ => ({} : HitStore)) h.hitStores n x }
def Hub.slot (h : Hub) (k : Nat) : Option Slot := SMap.get (fun _ => (none : Option Slot)) h.trig.slots k
def Hub.setSlot (h : Hub) (k : Nat) (x : Option Slot) : Hub :=
  { h with trig := { h.trig with slots := SMap.set (fun _ => (none : Option Slot)) h.trig.slots k x } }
def Hub.queue (h : Hub) (q : Nat) : Queue := SMap.get (fun _ => ({} : Queue)) h.queues q
def Hub.txOf (h : Hub) (k : Nat) : List TxUnit := SMap.get (fun _ => ([] : List TxUnit)) h.tx k
def Hub.setTx (h : Hub) (k : Nat) (l : List TxUnit) : Hub :=
  { h with tx := SMap.set (fun _ => ([] : List TxUnit)) h.tx k l }

/-- Applies a change to every element of a list of indices, in order. -/
def Hub.forAll (h : Hub) (l : List Nat) (f : Hub → Nat → Hub) : Hub := l.foldl f h

def Hub.lane (h : Hub) (l : Nat) : Lane := SMap.get (fun _ => ({} : Lane)) h.lanes l
def Hub.setLane (h : Hub) (l : Nat) (x : Lane) : Hub :=
  { h with lanes := SMap.set (fun _ => ({} : Lane)) h.lanes l x }

/-- An uplink at reset: it stands in its own place of the lane map, lane 11 in none (R318, R327). -/
def uplinkDefault (l : Nat) : Uplink := { places := if l = 11 then [] else [l] }
def Hub.ul (h : Hub) (l : Nat) : Uplink := SMap.get uplinkDefault h.uls l
def Hub.setUl (h : Hub) (l : Nat) (x : Uplink) : Hub := { h with uls := SMap.set uplinkDefault h.uls l x }
def Hub.leaf (h : Hub) (s : Nat) : Leaf := SMap.get (fun _ => ({} : Leaf)) h.leaves s
def Hub.setLeaf (h : Hub) (s : Nat) (x : Leaf) : Hub :=
  { h with leaves := SMap.set (fun _ => ({} : Leaf)) h.leaves s x }

def Hub.master (h : Hub) (m : Nat) : Master := SMap.get (fun _ => ({} : Master)) h.masters m
def Hub.setMaster (h : Hub) (m : Nat) (x : Master) : Hub :=
  { h with masters := SMap.set (fun _ => ({} : Master)) h.masters m x }

/-- The LANE_MAP frame at reset (R396). -/
def laneMapReset (l : Nat) : Nat :=
  [0x3F81, 0x581, 2, 4, 8, 0x10, 0x20, 0x40, 0x7E0500, 0x7E0500, 0x7E3500].getD l 0
def Hub.laneWord (h : Hub) (l : Nat) : Nat := SMap.get laneMapReset h.laneMap l

/-! ## Labels and time words (R8, R47) -/

/-- The number of sample labels: 48 bits of BX count and one of slot (R10, R47). -/
def labelSpan : Nat := 2 ^ 49

/-- WHOLE of the alignment in effect (R63). -/
def Hub.whole (h : Hub) : Nat := h.get TIME_ALIGN_WHOLE

/-- The label of the sample period in progress: 2 F + s − WHOLE (R47). -/
def Hub.label (h : Hub) : Nat :=
  (2 * h.clk.frame + h.clk.slot + labelSpan - h.whole) % labelSpan

/-- The frame count of the sample period that comes next. A fast command acts at this frame count (R333): its
command stands between two sample periods, at the boundary of its BX or after the BX's first sample. -/
def Hub.nextFrame (h : Hub) : Nat := if h.clk.slot = 1 then (h.clk.frame + 1) % 2 ^ 48 else h.clk.frame

/-- The label that the sample `n` periods before the one in progress got when it was taken (R47). -/
def Hub.labelBack (h : Hub) (n : Nat) : Nat := h.clk.labels.getD n ((h.label + labelSpan - n) % labelSpan)

/-- A label as a time word with fine time 0 (R8). -/
def timeWord (label : Nat) : Nat := label / 2 * 2 ^ 16 + label % 2 * 2 ^ 14

/-- The label of the sample period a time word lies in. -/
def labelOf (tw : Nat) : Nat := tw / 2 ^ 16 * 2 + tw / 2 ^ 14 % 2

/-- The later of two labels or time words, modulo their span, is less than half the span ahead (R10). -/
def aheadMod (span a b : Nat) : Nat := (a + span - b) % span

/-- Label `a` lies at or after label `b`, modulo the span of labels. -/
def labelGe (a b : Nat) : Bool := aheadMod labelSpan a b < 2 ^ 48

/-- Time word `b` is not earlier than `a`, modulo 2^64 (R10). -/
def notBefore (b a : Nat) : Bool := aheadMod (2 ^ 64) b a < 2 ^ 63

/-- The frame count as a time word with the current slot (R40). -/
def Hub.now (h : Hub) : Nat := h.clk.frame * 2 ^ 16 + h.clk.slot * 2 ^ 14

/-! ## Arbiters (R13) -/

/-- Request `a` wins over request `b`, each an age and a place in the pointer order of its arbiter's `n` requesters: the
older wins, and equally old ones go by the rotating pointer (R13). -/
def arbBefore (n ptr : Nat) (a b : Nat × Nat) : Bool :=
  if a.1 ≠ b.1 then a.1 < b.1 else (a.2 + n - ptr) % n < (b.2 + n - ptr) % n

/-! ## Power states -/

/-- The cells sample in READY and RUN only (R494). -/
def Hub.sampling (h : Hub) : Bool := h.pwr.state == .ready || h.pwr.state == .run

/-- The hub is in RUN. -/
def Hub.inRun (h : Hub) : Bool := h.pwr.state == .run

/-- Takes up a power state; PWR_STATUS.STATE has no code for OFF and GAZEBO (R509). -/
def Hub.setPState (h : Hub) (p : PState) : Hub :=
  let h := { h with pwr := { h.pwr with state := p } }
  match p with
  | .boot => h.put PWR_STATUS_STATE 1
  | .standby => h.put PWR_STATUS_STATE 2
  | .ready => h.put PWR_STATUS_STATE 3
  | .run => h.put PWR_STATUS_STATE 4
  | .off => h
  | .gazebo => h

/-! ## Queues (R484 to R491) -/

/-- Stores queue `q` and keeps Q_COUNT.COUNT at its depth (R486). -/
def Hub.setQueue (h : Hub) (q : Nat) (x : Queue) : Hub :=
  ({ h with queues := SMap.set (fun _ => ({} : Queue)) h.queues q x }).put (Q_COUNT_COUNT q) x.words.length

/-- Accepts a word at the entry of queue `q`, which has room (R485). -/
def Hub.qAccept (h : Hub) (q data : Nat) (mark : Bool) : Hub :=
  let x := h.queue q
  (h.setQueue q { x with words := x.words ++ [⟨data, mark, .plain⟩] }).put (Q_STATUS_OPEN q) (b2n (!mark))

/-- A record the monitor queue could not take (R274). -/
def Hub.monRecordLost (h : Hub) : Hub :=
  let h := (h.inc MON_LOST_COUNT).set1 MON_STATUS_LOST
  { h with mon := { h.mon with gap := true } }

/-- A control-stream item discarded (R338). -/
def Hub.ctlDiscard (h : Hub) : Hub := (h.inc DL_CTL_DISCARD).set1 DL_CTL_STATUS_CTL_DISCARD

/-- The producers of queue `q` hold a refused word and push it again (R484, R470). -/
def qHolds (q : Nat) : Bool := q == 1 || q == 3 || q == 4 || q == 7

/-- What the producer of queue `q` does on a refused push (R484): queues 0, 2, 5 and 6 drop the item, the others
hold the word and push it again. -/
def Hub.qRefused (h : Hub) (q : Nat) (mark : Bool) : Hub :=
  let h := h.inc (Q_PUSH_FULL q)
  let x := h.queue q
  let h := if qHolds q then h else if mark then h.put (Q_STATUS_OPEN q) 0 else h.setQueue q { x with drop := true }
  if q = 0 then h.ctlDiscard else if q = 5 then h.monRecordLost else h

/-- The words of an item. -/
def asItem (item : QItem) : List Nat → List QWord
  | [] => []
  | [d] => [⟨d, true, item⟩]
  | d :: t => ⟨d, false, item⟩ :: asItem item t

/-- The first item of a list of words, and what follows it. -/
def splitItem : List QWord → List QWord × List QWord
  | [] => ([], [])
  | w :: t => if w.mark then ([w], t) else let r := splitItem t; (w :: r.1, r.2)

/-- A whole item finds no room in a queue whose producer drops it (R484, R488). -/
def Hub.qItemLost (h : Hub) (q : Nat) : Hub :=
  let h := h.inc (Q_PUSH_FULL q)
  if q = 0 then h.ctlDiscard else if q = 5 then h.monRecordLost else h

/-- The words a producer holds enter as far as there is room; an item may enter in part (R484, R485). -/
def Hub.qFill (h : Hub) (q : Nat) : Hub :=
  let x := h.queue q
  let now := x.held.take (32 - x.words.length)
  match now.getLast? with
  | none => h
  | some w =>
    let held := x.held.drop now.length
    (h.setQueue q { x with words := x.words ++ now, held := held, part := !w.mark }).put (Q_STATUS_OPEN q) (b2n (!w.mark))

/-- The records held in latches enter whole, or are lost (R488): at most `n` of them. -/
def Hub.qLatches (q : Nat) : Nat → Hub → Hub
  | 0, h => h
  | n + 1, h =>
    let x := h.queue q
    if x.held.isEmpty then h
    else
      let (i, rest) := splitItem x.held
      if i.length + x.words.length ≤ 32 then
        Hub.qLatches q n (h.setQueue q { x with words := x.words ++ i, held := rest })
      else Hub.qLatches q n ((h.setQueue q { x with held := rest }).qItemLost q)

/-- What the hub's own producers hold enters queue `q` as far as no other item is open and there is room (R488). -/
def Hub.qReleaseHeld (h : Hub) (q : Nat) : Hub :=
  let x := h.queue q
  if h.on (Q_STATUS_OPEN q) ∧ !x.part then h
  else if qHolds q then h.qFill q
  else Hub.qLatches q x.held.length h

/-- A producer inside the hub pushes an item: it waits behind an open item, or enters, or is held or lost where there is
no room (R484, R487, R488). -/
def Hub.qOffer (h : Hub) (q : Nat) (ws : List QWord) : Hub :=
  let x := h.queue q
  if h.on (Q_STATUS_OPEN q) ∨ !x.held.isEmpty then h.setQueue q { x with held := x.held ++ ws }
  else if ws.length + x.words.length ≤ 32 then h.setQueue q { x with words := x.words ++ ws }
  else if qHolds q then ((h.setQueue q { x with held := ws }).inc (Q_PUSH_FULL q)).qFill q
  else h.qItemLost q

/-- An item of a producer inside the hub crosses queue `q` (R18). Its consumer pops faster than the producer pushes
(R484), so the item has crossed at once where the queue is empty and closed, and the second result says so; otherwise it
takes its place in the queue (DESIGN CHOICE, log entry 60). -/
def Hub.qCross (h : Hub) (q : Nat) (words : List Nat) (item : QItem) : Hub × Bool :=
  let x := h.queue q
  if x.words.isEmpty ∧ x.held.isEmpty ∧ !h.on (Q_STATUS_OPEN q) then (h.setQueue q { x with cut := false }, true)
  else (h.qOffer q (asItem item words), false)

/-- A push into queue `q`, coincident with a pop when `pop` (R487). -/
def Hub.qPush (h : Hub) (q data : Nat) (mark pop : Bool) : Hub :=
  let x := h.queue q
  if h.on (Q_STATUS_TAIL_DROP q) then
    -- the rest of an item cut by a flush is discarded as it arrives (R491)
    let h := ((h.inc (Q_FLUSH_TAIL q)).put (Q_STATUS_TAIL_DROP q) (b2n (!mark))).put (Q_STATUS_OPEN q) (b2n (!mark))
    if mark then h.qReleaseHeld q else h
  else if x.drop then
    if mark then ((h.setQueue q { x with drop := false }).put (Q_STATUS_OPEN q) 0).qReleaseHeld q else h
  else if x.part then
    -- an item of a producer inside the hub is entering: this producer holds its word (R488)
    h.setQueue q { x with held := x.held ++ [⟨data, mark, .plain⟩] }
  else if x.words.length < 32 ∨ pop then
    let h := h.qAccept q data mark
    if mark then h.qReleaseHeld q else h
  else h.qRefused q mark

/-- A record enters the ALARM queue, or waits in the latch of its source, which holds one (R15, R488). A source is a
kind of unit with its code, or a block. -/
def Hub.pushRecord (h : Hub) (source : Nat) (item : List Nat) : Hub :=
  if (h.queue 6).held.any (·.item == .record source) then h.inc (Q_PUSH_FULL 6)
  else h.qOffer 6 (asItem (.record source) item)

/-- The words of a queue from the one after its next MARK = 1 word on (R490, R491). -/
def dropItem : List QWord → List QWord
  | [] => []
  | w :: t => if w.mark then t else dropItem t

/-- The first whole item at the head of a queue, if it is complete. -/
def headItem : List QWord → Option (List Nat × List QWord)
  | [] => none
  | w :: t =>
    if w.mark then some ([w.data], t)
    else (headItem t).map fun (l, r) => (w.data :: l, r)

/-- Drops words up to the next good MARK = 1 word while the queue is skipping (R490). -/
def Queue.settled (x : Queue) : Queue :=
  if x.skip then { x with words := dropItem x.words, skip := !x.words.any (·.mark) } else x

/-- A consumer inside the hub takes the item at the head of queue `q`, or the rest of the one it has begun, if it is
whole (R486, R490). -/
def Hub.qTake (h : Hub) (q : Nat) : Option (List Nat × Hub) :=
  let x := (h.queue q).settled
  match headItem x.words with
  | none => none
  | some (l, r) =>
    let l := if x.midPop ∧ !x.cut then x.got ++ l else l
    some (l, h.setQueue q { x with words := r, midPop := false, cut := false, last := none })

/-! ## Alarm records (R15 to R17) -/

/-- WHERE of the chip, a cell, a block, a region and a numbered unit of another kind (R16). -/
def whereCell (j c : Nat) : Nat := 0x1000 + j / 4 * 0x100 + j % 4 * 0x40 + c
def whereBlk (j : Nat) : Nat := 0x2000 + j / 4 * 0x100 + j % 4 * 0x40
def whereRgn (r : Nat) : Nat := 0x3000 + r * 0x100
def whereUnit (kind i : Nat) : Nat := kind * 0x1000 + i

/-- Raises alarm `code` in the sample period with the given label (R16). -/
def Hub.raiseAt (h : Hub) (label code wher detail : Nat) : Hub :=
  let t := timeWord label
  let w3 := b2n (!h.on TIME_STATUS_BX_VALID) * 2 ^ 30 + code * 2 ^ 16 + wher
  h.pushRecord (code * 2 ^ 16 + wher) [0x10000000, t % 2 ^ 32, t / 2 ^ 32, w3, detail % 2 ^ 32]

/-- Raises alarm `code` with the label of the sample period in progress (R16). -/
def Hub.raise (h : Hub) (code wher detail : Nat) : Hub := h.raiseAt h.label code wher detail

/-- Queues a record of the gazebo log as an alarm with gazebo time (R16, R502). NOVALID is set: in the gazebo state the
time base has no power and no numbering is valid (R41, R501; DEDUCED, log entry 53). -/
def Hub.raiseGzb (h : Hub) (time code wher detail : Nat) : Hub :=
  let w3 := 2 ^ 31 + 2 ^ 30 + code * 2 ^ 16 + wher
  h.pushRecord (code * 2 ^ 16 + wher) [0x10000000, time % 2 ^ 32, time / 2 ^ 32, w3, detail % 2 ^ 32]

/-- Discards the item at the head of queue `q` and reports the uncorrectable word (R490). -/
def Hub.qUncorr (h : Hub) (q : Nat) : Hub :=
  let x := h.queue q
  let closed := x.words.any (·.mark)
  let h := h.setQueue q { x with
    words := dropItem x.words, skip := !closed, cut := x.cut || x.midPop, midPop := false, last := none }
  let h := (h.inc (Q_UNCORR q)).set1 (Q_STATUS_UNCORR q)
  let h := if q = 6 then h else h.raise 0x15 (whereUnit 9 q) (h.get (Q_UNCORR q))
  if q = 0 then h.ctlDiscard
  else if q = 2 then (h.set1 PORT_STATUS_FRAME_CUT).inc PORT_CUT_COUNT
  else if q = 5 then h.monRecordLost
  else h

/-- The head word of queue `q` is popped and checked (R486, R489, R490). -/
def Hub.qPopWord (h : Hub) (q : Nat) (err : QErr) : Hub :=
  let x := h.queue q
  match x.words with
  | [] => (h.setQueue q { x with last := none }).inc (Q_POP_EMPTY q)
  | w :: t =>
    match err with
    | .uncorrectable => h.qUncorr q
    | e =>
      if x.skip then h.setQueue q { x with words := t, skip := !w.mark, last := none }
      else
        let h := h.setQueue q { x with
          words := t, midPop := !w.mark, last := some w, lastCut := x.cut, cut := false
          got := if x.midPop ∧ !x.cut then x.got ++ [w.data] else [w.data] }
        if e = .corrected then h.inc (Q_CORR q) else h

/-- A pop from queue `q`; what a producer holds follows into the room it leaves (R484, R486). -/
def Hub.qPop (h : Hub) (q : Nat) (err : QErr) : Hub := (h.qPopWord q err).qReleaseHeld q

/-- Flushes queue `q` (R491). The rest of an item whose producer is inside the hub is discarded as it arrives, which is
at once; then what other producers hold enters. -/
def Hub.qFlush (h : Hub) (q : Nat) : Hub :=
  let x := h.queue q
  let openItem := h.on (Q_STATUS_OPEN q)
  let tail := if x.part then (splitItem x.held).1.length else 0
  let h := h.setQueue q { x with
    words := [], held := x.held.drop tail, part := false, cut := x.cut || x.midPop, midPop := false, skip := false }
  if x.part then ((h.add (Q_FLUSH_TAIL q) tail).put (Q_STATUS_OPEN q) 0).qReleaseHeld q
  else if openItem then h.put (Q_STATUS_TAIL_DROP q) 1
  else h.qReleaseHeld q

/-! ## Units for the chip arbiter (R218) -/

/-- Hands a unit to requester `k` of R218. -/
def Hub.send (h : Hub) (k : Nat) (u : TxUnit) : Hub := h.setTx k (h.txOf k ++ [u])

/-- The units of requester `k` whose end has not been sent. -/
def Hub.txLoad (h : Hub) (k : Nat) : Nat := ((h.txOf k).filter fun u => !u.ended).length

/-- A unit of a stream that has source 0 and belongs to no event. -/
def Hub.sendPlain (h : Hub) (k stream source : Nat) (words : List Nat) : Hub :=
  h.send k { stream := stream, source := source, words := words, age := h.clk.tick }

/-- A unit of CONTROL for requester `k` crosses to LANE through the DL_OUT queue (R18, R484). -/
def Hub.sendOut (h : Hub) (k stream source : Nat) (words : List Nat) : Hub :=
  let u : TxUnit := { stream := stream, source := source, words := words, age := h.clk.tick }
  let (h, now) := h.qCross 1 words (.unit k u)
  if now then h.send k u else h

/-- A unit of stream 6 with its header and SEQ (R15). -/
def Hub.sendHealth (h : Hub) (type : Nat) (body : List Nat) : Hub :=
  let hdr := type * 2 ^ 28 + body.length * 2 ^ 16 + h.seq6
  { h.sendOut 13 6 0 (hdr :: body) with seq6 := (h.seq6 + 1) % 65536 }

end Sys2Proof.Machine
end

