-- ==== Sys2Proof/Machine/Operands.lean ====
section
/-! DEFINITION. How the operands of a command name units of the hub, and the arithmetic on sample words: the gain
decision, the combined amplitude and the sample word of a cell (R71 to R74, R77, R78). -/

namespace Sys2Proof.Machine

/-! ## Fields of CELL_CTRL as taken up by a cell (R88) -/

def ctrlEn (c : Nat) : Bool := bit c 0
def ctrlTerm (c : Nat) : Nat := bits c 1 1
def ctrlMode (c : Nat) : Nat := bits c 5 4
def ctrlAaf (c : Nat) : Nat := bits c 13 8
def ctrlMargin (c : Nat) : Nat := bits c 23 16

/-! ## Gain decision and amplitude -/

/-- A high-gain code is saturated (R72). -/
def saturated (margin hg : Nat) : Bool := hg ≤ margin || 16383 - margin ≤ hg

/-- The combined amplitude × 4 of one conversion (R78). -/
def amp4 (x : Conv) : Nat :=
  let mode := ctrlMode x.ctrl
  if mode = 1 ∨ (mode = 0 ∧ !saturated (ctrlMargin x.ctrl) x.hg) then
    (clampInt 0 1048575 (((x.hg : Int) - 8192) * 4 + 524288)).toNat
  else
    (clampInt 0 1048575 ((4 * ((x.lg : Int) - 8192) * x.ratio + 32768) / 65536 + 524288)).toNat

/-- The G bit of the conversion at position `k` of a list of conversions, newest first, under the three-sample
look-ahead (R71, R72). A sample of the window that was taken with the high-gain converter powered down counts with the
code last presented to it (DESIGN CHOICE, log entry 45). -/
def gainBit (l : List Conv) (k : Nat) : Bool :=
  match l[k]? with
  | none => false
  | some x =>
    match ctrlMode x.ctrl with
    | 1 => false
    | 2 => true
    | _ => ((l.drop (k - 3)).take (if k < 3 then k + 4 else 7)).any fun y => saturated (ctrlMargin y.ctrl) y.hg

/-- One sample as it leaves a cell (R74, R75, R77, R101): G, the codes of both converters, the combined amplitude × 4,
the causes of Q that arise in the cell as bits of CELL_Q_CAUSE, and whether the spare was moving. -/
structure CellWord where
  g : Bool
  h : Nat
  l : Nat
  a4 : Nat
  causes : Nat
  moving : Bool
  deriving DecidableEq, Repr

/-- Q of a word as it leaves its cell (R75, R101). -/
def CellWord.q (w : CellWord) : Bool := w.causes != 0 || w.moving

/-- Bits of CELL_Q_CAUSE (R93). -/
def qEnable : Nat := 1
def qGainMode : Nat := 2
def qFrontEnd : Nat := 3
def qTrim : Nat := 4
def qRedund : Nat := 5
def qSuspect : Nat := 6
def qUncovered : Nat := 7
def qDelay : Nat := 8
def qPhase : Nat := 9
def qTimebase : Nat := 10

/-- The sample of the conversion at position `k`, newest first (R72). A disabled cell gives code 8,192 with G = 0
and Q = 1 and the amplitude of 0 V (R77). -/
def cellWordAt (c : Cell) (k : Nat) : Option CellWord :=
  match c.conv[k]? with
  | none => none
  | some x =>
    if ctrlEn x.ctrl then
      some ⟨gainBit c.conv k, x.hg, x.lg, amp4 x, x.causes, x.moving⟩
    else some ⟨false, 8192, 8192, 524288, x.causes ||| 2 ^ qEnable, x.moving⟩

/-- The sample a cell puts out: the conversion three samples old (R72). -/
def cellWord (c : Cell) : Option CellWord := cellWordAt c 3

/-- The 16-bit sample word (R74). -/
def sampleWord (g q : Bool) (code : Nat) : Nat := b2n g * 2 ^ 15 + b2n q * 2 ^ 14 + code % 2 ^ 14

/-- The code a cell's word carries. -/
def CellWord.code (w : CellWord) : Nat := if w.g then w.l else w.h

/-! ## Marks of a channel (R75, R76) -/

/-- Marks the next `len` samples of channel `n` with a cause (R76). -/
def Hub.mark (h : Hub) (n cause len : Nat) : Hub :=
  let c := h.chan n
  let from_ := h.clk.tick + 1
  h.setChan n { c with marks := c.marks ++ [⟨cause, from_, from_ + len⟩] }

/-- The causes among the counted marks that hold for the sample of tick `t`, as bits of CELL_Q_CAUSE. -/
def markBits (l : List Mark) (t : Nat) : Nat :=
  l.foldl (fun a m => if m.from_ ≤ t ∧ t < m.upto then a ||| 2 ^ m.cause else a) 0

/-! ## Status of a cell (R92) -/

/-- LIVE: powered, EN = 1 and the power-up of R77 complete. -/
def Hub.cellLive (h : Hub) (id : Nat) : Bool :=
  let c := h.cell id
  h.sampling && ctrlEn c.ctrl && c.enableTo ≤ h.clk.tick

/-- Health state of cell c of block j: 0 GOOD, 1 WATCH, 2 SUSPECT, 3 RETIRED (R94). -/
def Hub.health (h : Hub) (j c : Nat) : Nat := h.get (CELL_HEALTH_STATE j c)

/-- The channel the unit (j, c) serves: its own for a live cell that is not covered, the covered one for a spare. -/
def Hub.servedBy (h : Hub) (j c : Nat) : Option Nat :=
  if c = 16 then (h.blk j).serving.map (chanOf j)
  else if (h.chan (chanOf j c)).spare then none else some (chanOf j c)

/-- The counted marks of channel n that arise in the cell, in the sample period in progress: a power-up and the changes
of R76. -/
def Hub.cellMarks (h : Hub) (n : Nat) : Nat :=
  markBits (h.chan n).marks h.clk.tick &&& (2 ^ qEnable + 2 ^ qGainMode + 2 ^ qFrontEnd + 2 ^ qTrim)

/-- SETTLING of cell c of block j: samples it produces for a channel are being marked under R76 or after a power-up
(R77, R92). -/
def Hub.cellSettling (h : Hub) (j c : Nat) : Bool :=
  match h.servedBy j c with
  | some n => h.cellMarks n != 0
  | none => false

/-- The source of channel n is SUSPECT and not covered (R85, R117). -/
def Hub.suspectSource (h : Hub) (n : Nat) : Bool :=
  let j := n / 16
  if (h.chan n).spare then bit (h.get (BLK_STATUS_UNCOVERED j)) (n % 16) && h.health j 16 == 2
  else h.health j (n % 16) == 2

/-- The causes of Q that arise in cell c of block j for the sample it takes now, as bits of CELL_Q_CAUSE (R75). -/
def Hub.cellCauses (h : Hub) (j c : Nat) : Nat :=
  match h.servedBy j c with
  | some n => h.cellMarks n ||| b2n (h.suspectSource n) * 2 ^ qSuspect
  | none => 0

/-- The spare of block j stands on input c with the hinge closed. -/
def Hub.spareOn (h : Hub) (j c : Nat) : Bool :=
  2 ≤ h.get (HNG_STATUS_PHASE j) && h.get (HNG_STATUS_ROUTE j) = c

/-! ## Taking up changed settings (R76, R77, R79, R81, R82, R155) -/

/-- The spare takes the settings of the cell it stands on: GAIN_MODE, SAT_MARGIN, AAF_BW and CELL_DISC (R70). TERM
belongs to the input pair and EN to the spare. -/
def borrowCtrl (own cov : Nat) : Nat :=
  setBits (setBits (setBits own 23 16 (ctrlMargin cov)) 13 8 (ctrlAaf cov)) 5 4 (ctrlMode cov)

/-- The fields of CELL_CTRL below in effect in a cell. -/
def Hub.takeCtrl (h : Hub) (id v : Nat) : Hub := let c := h.cell id; h.setCell id { c with ctrl := v }

/-- A change of GAIN_MODE, AAF_BW, TERM or a trim applies to a live cell and marks 8 samples of its channel; in a
covered cell GAIN_MODE, AAF_BW and TERM reach the channel through the spare and trims mark nothing (R70, R76). -/
def Hub.takeFrontEnd (h : Hub) (j c : Nat) : Hub :=
  let id := cellId j c
  let x := h.cell id
  let new := h.rd (CELL_CTRL j c).addr
  let trimHg := h.rd (CELL_TRIM_HG j c).addr
  let trimLg := h.rd (CELL_TRIM_LG j c).addr
  let modeCh := ctrlMode new != ctrlMode x.ctrl
  let feCh := ctrlAaf new != ctrlAaf x.ctrl || ctrlTerm new != ctrlTerm x.ctrl
  let trimCh := trimHg != x.trimHg || trimLg != x.trimLg
  let ctrl := setBits (setBits (setBits x.ctrl 5 4 (ctrlMode new)) 13 8 (ctrlAaf new)) 1 1 (ctrlTerm new)
  if c = 16 then
    -- the spare's own front-end fields have no effect (R70); its trims do
    let h := h.setCell id { x with trimHg := trimHg, trimLg := trimLg }
    match (h.blk j).serving with
    | none => h
    | some c' => if trimCh then h.mark (chanOf j c') qTrim 8 else h
  else
    let n := chanOf j c
    let covered := (h.chan n).spare
    let h := h.setCell id { x with ctrl := ctrl, trimHg := trimHg, trimLg := trimLg }
    let h := if modeCh then h.mark n qGainMode 8 else h
    let h := if feCh then h.mark n qFrontEnd 8 else h
    let h := if trimCh ∧ !covered then h.mark n qTrim 8 else h
    let sp := cellId j 16
    if h.spareOn j c then h.takeCtrl sp (borrowCtrl (h.cell sp).ctrl ctrl) else h

/-- A change of CELL_CTRL.EN takes effect (R77). The marks of an enable belong to the channel that the cell serves at
that moment: they stay with it through a handover, and a cell enabled while covered marks nothing when it returns
(DESIGN CHOICE, log entry 46). -/
def Hub.takeEnable (h : Hub) (j c : Nat) : Hub :=
  let id := cellId j c
  let x := h.cell id
  let en := h.get (CELL_CTRL_EN j c)
  if en = bits x.ctrl 0 0 then h
  else
    let x := { x with ctrl := setBits x.ctrl 0 0 en }
    if en = 0 then h.setCell id x
    else
      let h := h.setCell id { x with enableTo := h.clk.tick + 1 + 64 }
      match h.servedBy j c with
      | some n => h.mark n qEnable 64
      | none => h

/-- The discriminator settings of cell c reach the spare that stands on its input (R70). -/
def Hub.lendDisc (h : Hub) (j c : Nat) : Hub :=
  if c < 16 ∧ h.spareOn j c then
    let sp := cellId j 16
    let x := h.cell (cellId j c)
    h.setCell sp { h.cell sp with disc := x.disc, armed := x.armed, blankTick := x.blankTick }
  else h

/-! ## The discriminator (R80 to R82) -/

/-- The threshold T as a high-gain code, and the hysteresis, of a CELL_DISC word (R80). -/
def discThreshold (disc : Nat) : Int := 8192 + 16 * ((bits disc 9 0 : Int) - 512)
def discHyst (disc : Nat) : Int := 16 * (bits disc 12 10 : Int)

/-- A signal at this level, a high-gain code, rearms the discriminator: otherwise it lies beyond the rearm level on the
hit side (R80, R81). -/
def discRearms (disc : Nat) (level : Int) : Bool :=
  if bit disc 15 then discThreshold disc + discHyst disc < level else level < discThreshold disc - discHyst disc

/-- The signal passes through T in the direction of a hit (R80). -/
def discCrosses (disc : Nat) (x : Swing) : Bool :=
  if bit disc 15 then discThreshold disc < x.start && x.stop ≤ discThreshold disc
  else x.start < discThreshold disc && discThreshold disc ≤ x.stop

/-- The discriminator of a cell gives a hit: it is enabled and not blanked, the signal crosses, and the discriminator
is armed or has rearmed since the last crossing (R77, R80 to R82). -/
def discHit (x : Cell) (tick : Nat) (s : Swing) : Bool :=
  ctrlEn x.ctrl && bit x.disc 16 && x.blankTick != some tick && discCrosses x.disc s &&
    (x.armed || discRearms x.disc s.start)

/-- A change of CELL_DISC.EN takes effect with the signal at `level`. On an enable the discriminator starts unarmed if
the signal lies beyond the rearm level on the hit side (R81). -/
def Hub.takeDiscEnable (h : Hub) (j c : Nat) (level : Int) : Hub :=
  let id := cellId j c
  let x := h.cell id
  let en := h.get (CELL_DISC_EN j c)
  if c = 16 ∨ en = bits x.disc 16 16 then h
  else
    let disc := setBits x.disc 16 16 en
    let h := h.setCell id { x with disc := disc, armed := if en = 1 then discRearms disc level else x.armed }
    h.lendDisc j c

/-- A change of THRESH, HYST or POL takes effect with the first sample period blanked; at its end, with the signal at
`level`, the discriminator takes up its armed state under the new settings (R82). -/
def Hub.takeDiscSettings (h : Hub) (j c : Nat) (level : Int) : Hub :=
  let id := cellId j c
  let x := h.cell id
  let v := h.rd (CELL_DISC j c).addr
  let new := setBits (setBits x.disc 15 15 (bits v 15 15)) 12 0 (bits v 12 0)
  if c = 16 ∨ new = x.disc then h
  else
    let h := h.setCell id { x with disc := new, blankTick := some (h.clk.tick + 1), armed := discRearms new level }
    h.lendDisc j c

/-- The settings that take effect at a BX boundary and mark nothing: SAT_MARGIN (R72) and the gain ratio (R79). -/
def Hub.takeQuiet (h : Hub) (j c : Nat) : Hub :=
  let id := cellId j c
  let x := h.cell id
  let ctrl := if c = 16 then x.ctrl else setBits x.ctrl 23 16 (h.get (CELL_CTRL_SAT_MARGIN j c))
  let h := h.setCell id { x with ctrl := ctrl, ratio := h.get (CELL_GAIN_RATIO_RATIO j c) }
  if c < 16 ∧ h.spareOn j c then
    let sp := cellId j 16
    h.takeCtrl sp (setBits (h.cell sp).ctrl 23 16 (ctrlMargin ctrl))
  else h

end Sys2Proof.Machine
end

