-- ==== Sys2Proof/Machine/FilterOps.lean ====
section
/-! DEFINITION. The delay stage, the trigger estimator, the CIC decimator and compensator, fades and record blocks
(R130 to R152). -/

namespace Sys2Proof.Machine

/-- `n / d` rounded to the nearest integer, ties toward positive infinity (R136). -/
def roundDiv (n d : Int) : Int := (2 * n + d) / (2 * d)

/-- A response applied to a history, newest first: Σ coef[t] · x[t]; places beyond the history count 0. -/
def applyResp (coef : List Int) (x : List Int) : Int :=
  (List.zipWith (fun a b => a * b) coef x).foldl (· + ·) 0

/-! ## Delay stage (R130 to R134) -/

/-- The delay in 1/16 sample in effect for the output with sample index `i`. -/
def delayAt : List (Nat × Nat) → Nat → Nat
  | [], _ => 0
  | (from_, d) :: t, i => if from_ ≤ i then d else delayAt t i

/-- The pedestal in effect for the sample with index `i` (R155). -/
def pedAt : List (Nat × Int) → Nat → Int
  | [], _ => 0
  | (from_, p) :: t, i => if from_ ≤ i then p else pedAt t i

/-- The pedestal taken up last (R155, R201). -/
def pedNow (l : List (Nat × Int)) : Int := (l.head?.getD (0, 0)).2

/-- CELL_FLT_PED takes effect with the sample period in progress, the first of its BX (R155). -/
def Hub.takePed (h : Hub) (n : Nat) : Hub :=
  let x := h.chan n
  let new := sgn 12 (h.get (CELL_FLT_PED_PED (n / 16) (n % 16)))
  if new = pedNow x.peds then h else h.setChan n { x with peds := (h.clk.tick, new) :: x.peds.take 7 }

/-- A word of the delay line of channel `n`; before the first sample its content is a free value. -/
def lineAt (n : Nat) (l : List LineWord) (k : Nat) : LineWord :=
  match l[k]? with
  | some w => w
  | none =>
    let v := (Config.lineInit n k).toNat
    ⟨false, true, v % 16384, v % 16384, v⟩

/-- The word that leaves the delay stage (R131): the words at the taps with a coefficient, from the newest. A combined
amplitude that interpolation takes outside its 20 bits is clamped to them, as the code is to its 14 (DESIGN CHOICE, log
entry 50). -/
def delayWord (n : Nat) (l : List LineWord) (d : Nat) : LineWord :=
  let coef := (romAt (1 + d % 16)).coef
  let taps := (List.range 8).map fun t => (coef.getD t 0, lineAt n l (d / 16 + t))
  let used := taps.filter fun p => p.1 ≠ 0
  let sum := fun (f : LineWord → Nat) => roundDiv ((used.map fun p => p.1 * (f p.2 : Int)).foldl (· + ·) 0) 65536
  { g := used.any (·.2.g)
    q := used.any (·.2.q)
    h := (clampInt 0 16383 (sum (·.h))).toNat
    l := (clampInt 0 16383 (sum (·.l))).toNat
    a4 := (clampInt 0 1048575 (sum (·.a4))).toNat }

/-- A change of CELL_DLY takes effect: M output words carry Q with cause DELAY (R132, R133). -/
def Hub.takeDelay (h : Hub) (j c : Nat) : Hub :=
  let n := chanOf j c
  let x := h.chan n
  let new := h.get (CELL_DLY_INT j c) * 16 + h.get (CELL_DLY_FRAC j c)
  let old := delayAt x.dly (h.clk.tick + 1)
  if new = old then h
  else
    let dist := if old < new then new - old else old - new
    let h := h.setChan n { x with dly := (h.clk.tick + 1, new) :: x.dly.take 15 }
    h.mark n qDelay (max 1 ((dist + 15) / 16))

/-! ## Settle counts (R144) -/

def estSettle (i : Nat) : Nat := (romAt i).coef.length / 2
def recSettle (order i : Nat) : Nat :=
  let r := romAt i
  order + (r.coef.length - 1 + r.d2 - 1) / r.d2

/-- Keeps FLT_SETTLE and COMP_MISMATCH of a channel at what its responses give (R138, R144). -/
def Hub.refreshFlt (h : Hub) (j c : Nat) : Hub :=
  let n := chanOf j c
  let rec_ := h.get (CELL_FLT_REC_CUR j c)
  let order := h.get CREC_STATUS_ORDER_EFF + 3
  let h := h.put (FLT_SETTLE_EST n) (estSettle (h.get (CELL_FLT_EST_CUR j c)))
  let h := h.put (FLT_SETTLE_REC n) (recSettle order rec_)
  h.put (CELL_FLT_STATUS_COMP_MISMATCH j c) (b2n (rec_ != 0 && compOrder rec_ != order))

/-- Estimates of a channel are marked U for `k` outputs. -/
def Hub.unsettleEst (h : Hub) (j c k : Nat) : Hub :=
  (h.put (FLT_SETTLE_EST_REMAIN (chanOf j c)) k).put (CELL_FLT_STATUS_EST_UNSETTLED j c) (b2n (k != 0))

/-- Record values of a channel are marked U for `k` outputs. -/
def Hub.unsettleRec (h : Hub) (j c k : Nat) : Hub :=
  (h.put (FLT_SETTLE_REC_REMAIN (chanOf j c)) k).put (CELL_FLT_STATUS_REC_UNSETTLED j c) (b2n (k != 0))

/-! ## Estimator (R139, R140) -/

/-- Numerator and denominator of the output of a stage with or without a fade (R147). -/
def fadeOut (cur : Nat) (f : Option Fade) (x : List Int) : Int × Int :=
  match f with
  | none => (applyResp (romAt cur).coef x, 1)
  | some f =>
    let k := min (f.done + 1) f.len
    (((f.len : Int) - k) * applyResp (romAt f.old).coef x + k * applyResp (romAt f.new).coef x, f.len)

/-- The number of history places the output of a stage reads. -/
def fadeTaps (cur : Nat) (f : Option Fade) : Nat :=
  match f with
  | none => (romAt cur).coef.length
  | some f => max (romAt f.old).coef.length (romAt f.new).coef.length

/-- One output of a fading stage counts. -/
def fadeStep (f : Option Fade) : Option Fade := f.map fun x => { x with done := min (x.done + 1) x.len }

/-- An output is a blend: the fade has outputs left. -/
def fading (f : Option Fade) : Bool :=
  match f with
  | none => false
  | some x => x.done < x.len

/-- The estimate word of a channel from its history (R139, R140). -/
def estimateWord (x : Chan) (cur : Nat) (u : Bool) : Nat :=
  let (n, d) := fadeOut cur x.estFade (x.est.map (·.1))
  let e := roundDiv n (65536 * d)
  let s := clampInt (-524288) 524287 e
  let q := (x.est.take (fadeTaps cur x.estFade)).any (·.2)
  b2n q * 2 ^ 31 + b2n u * 2 ^ 30 + b2n (fading x.estFade) * 2 ^ 29 + b2n (s != e) * 2 ^ 28 + unsgn 20 s

/-- The estimator of a channel takes one delayed sample and gives an estimate at slot 1 (R139). -/
def Hub.estimate (h : Hub) (j c label : Nat) (w : LineWord) (q : Bool) : Hub :=
  let n := chanOf j c
  let x := h.chan n
  let x := { x with est := (((w.a4 : Int) - 524288 - pedAt x.peds (h.clk.tick - 6)), q) :: x.est.take 31 }
  if label % 2 = 0 then h.setChan n x
  else
    let rem := h.get (FLT_SETTLE_EST_REMAIN n)
    let e := estimateWord x (h.get (CELL_FLT_EST_CUR j c)) (rem != 0)
    let h := h.setChan n { x with ests := (label / 2, e) :: x.ests.take 7, estFade := fadeStep x.estFade }
    let h := h.wr (CELL_FLT_EST_LAST j c).addr e
    if rem = 0 then h else h.unsettleEst j c (rem - 1)

/-! ## CIC decimator and compensator (R141 to R143) -/

/-- Width of the CIC arithmetic: 20 + 5 × 12 bits. -/
def cicMod : Nat := 2 ^ 80

/-- The integrators take one input, each stage the new value of the one before it. -/
def integrate : Nat → List Nat → Nat → List Nat
  | 0, l, _ => l
  | _ + 1, [], _ => []
  | k + 1, a :: t, x => let a' := (a + x) % cicMod; a' :: integrate k t a'

/-- The combs take one integrator output: the new delays and the difference. -/
def combs : Nat → List Nat → Nat → List Nat × Nat
  | 0, l, x => (l, x)
  | _ + 1, [], x => ([], x)
  | k + 1, a :: t, x =>
    let r := combs k t ((x + cicMod - a) % cicMod)
    (x :: r.1, r.2)

/-- Whether the compensator produces a record value at CIC output count `k` (R142). -/
def recordDue (cur : Nat) (f : Option Fade) (k : Nat) : Bool :=
  match f with
  | none => k % (romAt cur).d2 == 0
  | some f =>
    let a := (romAt f.old).d2
    let b := (romAt f.new).d2
    if a = b then k % a == 0 else k % 2 == 0

/-- The record value of a channel and whether it saturates (R142). -/
def recordValue (x : Chan) (cur order log2d shift : Nat) : Int × Bool :=
  let (n, d) := fadeOut cur x.recFade (x.comp.map (·.1))
  let v := roundDiv (n * 64) (65536 * d * 4 * (2 ^ (order * log2d) : Nat) * (2 ^ shift : Nat))
  let s := clampInt (-32768) 32767 v
  (s, s != v)

/-- One delayed sample enters the decimator of a channel (R141, R142). -/
def Hub.decimate (h : Hub) (j c : Nat) (w : LineWord) (q : Bool) : Hub :=
  let n := chanOf j c
  let x := h.chan n
  let order := h.crec.order
  let integ := integrate order x.integ (unsgn 80 ((w.a4 : Int) - 524288))
  let x := { x with integ := integ, cicQ := x.cicQ || q, recNew := false }
  if x.cicN + 1 < 2 ^ h.crec.log2d then h.setChan n { x with cicN := x.cicN + 1 }
  else
    let (cb, y) := combs order x.comb (integ.getD (order - 1) 0)
    let x := { x with
      comb := cb, cicN := 0, cicQ := false, outN := x.outN + 1, comp := (sgn 80 y, x.cicQ) :: x.comp.take 39 }
    let cur := h.get (CELL_FLT_REC_CUR j c)
    if recordDue cur x.recFade x.outN then
      let rem := h.get (FLT_SETTLE_REC_REMAIN n)
      let (v, sat) := recordValue x cur order h.crec.log2d (h.get CREC_CFG_SHIFT)
      let qv := (x.comp.take (fadeTaps cur x.recFade + order - 1)).any (·.2)
      let word := b2n qv * 2 ^ 31 + b2n (rem != 0) * 2 ^ 30 + b2n (fading x.recFade) * 2 ^ 29 + b2n sat * 2 ^ 28 +
        unsgn 16 v
      let h := h.setChan n { x with recNew := true, recLast := word, recFade := fadeStep x.recFade }
      let h := h.wr (CELL_FLT_REC_LAST j c).addr word
      if rem = 0 then h else h.unsettleRec j c (rem - 1)
    else h.setChan n x

/-! ## Swaps (R147 to R149) -/

/-- The two filter stages that swap. -/
inductive Stage where
  | est | rec_
  deriving DecidableEq, Repr

/-- The control register of a stage as fields: SWAP, FADE_LEN, NEXT, BANK, FADING, OTHER, CUR. -/
def stageReg (s : Stage) (j c : Nat) : RF :=
  match s with
  | .est => CELL_FLT_EST j c
  | .rec_ => CELL_FLT_REC j c

def fSwap (r : RF) : RF := { r with hi := 31, lo := 31 }
def fFadeLen (r : RF) : RF := { r with hi := 26, lo := 24 }
def fNext (r : RF) : RF := { r with hi := 21, lo := 16 }
def fBank (r : RF) : RF := { r with hi := 15, lo := 15 }
def fFading (r : RF) : RF := { r with hi := 14, lo := 14 }
def fOther (r : RF) : RF := { r with hi := 13, lo := 8 }
def fCur (r : RF) : RF := { r with hi := 5, lo := 0 }

/-- Sets the fade of a stage. -/
def Hub.setFade (h : Hub) (s : Stage) (n : Nat) (f : Option Fade) : Hub :=
  let x := h.chan n
  match s with
  | .est => h.setChan n { x with estFade := f }
  | .rec_ => h.setChan n { x with recFade := f }

def Hub.fadeOf (h : Hub) (s : Stage) (n : Nat) : Option Fade :=
  match s with
  | .est => (h.chan n).estFade
  | .rec_ => (h.chan n).recFade

/-- A SWAP with FORCE = 0 is taken up: a fade starts, or the swap is refused while one runs (R147, R148). With NEXT equal
to CUR during a fade the refusal of R148 stands (DESIGN CHOICE, log entry 51). -/
def Hub.swap (h : Hub) (s : Stage) (j c : Nat) : Hub :=
  let r := stageReg s j c
  let next := h.get (fNext r)
  let cur := h.get (fCur r)
  let h := h.put (fSwap r) 0
  if h.on (fFading r) then h.set1 (CELL_FLT_STATUS_SWAP_BUSY j c)
  else if next = cur then h
  else
    let h := (h.put (fOther r) next).put (fFading r) 1
    h.setFade s (chanOf j c) (some ⟨cur, next, 0, 8 * 2 ^ h.get (fFadeLen r)⟩)

/-- A SWAP with FORCE = 1 is taken up: a jump to the new response, marked U for its settle count (R148). With NEXT equal
to CUR nothing happens, a fade in progress included (R149; DESIGN CHOICE, log entry 51). -/
def Hub.swapForce (h : Hub) (s : Stage) (j c : Nat) : Hub :=
  let r := stageReg s j c
  let next := h.get (fNext r)
  let cur := h.get (fCur r)
  let h := h.put (fSwap r) 0
  if next = cur then h
  else
    let h := ((h.put (fOther r) cur).put (fCur r) next).put (fBank r) (1 - h.get (fBank r))
    let h := (h.put (fFading r) 0).setFade s (chanOf j c) none
    let h := h.refreshFlt j c
    match s with
    | .est => h.unsettleEst j c (h.get (FLT_SETTLE_EST (chanOf j c)))
    | .rec_ => h.unsettleRec j c (h.get (FLT_SETTLE_REC (chanOf j c)))

/-- A fade has given all its outputs: CUR names the new response (R147). -/
def Hub.fadeEnd (h : Hub) (s : Stage) (j c : Nat) : Hub :=
  match h.fadeOf s (chanOf j c) with
  | none => h
  | some f =>
    if f.done < f.len then h
    else
      let r := stageReg s j c
      let h := ((h.put (fOther r) f.old).put (fCur r) f.new).put (fBank r) (1 - h.get (fBank r))
      ((h.put (fFading r) 0).setFade s (chanOf j c) none).refreshFlt j c

/-- The label from which a stage takes up an applied NEXT. -/
def Chan.due (x : Chan) (s : Stage) : Option Nat :=
  match s with
  | .est => x.estDue
  | .rec_ => x.recDue

def Hub.setDue (h : Hub) (s : Stage) (n : Nat) (l : Option Nat) : Hub :=
  let x := h.chan n
  match s with
  | .est => h.setChan n { x with estDue := l }
  | .rec_ => h.setChan n { x with recDue := l }

/-- An APPLY that changes a response starts a fade, or jumps if a fade runs, at the first output whose last input is
at or after the apply BX (R147, R149). -/
def Hub.responseDue (h : Hub) (s : Stage) (j c label : Nat) : Hub :=
  match (h.chan (chanOf j c)).due s with
  | none => h
  | some l =>
    if !labelGe label l then h
    else
      let h := h.setDue s (chanOf j c) none
      let r := stageReg s j c
      if h.get (fNext r) = h.get (fCur r) then h
      else if h.on (fFading r) then h.swapForce s j c
      else h.swap s j c

/-! ## Restarts (R145, R146) -/

/-- The first label of the first BX that begins after the sample period in progress (R47, R107). -/
def Hub.nextBxLabel (h : Hub) : Nat :=
  let l := (h.label + 1) % labelSpan
  (l + l % 2) % labelSpan

/-- Clears the decimator of a channel; a fade keeps counting (R145, R149). -/
def Hub.restartChan (h : Hub) (n : Nat) : Hub :=
  let x := h.chan n
  let h := h.setChan n { x with
    integ := [0, 0, 0, 0, 0], comb := [0, 0, 0, 0, 0], cicN := 0, cicQ := false, outN := 0, comp := [] }
  let h := h.refreshFlt (n / 16) (n % 16)
  h.unsettleRec (n / 16) (n % 16) (h.get (FLT_SETTLE_REC n))

/-- Takes up ORDER and LOG2D. -/
def Hub.takeCrecCfg (h : Hub) : Hub :=
  let order := h.get CREC_CFG_ORDER + 3
  let k := h.get CREC_CFG_LOG2D
  let h := { h with crec := { h.crec with order := order, log2d := k } }
  ((h.put CREC_STATUS_ORDER_EFF (order - 3)).put CREC_STATUS_LOG2D_EFF k).put CREC_STATUS_PENDING 0

/-- What asks for a restart of the decimators, as `Crec.sched` codes it (R145, R146). -/
def reSync : Nat := 0
def reRestart : Nat := 1
def reApply : Nat := 2
def reLock : Nat := 3

/-- Restarts every decimator for the causes in `why` (R145, R146): a changed ORDER or LOG2D waits for any but the first
lock, RESTART ends with its own restart, and an apply alone leaves SYNCED. -/
def Hub.restartAll (h : Hub) (why : List Nat) : Hub :=
  let h := if why.all (· == reLock) then h else h.takeCrecCfg
  let h := h.forAll (List.range 384) Hub.restartChan
  let h := { h with crec := { h.crec with restarted := true } }
  let h := (h.wr CREC_BLOCK_COUNT.addr 0).putIf (why.contains reRestart) CREC_CTRL_RESTART 0
  if why.contains reSync then h.put CREC_STATUS_SYNCED 1
  else if why.all (· == reApply) then h
  else h.put CREC_STATUS_SYNCED 0

/-! ## Record blocks (R150 to R152) -/

/-- 16-bit entries packed two per word, the first in bits 15:0; an odd count ends with 0 (R150). -/
def pack16 : List Nat → List Nat
  | [] => []
  | [a] => [a]
  | a :: b :: t => (a + b * 2 ^ 16) :: pack16 t

/-- A channel is in the record blocks. -/
def Hub.inMask (h : Hub) (n : Nat) : Bool := bit (h.rd (CREC_CH_MASK (n / 32)).addr) (n % 32)

/-- The words of the record block of the sample presented now (R150, R151). -/
def Hub.recordWords (h : Hub) (lost resumed : Bool) : List Nat :=
  let chs := (List.range 384).filter fun n => h.inMask n && (h.chan n).recNew
  let vals := chs.map fun n => (h.chan n).recLast % 2 ^ 16
  let flags := (chs.filter fun n => (h.chan n).recLast / 2 ^ 28 != 0).map fun n =>
    (h.chan n).recLast / 2 ^ 28 * 2 ^ 12 + n
  let t := timeWord (h.labelBack 6)
  let w0 := h.get CREC_BLOCK_COUNT % 2 ^ 16 * 2 ^ 16 + (h.crec.order - 3) * 2 ^ 14 + h.crec.log2d * 2 ^ 10 +
    h.get CREC_CFG_SHIFT * 2 ^ 6 + b2n resumed * 2 ^ 5 + b2n lost * 2 ^ 4 +
    b2n (!h.on CREC_STATUS_SYNCED) * 2 ^ 3 + b2n h.crec.restarted * 2 ^ 2
  [w0, t % 2 ^ 32, t / 2 ^ 32, flags.length * 2 ^ 16 + chs.length] ++ pack16 vals ++ pack16 flags

/-- Any channel has produced a record value in this sample period. -/
def Hub.recordInstant (h : Hub) : Bool := (List.range 384).any fun n => (h.chan n).recNew

/-- Marks every record value of this instant as taken into a block. -/
def Hub.recordTaken (h : Hub) : Hub :=
  h.forAll (List.range 384) fun h n =>
    if (h.chan n).recNew then h.setChan n { h.chan n with recNew := false } else h

/-- A record block is assembled, counted, and sent or lost (R150, R152). -/
def Hub.recordBlock (h : Hub) : Hub :=
  if h.recordInstant then
    let full := 8 ≤ h.txLoad 9
    let en := h.on CREC_CFG_EN
    let words := h.recordWords h.crec.gap h.crec.resumed
    let h' := (h.recordTaken).inc CREC_BLOCK_COUNT
    let h' := { h' with crec := { h'.crec with restarted := false } }
    if !en then { h' with crec := { h'.crec with resumed := true } }
    else if full then
      { (h'.inc CREC_LOST_COUNT).set1 CREC_STATUS_LOST with crec := { h'.crec with gap := true } }
    else { h'.sendPlain 9 2 0 words with crec := { h'.crec with gap := false, resumed := false } }
  else h

end Sys2Proof.Machine
end

