-- ==== Sys2Proof/Machine/RingOps.lean ====
section
/-! DEFINITION. Health events (R84), the rings and hit stores (R162 to R167), window extraction and gap markers
(R186, R187), snapshot mode (R188, R189) and the ring scrub (R165). -/

namespace Sys2Proof.Machine

/-! ## Health (R84) -/

/-- A health transition of cell c of block j: the new state and its alarm record (R84). -/
def Hub.healthTo (h : Hub) (j c st : Nat) : Hub :=
  let h := h.put (CELL_HEALTH_STATE j c) st
  if st = 1 then h.raise 0x01 (whereCell j c) (h.rd (CELL_HEALTH j c).addr)
  else if st = 2 then h.raise 0x02 (whereCell j c) (h.rd (CELL_HEALTH j c).addr)
  else h

/-- An event that moves a GOOD cell to WATCH; it sets its CAUSE bit in any state (R84). -/
def Hub.healthWatch (h : Hub) (j c : Nat) (cause : RF) : Hub :=
  let h := h.set1 cause
  if h.health j c = 0 then h.healthTo j c 1 else h

/-! ## Ring (R162 to R164) -/

/-- An error found in a ring group: cell id, group 0 to 511, and whether it cannot be corrected (R164). -/
structure EccErr where
  cell : Nat
  group : Nat
  uncorr : Bool
  deriving DecidableEq, Repr

/-- A label joins the run it follows, or starts a run of its own: the count can jump at BX_SET (R42). -/
def extendRuns (runs : List (Nat × Nat)) (l : Nat) : List (Nat × Nat) :=
  match runs with
  | (a, n) :: t => if l = (a + n) % labelSpan then (a, n + 1) :: t else (l, 1) :: runs
  | [] => [(l, 1)]

/-- Commits the write buffer of a ring (R162). -/
def Ring.commit (r : Ring) : Ring :=
  { words := r.buf.foldl
      (fun m w => SMap.set (fun _ => (none : Option RingWord)) m (w.label % 2048) (some w)) r.words
    buf := []
    runs := r.buf.foldl (fun m w => extendRuns m w.label) r.runs
    newest := match r.buf.getLast? with | some w => some w.label | none => r.newest }

/-- The ring has committed label `l` since it last started (R187). -/
def Ring.wrote (r : Ring) (l : Nat) : Bool := r.runs.any fun p => aheadMod labelSpan l p.1 < p.2

/-- A delayed word is presented to a ring (R162); `resume` waits for a group boundary (R189). -/
def Ring.present (r : Ring) (w : RingWord) : Ring :=
  let r := { r with buf := r.buf ++ [w] }
  if w.label % 4 = 3 then r.commit else r

/-- What a ring gives for a label: the word and amplitude, or the cause of a gap (R163, R187). -/
inductive RingRead where
  | word (w a4 : Nat)
  | late
  | ecc
  | unwritten
  deriving DecidableEq, Repr

/-- Reads label `l` of a ring; `bad` tells that its group has an uncorrectable error (R163, R164, R187). -/
def Ring.read (r : Ring) (l : Nat) (bad : Bool) : RingRead :=
  if r.wrote l then
    match SMap.get (fun _ => (none : Option RingWord)) r.words (l % 2048) with
    | some w => if w.label = l then (if bad then .ecc else .word w.word w.a4) else .late
    | none => .late
  else .unwritten

/-- A ring starts again: earlier labels read UNWRITTEN (R187). -/
def Hub.restartRing (h : Hub) (id : Nat) : Hub := h.setRing id {}

/-- The snapshot state of a block: 0 IDLE, 1 ARMED, 2 RUNOUT, 3 FROZEN (R199). -/
def Hub.snapState (h : Hub) (j : Nat) : Nat := h.get (BLK_SNAP_STATUS_STATE j)

/-- The ring of cell c of block j takes the word with this label: the block is not frozen and does not wait for a group
boundary (R188, R189). -/
def Hub.ringTakes (h : Hub) (j c label : Nat) : Bool :=
  h.snapState j != 3 && !((h.blk j).resume && label % 4 != 0 && (h.ring (cellId j c)).buf.isEmpty)

/-- Presents a word to the ring of cell c of block j. -/
def Hub.ringPresent (h : Hub) (j c : Nat) (w : RingWord) : Hub :=
  if h.ringTakes j c w.label then h.setRing (cellId j c) ((h.ring (cellId j c)).present w) else h

/-- An ECC error of a ring or hit store counts against its cell (R164). An uncorrectable one moves a GOOD cell to WATCH
(R84); so it does for the spare, though R117 names its ring's ECC among what makes it SUSPECT (DESIGN CHOICE, log entry
49). -/
def Hub.eccCount (h : Hub) (e : EccErr) : Hub :=
  let j := e.cell / 17
  let c := e.cell % 17
  if e.uncorr then (h.inc (CELL_ECC_UNCORR j c)).healthWatch j c (CELL_HEALTH_CAUSE_ECC j c)
  else h.inc (CELL_ECC_CORR j c)

/-- The label at position 0 of a ring, as a time word (R166). -/
def Hub.ringPos0 (h : Hub) (j c : Nat) : Nat :=
  match (h.ring (cellId j c)).newest with
  | some l => timeWord l
  | none => 0

/-! ## Diagnostic reads and scrub (R165, R166) -/

/-- The label at position p of a ring. -/
def Ring.labelAt (r : Ring) (p : Nat) : Nat := (r.newest.getD 0 + labelSpan - p) % labelSpan

/-- The word a diagnostic read of position `p` delivers: the ring word, a gap marker for a group that cannot be
corrected, or a free value where nothing has been written. -/
def Hub.diagWordAt (h : Hub) (j c p : Nat) (bad : Bool) : Nat :=
  let r := h.ring (cellId j c)
  let free := (Config.diagWord (cellId j c * 2048 + p) h.clk.tick).toNat % 2 ^ 16
  match r.newest with
  | none => free
  | some _ =>
    match r.read (r.labelAt p) bad with
    | .word w _ => w
    | .ecc => 0x7FFF
    | .late => free
    | .unwritten => free

/-- The errors found in the group of one label of a cell's ring. -/
def errsAt (errs : List EccErr) (id l : Nat) : List EccErr :=
  errs.filter fun e => e.cell == id && e.group == l % 2048 / 4

/-- A diagnostic read of positions p and p + 1 of a ring is granted: the label of position 0 is copied, the errors of
the groups it reads count, and the words are delivered (R25, R164, R166). -/
def Hub.diagGrant (h : Hub) (j c p : Nat) (errs : List EccErr) : Hub × Nat :=
  let r := h.ring (cellId j c)
  let at_ := fun q => errsAt errs (cellId j c) (r.labelAt q)
  let word := fun q => h.diagWordAt j c q ((at_ q).any (·.uncorr))
  let found := if r.labelAt p / 4 = r.labelAt (p + 1) / 4 then at_ p else at_ p ++ at_ (p + 1)
  let g := (h.w64 (BLK_DIAG_LABEL j) (h.ringPos0 j c))
  (found.foldl Hub.eccCount g, word p + 2 ^ 16 * word (p + 1))

/-- A group of a ring has been written since the ring last started. -/
def Ring.groupWritten (r : Ring) (g : Nat) : Bool :=
  (SMap.get (fun _ => (none : Option RingWord)) r.words (4 * g)).isSome ||
  (SMap.get (fun _ => (none : Option RingWord)) r.words (4 * g + 3)).isSome

/-! ## Hit stores (R166, R167) -/

/-- A hit enters the hit store of a channel; the 256 newest stay (R166, R167). -/
def HitStore.add (s : HitStore) (x : Hit) : HitStore :=
  let l := x :: s.hits
  if l.length ≤ 256 then { s with hits := l }
  else
    let old := (l.getD 256 x).tw
    { hits := l.take 256
      gone := match s.gone with
        | some g => if notBefore old g then some old else some g
        | none => some old }

/-- Insertion of a hit in time order. -/
def insertHit (x : Hit) : List Hit → List Hit
  | [] => [x]
  | y :: t => if notBefore y.tw x.tw ∧ y.tw ≠ x.tw then x :: y :: t else y :: insertHit x t

def sortHits (l : List Hit) : List Hit := l.foldl (fun a x => insertHit x a) []

/-- The hits of a store with time words from `a` on and earlier than `b`, in time order (R206). -/
def HitStore.range (s : HitStore) (a b : Nat) : List Hit :=
  sortHits (s.hits.reverse.filter fun x => notBefore x.tw a && !notBefore x.tw b)

/-! ## Extraction (R186, R187) -/

/-- The window labels of a slot (R168). -/
def Slot.first (s : Slot) : Nat := (labelOf s.time + labelSpan - s.pre) % labelSpan
def Slot.size (s : Slot) : Nat := s.pre + s.post + 1
def Slot.labels (s : Slot) : List Nat := (List.range s.size).map fun i => (s.first + i) % labelSpan

/-- CELL_FORM, CELL_ZS and PED of channel n as they stood at the allocation cycle (R201). -/
def Slot.form (s : Slot) (n : Nat) : Nat := (s.forms.getD n (0, 0, 0)).1
def Slot.zs (s : Slot) (n : Nat) : Nat := (s.forms.getD n (0, 0, 0)).2.1
def Slot.ped (s : Slot) (n : Nat) : Int := (s.forms.getD n (0, 0, 0)).2.2

/-- A channel that extraction reads: a form is selected and ZS is not NEVER (R216). -/
def Slot.reads (s : Slot) (n : Nat) : Bool := bits (s.form n) 3 0 != 0 && bits (s.form n) 5 4 != 3

/-- A block takes part in an event: not dropped, frozen or failed (R208). -/
def Slot.takes (s : Slot) (j : Nat) : Bool := !bit s.drop j && !bit s.frozen j && !bit s.failed j

/-- The group holding the window's last label has been committed in ring `r` (R163, R186). -/
def Ring.reached (r : Ring) (last : Nat) : Bool :=
  r.wrote last ||
    match r.newest with
    | none => false
    | some n => labelGe n last

/-- A hit-store word with an error that cannot be corrected (R167): its channel and its place, newest first. -/
structure HitErr where
  chan : Nat
  place : Nat
  deriving DecidableEq, Repr

/-- A hit store without the words at some places (R167). -/
def HitStore.without (s : HitStore) (places : List Nat) : HitStore :=
  { s with hits := (List.range s.hits.length).zip s.hits |>.filterMap fun p =>
      if places.contains p.1 then none else some p.2 }

/-- Extraction of one channel (R186, R187): `errs` lists the groups with an error, `lost` the places of hit-store words
that could not be corrected: they are dropped, and the channel carries HIT_LOST (R167). -/
def Hub.extractChan (h : Hub) (s : Slot) (j c : Nat) (errs : List EccErr) (lost : List Nat) : ChanEvt :=
  let n := chanOf j c
  let r := h.ring (cellId j c)
  let reads := s.labels.map fun l =>
    r.read l (errs.any fun e => e.cell == cellId j c && e.group == l % 2048 / 4 && e.uncorr)
  let a := timeWord s.first
  let b := timeWord ((s.first + s.size) % labelSpan)
  let st := (h.hitStore n).without lost
  { samples := reads.map fun x => match x with | .word w a4 => some (w, a4) | _ => none
    late := reads.any (· == .late)
    ecc := reads.any (· == .ecc)
    unwritten := reads.any (· == .unwritten)
    hits := st.range a b
    hitLost := !lost.isEmpty || (match st.gone with | some g => notBefore g a | none => false) }

/-- Extraction of one block for a slot: windows and hits of every channel read, gaps and errors counted (R186,
R187, R190, R216). -/
def Hub.extractBlock (h : Hub) (k : Nat) (s : Slot) (j : Nat) (errs : List EccErr) (lost : List HitErr) : Hub :=
  let chs := (List.range 16).filter fun c => s.reads (chanOf j c)
  -- the hit-store words met with an error in the channels read
  let met := lost.filter fun e =>
    chs.any (fun c => chanOf j c == e.chan) && decide (e.place < (h.hitStore e.chan).hits.length)
  let data := chs.map fun c =>
    (chanOf j c, h.extractChan s j c errs ((met.filter fun e => e.chan == chanOf j c).map (·.place)))
  let s' := { s with
    extracted := s.extracted ||| 2 ^ j
    data := data.foldl (fun m p => SMap.set (fun _ => ({} : ChanEvt)) m p.1 p.2) s.data }
  let late := (data.filter fun p => p.2.late).length
  let h := h.w64 TRG_DT_LATE (h.r64 TRG_DT_LATE + late)
  let h := h.w64 (TRG_RGN_DT_LATE (j / 4)) (h.r64 (TRG_RGN_DT_LATE (j / 4)) + late)
  let mine := errs.filter fun e =>
    chs.any (fun c => e.cell == cellId j c) && s.labels.any (fun l => l % 2048 / 4 == e.group)
  let h := mine.foldl Hub.eccCount h
  let h := met.foldl (fun h e => h.eccCount ⟨cellId (e.chan / 16) (e.chan % 16), 0, true⟩) h
  (h.inc (BLK_EXTRACT_COUNT j)).setSlot k (some s')

/-! ## Snapshot mode (R188, R189) -/

/-- The freeze trigger of a block is fixed (R188); `due` is the first tick of the BX in which it is decided. -/
def Hub.snapTrigger (h : Hub) (src time due : Nat) : Hub :=
  h.forAll (List.range 24) fun h j =>
    if h.snapState j = 1 ∧ bit (h.get (BLK_SNAP_CFG j)) src then
      let b := h.blk j
      let h := h.setBlk j { b with
        snapTime := time
        snapFrom := due
        snapLabel := (labelOf time + h.get (BLK_SNAP_CFG_POST j)) % labelSpan }
      h.put (BLK_SNAP_STATUS_STATE j) 2
    else h

def Hub.snapArm (h : Hub) (j : Nat) : Hub :=
  if h.snapState j = 3 then h else h.put (BLK_SNAP_STATUS_STATE j) 1

def Hub.snapFreeze (h : Hub) (j : Nat) : Hub :=
  let l := h.ringPos0 j 0
  ((h.w64 (BLK_SNAP_LABEL j) l).w64 (BLK_SNAP_LAST j) l).put (BLK_SNAP_STATUS_STATE j) 3

/-- The 17 rings of a block start again (R187, R189, R505). -/
def Hub.restartRings (h : Hub) (j : Nat) : Hub :=
  h.forAll (List.range 17) fun h c => h.restartRing (cellId j c)

def Hub.snapRelease (h : Hub) (j : Nat) : Hub :=
  if h.snapState j = 3 then
    let h := (h.restartRings j).put (BLK_SNAP_STATUS_STATE j) 0
    h.setBlk j { h.blk j with resume := true }
  else h

/-- The block stops writing once the group holding T + POST has been committed and the BX that decides the trigger has
come (R188). -/
def Hub.snapFrozen (h : Hub) (j : Nat) : Hub :=
  let b := h.blk j
  if h.snapState j = 2 ∧ b.snapFrom ≤ h.clk.tick ∧ (h.ring (cellId j 0)).reached b.snapLabel then
    ((h.w64 (BLK_SNAP_LABEL j) b.snapTime).w64 (BLK_SNAP_LAST j) (h.ringPos0 j 0)).put (BLK_SNAP_STATUS_STATE j) 3
  else h

end Sys2Proof.Machine
end

