-- ==== Sys2Proof/Machine/TriggerOps.lean ====
section
/-! DEFINITION. Triggers: ACCEPT (R172), the trigger bus (R173, R174), the trellis (R175 to R181), event numbers and
slots (R183 to R185), dead time (R190, R191). -/

namespace Sys2Proof.Machine

/-- The number of BX counts. -/
def bxSpan : Nat := 2 ^ 48

/-- BX count `b` minus `n` (R10). -/
def bxBack (b n : Nat) : Nat := (b + bxSpan - n % bxSpan) % bxSpan

/-- TRG_COND_LAT in BX from the WHOLE in effect (R176). -/
def Hub.condLat (h : Hub) : Nat := (h.whole + 8) / 2 + 2

/-- R52 holds between a latency and a WHOLE: LAT ≥ (WHOLE + 72) / 2. -/
def latencyOk (lat whole : Nat) : Bool := whole + 72 ≤ 2 * lat

/-- Keeps TRG_COND_LAT and LAT_SHORT at what WHOLE gives (R170, R176). -/
def Hub.refreshLatency (h : Hub) : Hub :=
  (h.wr TRG_COND_LAT.addr h.condLat).put TRG_STATUS_LAT_SHORT (b2n (!latencyOk (h.get TRG_LATENCY_LAT) h.whole))

/-- The first tick of the BX in progress. -/
def Hub.bxTick (h : Hub) : Nat := h.clk.tick - h.clk.slot

/-- The first tick of the BX a fast command acts in (R333). -/
def Hub.actTick (h : Hub) : Nat := if h.clk.slot = 1 then h.clk.tick + 1 else h.clk.tick

/-- A trigger that is decided: time, CAUSE and rank in the order ACCEPT, bus, conditions (R184). -/
def Hub.pendTrigger (h : Hub) (t : PendTrig) : Hub := { h with trig := { h.trig with pend := h.trig.pend ++ [t] } }

/-- Event numbering advances by one (R172, R183). -/
def Hub.nextEvent (h : Hub) : Hub := h.inc TRG_EVT_NEXT

/-- An ACCEPT acts at the frame count in progress (R172): outside RUN it is no trigger, and only numbers advance. -/
def Hub.accept (h : Hub) : Hub :=
  let time := bxBack h.nextFrame (h.get TRG_LATENCY_LAT) * 2 ^ 16
  if !h.on TRG_CFG_ACC_EN then h.inc TRG_ACC_IGNORED
  else if h.inRun then (h.snapTrigger 0 time h.actTick).pendTrigger ⟨time, 1, 0, h.actTick⟩
  else if h.sampling then h.nextEvent
  else h

/-- The trigger bus is sampled high in the frame count in progress; the next BX decides it (R174). -/
def Hub.tbTrigger (h : Hub) : Hub :=
  { h with trig := { h.trig with
    tbHigh := h.clk.frame :: h.trig.tbHigh.take 255
    bus := h.trig.bus ++ [(h.bxTick + 2, h.clk.frame)] } }

/-- A high level sampled in frame count `f` is decided in the BX of tick `due`, under the settings of that BX: with
TB_RX_EN = 1 it is a bus trigger, which captures in STANDALONE and in RUN (R169, R171, R174, R188). -/
def Hub.busDecide (h : Hub) (due f : Nat) : Hub :=
  let time := bxBack f (h.get TRG_TB_TB_LAT) * 2 ^ 16
  if h.on TRG_CFG_MODE ∧ h.on TRG_CFG_TB_RX_EN ∧ h.sampling then
    let h := h.snapTrigger 1 time due
    if h.inRun then h.pendTrigger ⟨time, 2, 1, due⟩ else h
  else h

/-- The bus samples whose deciding BX has come are decided. -/
def Hub.busDue (h : Hub) : Hub :=
  let due := h.trig.bus.filter fun p => p.1 ≤ h.clk.tick
  let h := { h with trig := { h.trig with bus := h.trig.bus.filter fun p => !decide (p.1 ≤ h.clk.tick) } }
  due.foldl (fun h p => h.busDecide p.1 p.2) h

/-! ## Primitives of the trellis (R175) -/

/-- The block self-check of block j has failed (R122). -/
def Hub.blockFailed (h : Hub) (j : Nat) : Bool := h.on (BLK_STATUS_SELF_FAIL j)

/-- The hits of channel n with time words in BX `b`. -/
def Hub.hitsIn (h : Hub) (n b : Nat) : List Hit :=
  (h.hitStore n).hits.filter fun x => x.tw / 2 ^ 16 == b

/-- Hit of channel n in BX `b` (R175). -/
def Hub.hasHit (h : Hub) (n b : Nat) : Bool :=
  !h.blockFailed (n / 16) && h.on (CELL_TRG_HIT_EN (n / 16) (n % 16)) && !(h.hitsIn n b).isEmpty

/-- The estimate word of channel n for BX `b`, if the channel gave one. -/
def Hub.estOf (h : Hub) (n b : Nat) : Option Nat :=
  ((h.chan n).ests.find? fun p => p.1 == b).map (·.2)

/-- The value E of an estimate word. -/
def estE (w : Nat) : Int := sgn 20 w

/-- An estimate carries neither Q nor U. -/
def estClean (w : Nat) : Bool := bits w 31 30 == 0

/-- The estimates of block j for BX `b` that enter its sum or are left out (R175). -/
def Hub.sumEsts (h : Hub) (j b : Nat) : List Nat :=
  if h.blockFailed j then []
  else (List.range 16).filterMap fun c =>
    if h.on (CELL_TRG_SUM_EN j c) then h.estOf (chanOf j c) b else none

def Hub.blockSum (h : Hub) (j b : Nat) : Int := sumInt (((h.sumEsts j b).filter estClean).map estE)

/-- Region sum from the 24 block sums (R175). -/
def regionSum (sums : List Int) (r : Nat) : Int :=
  roundDiv (sumInt ((sums.drop (4 * r)).take 4)) 4

/-- Multiplicity of region r (R175). -/
def Hub.multiplicity (h : Hub) (r b : Nat) : Nat := countWhere 64 fun i => h.hasHit (64 * r + i) b

/-! ## Terms and conditions (R177, R178) -/

/-- Channel n is in mask set m. -/
def Hub.inChSet (h : Hub) (m n : Nat) : Bool := bit (h.rd (TRG_CHMASK m (n / 32)).addr) (n % 32)

/-- The channels of mask set m. -/
def Hub.chSet (h : Hub) (m : Nat) : List Nat := (List.range 384).filter (h.inChSet m)

/-- Term t of condition k for BX `b`: 0 when false; for channel terms 1 when true, for sum terms the mask of the
units that met THR (R177). -/
def Hub.termMask (h : Hub) (k t b : Nat) (sums : List Int) : Nat :=
  let m := h.get (TRG_C_TERM_MASKSEL k t)
  let unit := h.get (TRG_C_TERM_UNITMASK k t)
  let thr := sgn 24 (h.get (TRG_C_THR_THR k t))
  match h.get (TRG_C_TERM_TYPE k t) with
  | 0 => b2n ((h.chSet m).any fun n => h.hasHit n b)
  | 1 => b2n (thr ≤ (((h.chSet m).filter fun n => h.hasHit n b).length : Int))
  | 2 => b2n ((h.chSet m).any fun n => !h.blockFailed (n / 16) &&
      (match h.estOf n b with | some w => estClean w && thr ≤ estE w | none => false))
  | 3 => (List.range 24).foldl (fun a j =>
      if bit unit j ∧ thr ≤ sums.getD j 0 then a + 2 ^ j else a) 0
  | 4 => (List.range 6).foldl (fun a r => if bit unit r ∧ thr ≤ regionSum sums r then a + 2 ^ r else a) 0
  | _ => 0

/-- The terms enabled in condition k. -/
def Hub.termsOn (h : Hub) (k : Nat) : List Nat :=
  (List.range 4).filter fun t => bit (h.get (TRG_C_CFG_TERM_EN k)) t

/-- The unit masks of term t of condition k within B − COINC to B, newest first. -/
def Hub.termSpan (h : Hub) (k t : Nat) : List Nat :=
  (h.trig.term.getD (4 * k + t) []).take (h.get (TRG_C_CFG_COINC k) + 1)

/-- Condition k is met for the BX whose terms head the history (R178). -/
def Hub.condMet (h : Hub) (k : Nat) : Bool :=
  let on := h.termsOn k
  h.on (TRG_C_CFG_EN k) &&
  h.get (TRG_C_CFG_NEED k) + 1 ≤ (on.filter fun t => (h.termSpan k t).any (· != 0)).length &&
  on.any (fun t => (h.termSpan k t).head?.getD 0 != 0) &&
  !((h.trig.met.getD k []).take (h.get (TRG_C_CFG_HOLDOFF k))).any id

/-- The channels whose hits contribute through term t of condition k (R180), whatever HIT_EN (DEDUCED, log entry 55). -/
def Hub.termChans (h : Hub) (k t : Nat) : List Nat :=
  let span := h.termSpan k t
  if span.any (· != 0) then
    match h.get (TRG_C_TERM_TYPE k t) with
    | 3 => (List.range 384).filter fun n => span.any fun m => bit m (n / 16)
    | 4 => (List.range 384).filter fun n => span.any fun m => bit m (n / 64)
    | _ => h.chSet (h.get (TRG_C_TERM_MASKSEL k t))
  else []

/-- The earliest of a list of time words. -/
def earliest : List Nat → Option Nat
  | [] => none
  | a :: t =>
    match earliest t with
    | none => some a
    | some b => if notBefore b a then some a else some b

/-- The trigger time of condition k met for BX `b`, and whether no hit contributed (R180). -/
def Hub.condTime (h : Hub) (k b : Nat) : Nat × Bool :=
  let back := h.get (TRG_C_CFG_COINC k) + 8
  let from_ := bxBack b back * 2 ^ 16
  let upto := (b + 1) % bxSpan * 2 ^ 16
  let chs := ((h.termsOn k).flatMap fun t => h.termChans k t).filter fun n => !h.blockFailed (n / 16)
  let hits := chs.flatMap fun n =>
    ((h.hitStore n).hits.filter fun x => notBefore x.tw from_ && !notBefore x.tw upto).map (·.tw)
  match earliest hits with
  | some t => (t, false)
  | none => (b * 2 ^ 16, true)

/-- A drive of the bus that cannot come in time (R173). -/
def Hub.tbLate (h : Hub) : Hub := (h.inc TRG_TB_LATE_COUNT).set1 TRG_STATUS_TB_LATE

/-- A met condition counts, and in STANDALONE captures or drives the bus (R171, R173, R178, R188). -/
def Hub.condAct (h : Hub) (k b : Nat) : Hub :=
  let (time, noHit) := h.condTime k b
  let h := (h.inc (TRG_C_COUNT k)).snapTrigger (2 + k) time h.bxTick
  let alone := h.on TRG_CFG_MODE
  let h := if alone ∧ h.on TRG_CFG_TB_DRIVE_EN ∧ h.on (TRG_C_CFG_DRIVE k) then
      if h.condLat < h.get TRG_TB_TB_LAT then
        { h with trig := { h.trig with drive := h.trig.drive ++ [((b + h.get TRG_TB_TB_LAT) % bxSpan, k)] } }
      else h.tbLate
    else h
  if alone ∧ h.inRun ∧ h.on (TRG_C_CFG_CAPTURE k) ∧ !h.on (TRG_C_CFG_DRIVE k) then
    h.pendTrigger ⟨time, 2 ^ (2 + k) + b2n noHit * 2 ^ 10, 2 + k, h.bxTick⟩
  else h

/-! ## The trigger-sum record (R179) -/

/-- The 24 block sums as eighteen words (R179). -/
def packSums (sums : List Int) : List Nat :=
  let big := (List.range 24).foldl (fun a j => a + unsgn 24 (sums.getD j 0) * 2 ^ (24 * j)) 0
  (List.range 18).map fun i => big / 2 ^ (32 * i) % 2 ^ 32

/-- Bits of a predicate over 0 to n − 1. -/
def maskOf (n : Nat) (p : Nat → Bool) : Nat := (List.range n).foldl (fun a i => if p i then a + 2 ^ i else a) 0

/-- A hit of BX `b` used by a HIT or MULT term carried COLD. -/
def Hub.coldUsed (h : Hub) (b : Nat) : Bool :=
  (List.range 8).any fun k => h.on (TRG_C_CFG_EN k) && (h.termsOn k).any fun t =>
    h.get (TRG_C_TERM_TYPE k t) ≤ 1 &&
    (h.chSet (h.get (TRG_C_TERM_MASKSEL k t))).any fun n => h.hasHit n b && (h.hitsIn n b).any (·.cold)

/-- The trigger-sum record of BX `b` with the conditions met; LOST and NOSLOT join it as it is sent (R179). -/
def Hub.sumRecord (h : Hub) (b req : Nat) (sums : List Int) : List Nat :=
  let w0 := b % 2 ^ 16 * 2 ^ 16 + req * 2 ^ 8 + b2n (!h.on TIME_STATUS_BX_VALID) * 8 +
    b2n (h.coldUsed b) * 4 + b2n (h.trig.tbHigh.contains b) * 2
  let mult := (List.range 6).map fun r => h.multiplicity r b
  [w0, b / 2 ^ 16] ++ packSums sums ++
  [maskOf 24 (fun j => (h.sumEsts j b).any fun w => !estClean w),
   maskOf 24 (fun j => (h.sumEsts j b).any fun w => estClean w && bit w 29),
   mult.getD 0 0 + mult.getD 1 0 * 2 ^ 8 + mult.getD 2 0 * 2 ^ 16 + mult.getD 3 0 * 2 ^ 24,
   mult.getD 4 0 + mult.getD 5 0 * 2 ^ 8]

/-- The slots not allocated, lowest first. -/
def Hub.freeSlots (h : Hub) : List Nat := (List.range 128).filter fun k => (h.slot k).isNone

/-- Sends a trigger-sum record, or counts it lost at a full buffer of 8 records (R179). -/
def Hub.sendSum (h : Hub) (rec_ : List Nat) : Hub :=
  if 8 ≤ h.txLoad 0 then
    { (h.inc TRG_SUM_LOST).set1 TRG_STATUS_SUM_LOST with trig := { h.trig with sumGap := true } }
  else
    let w0 := rec_.headD 0 + b2n h.trig.sumGap * 16 + b2n h.freeSlots.isEmpty
    { h.sendPlain 0 0 0 (w0 :: rec_.tail) with trig := { h.trig with sumGap := false } }

/-- The record that waits for the allocations of its BX is sent (R179). -/
def Hub.sumOut (h : Hub) : Hub :=
  match h.trig.sum with
  | none => h
  | some rec_ => { h with trig := { h.trig with sum := none } }.sendSum rec_

/-- Conditions and sums for the label BX decided in the frame count in progress (R175 to R179). -/
def Hub.trellisDecision (h : Hub) : Hub :=
  let b := bxBack h.clk.frame h.condLat
  if !h.sampling ∨ h.trig.decided = some b then h
  else
    let sums := (List.range 24).map fun j => h.blockSum j b
    let masks := (List.range 32).map fun i => h.termMask (i / 4) (i % 4) b sums
    let term := (List.range 32).map fun i => masks.getD i 0 :: (h.trig.term.getD i []).take 15
    let h := { h with trig := { h.trig with term := term, decided := some b } }
    let met := (List.range 8).filter h.condMet
    let rec_ := h.sumRecord b (maskOf 8 fun k => met.contains k) sums
    let h := h.forAll met fun h k => h.condAct k b
    let h := { h with trig := { h.trig with
      met := (List.range 8).map fun k => met.contains k :: (h.trig.met.getD k []).take 254 } }
    if h.on TRG_CFG_SUM_EN then
      let h := h.sumOut
      { h with trig := { h.trig with sum := some rec_ } }
    else h

/-- The bus is driven in its BX, or the drive is missed and counted (R173). -/
def Hub.tbDrive (h : Hub) : Hub :=
  let due := h.trig.drive.filter fun d => d.1 == h.clk.frame
  let late := h.trig.drive.filter fun d => d.1 != h.clk.frame && aheadMod bxSpan h.clk.frame d.1 < 2 ^ 47
  let keep := h.trig.drive.filter fun d => d.1 != h.clk.frame && !(aheadMod bxSpan h.clk.frame d.1 < 2 ^ 47)
  let h := { h with trig := { h.trig with drive := keep, tbOut := h.trig.tbOut || !due.isEmpty } }
  late.foldl (fun h _ => h.tbLate) h

/-! ## Slots (R181, R184, R185, R190, R191) -/

/-- Merges a decided trigger into a list of triggers of different BX or with different trigger samples (R181). -/
def mergeTrig (t : PendTrig) : List PendTrig → List PendTrig
  | [] => [t]
  | u :: r =>
    if u.due = t.due ∧ labelOf u.time = labelOf t.time then
      let noHit := bit u.cause 10 && bit t.cause 10
      let src := (u.cause % 2 ^ 10) ||| (t.cause % 2 ^ 10)
      { u with
        time := if notBefore u.time t.time then t.time else u.time
        cause := src + b2n noHit * 2 ^ 10
        rank := min u.rank t.rank } :: r
    else u :: mergeTrig t r

/-- Order of R184: the deciding BX, then trigger time, then ACCEPT, bus, conditions. -/
def insertTrig (t : PendTrig) : List PendTrig → List PendTrig
  | [] => [t]
  | u :: r =>
    let before := if t.due ≠ u.due then decide (t.due < u.due)
      else if t.time ≠ u.time then notBefore u.time t.time else decide (t.rank < u.rank)
    if before then t :: u :: r
    else u :: insertTrig t r

/-- Keeps TRG_FREE_SLOTS and TRG_SLOT_BUSY at the allocation. -/
def Hub.refreshSlots (h : Hub) : Hub :=
  let h := h.wr TRG_FREE_SLOTS.addr h.freeSlots.length
  h.forAll (List.range 4) fun h i =>
    h.wr (TRG_SLOT_BUSY i).addr (maskOf 32 fun b => (h.slot (32 * i + b)).isSome)

/-- The dead-time summary word of region r, or of the chip for a NO_SLOT record (R191, R210). -/
def Hub.dtSum (h : Hub) (r : Option Nat) : Nat :=
  let late := match r with | some r => h.r64 (TRG_RGN_DT_LATE r) | none => h.r64 TRG_DT_LATE
  let buf := match r with | some r => h.r64 (TRG_RGN_DT_BUFFER r) | none => h.r64 TRG_DT_BUFFER
  h.r64 TRG_DT_NO_SLOT % 2 ^ 16 * 2 ^ 16 + late % 2 ^ 8 * 2 ^ 8 + buf % 2 ^ 8

/-- A header of stream 1 (R209); `flags` are bits 4 to 0 of word 2. -/
def eventHeader (evt time cause flags dtsum : Nat) : List Nat :=
  [evt, time / 2 ^ 16 % 2 ^ 32, time % 2 ^ 16 * 2 ^ 16 + cause % 2 ^ 11 * 2 ^ 5 + flags, dtsum]

/-- A trigger that finds no slot gives a NO_SLOT record or counts (R185, R210). -/
def Hub.noSlot (h : Hub) (evt : Nat) (t : PendTrig) : Hub :=
  if 64 ≤ h.txLoad 7 then (h.inc TRG_NOSLOT_LOST).set1 TRG_STATUS_NOSLOT_OVF
  else h.send 7 {
    stream := 1, source := 6, words := eventHeader evt t.time t.cause 16 (h.dtSum none), age := h.clk.tick }

/-- A leaf is present on spoke s (R367). -/
def Hub.leafPresent (h : Hub) (s : Nat) : Bool := h.on (LEAF_STATUS_PRESENT s)

/-- A new slot with the settings of the allocation cycle (R201). -/
def Hub.newSlot (h : Hub) (evt : Nat) (t : PendTrig) : Slot :=
  let incl := h.get EVT_LEAF_INCL_INCL
  { evt := evt
    time := t.time
    cause := t.cause
    pre := h.get TRG_WINDOW_PRE
    post := h.get TRG_WINDOW_POST
    born := h.clk.usec
    age := h.clk.tick
    forms := (List.range 384).map fun n =>
      (h.rd (CELL_FORM (n / 16) (n % 16)).addr, h.get (CELL_ZS_THR (n / 16) (n % 16)), pedNow (h.chan n).peds)
    formCfg := h.rd FORM_CFG.addr
    leafIncl := incl
    leafWin := h.rd EVT_LEAF_WIN.addr
    out := maskOf 6 fun r => (h.rgn r).out
    drop := maskOf 24 fun j => h.on (BLK_CTRL_DROP j)
    frozen := maskOf 24 fun j => h.snapState j == 3
    dtsum := (List.range 6).map (fun r => h.dtSum (some r)) ++ [h.dtSum none]
    rgn := List.replicate 6 .wait
    leaf := (List.range 16).map fun s => if bit incl s then .wait else .none
    leafOut := maskOf 16 fun s => bit incl s && !h.leafPresent s }

/-- One decided trigger is numbered and gets the lowest free slot, or none (R183, R184, R185). -/
def Hub.allocate (h : Hub) (t : PendTrig) : Hub :=
  let evt := h.get TRG_EVT_NEXT
  let h := (h.nextEvent).inc64 TRG_COUNT
  let h := ((h.wr TRG_LAST_CAUSE.addr t.cause).wr TRG_LAST_EVT.addr evt).w64 TRG_LAST_TIME t.time
  match h.freeSlots with
  | [] => h.noSlot evt t
  | k :: _ => h.setSlot k (some (h.newSlot evt t))

/-- The oldest allocated slot by event number (R10, R183). -/
def Hub.oldestSlot (h : Hub) : Option Slot :=
  ((List.range 128).filterMap h.slot).foldl (fun a s =>
    match a with
    | none => some s
    | some o => if aheadMod (2 ^ 32) o.evt s.evt < 2 ^ 31 then some s else some o) none

/-- The largest fragment of region r under its current settings, in words (R217). -/
def Hub.fragMax (h : Hub) (r : Nat) : Nat :=
  let n := h.get TRG_WINDOW_PRE + h.get TRG_WINDOW_POST + 1
  let any := fun (f : Nat) => b2n ((List.range 64).any fun i =>
    bit (h.rd (CELL_FORM ((64 * r + i) / 16) (i % 16)).addr) f)
  8 + any 3 * (2 + 32 * n) + any 2 * 66 + any 1 * 66 + any 0 * (3 + 64 * h.get FORM_CFG_HITS_MAX) + 192

/-- Region r is full (R217). -/
def Hub.bufFull (h : Hub) (r : Nat) : Bool := h.get (RGN_BUF_FREE_WORDS r) < h.fragMax r

/-- Dead time of the allocation cycle (R190). -/
def Hub.countDeadTime (h : Hub) : Hub :=
  let h := if h.freeSlots.isEmpty then
      let old := h.oldestSlot
      (h.inc64 TRG_DT_NO_SLOT).forAll (List.range 6) fun h r =>
        match old with
        | some s => if s.rgn.getD r .none = .sent then h else h.inc64 (TRG_RGN_DT_NO_SLOT r)
        | none => h
    else h
  let full := (List.range 6).filter h.bufFull
  let h := if full.isEmpty then h else h.inc64 TRG_DT_BUFFER
  h.forAll full fun h r => h.inc64 (TRG_RGN_DT_BUFFER r)

/-- The triggers decided up to now, merged and in order; outside RUN none of them captures (R171, R181, R184). -/
def Hub.decidedTriggers (h : Hub) : List PendTrig :=
  let due := if h.inRun then h.trig.pend.filter fun t => t.due ≤ h.clk.tick else []
  (due.foldl (fun a t => mergeTrig t a) []).foldl (fun a t => insertTrig t a) []

/-- The triggers decided up to now have had their allocation cycle. -/
def Hub.dropDecided (h : Hub) : Hub :=
  { h with trig := { h.trig with pend := h.trig.pend.filter fun t => !decide (t.due ≤ h.clk.tick) } }

/-- The allocation cycle of a BX (R179, R181, R184, R185, R190, R222). -/
def Hub.slotAllocation (h : Hub) : Hub :=
  let h := h.busDue
  let h := (h.decidedTriggers.foldl Hub.allocate h.dropDecided).refreshSlots
  let free := h.get TRG_FREE_SLOTS
  let h := (h.put TRG_STATUS_ALLOC_FULL (b2n (free == 0))).wr EVT_FREE_PUB.addr free
  h.sumOut.countDeadTime

/-- Loads TRG_EVT_PRESET (R183). -/
def Hub.evtLoad (h : Hub) : Hub := (h.wr TRG_EVT_NEXT.addr (h.get TRG_EVT_PRESET)).put TRG_CTRL_EVT_LOAD 0

/-- Clears all dead-time counters (R191). -/
def Hub.clearDeadTime (h : Hub) : Hub :=
  let h := ((h.w64 TRG_DT_NO_SLOT 0).w64 TRG_DT_LATE 0).w64 TRG_DT_BUFFER 0
  let h := h.forAll (List.range 6) fun h r =>
    ((h.w64 (TRG_RGN_DT_NO_SLOT r) 0).w64 (TRG_RGN_DT_LATE r) 0).w64 (TRG_RGN_DT_BUFFER r) 0
  h.put TRG_CTRL_CLR_DT 0

end Sys2Proof.Machine
end

