-- ==== Sys2Proof/Machine/EventOps.lean ====
section
/-! DEFINITION. Extraction starts (R186), forms and suppression (R202 to R208), fragments (R209 to R214, R217), units
sent, lag and slot release (R221, R223), closing (R224) and region reset (R225). -/

namespace Sys2Proof.Machine

/-! ## Order of events -/

/-- Event number `a` is older than `b` (R10, R183). -/
def evtBefore (a b : Nat) : Bool := a != b && aheadMod (2 ^ 32) b a < 2 ^ 31

/-- Slots allocated to events older than `evt`, with a property. -/
def Hub.olderSlot (h : Hub) (evt : Nat) (p : Slot → Bool) : Bool :=
  (List.range 128).any fun k =>
    match h.slot k with
    | some s => evtBefore s.evt evt && p s
    | none => false

/-! ## Extraction (R186, R216) -/

/-- The last label of a slot's window. -/
def Slot.last (s : Slot) : Nat := (s.first + s.size - 1) % labelSpan

/-- Block j extracts slot `s` now (R186, R216, R217). -/
def Hub.extractDue (h : Hub) (s : Slot) (j : Nat) : Bool :=
  !bit s.extracted j && !h.bufFull (j / 4) && !h.olderSlot s.evt (fun o => !bit o.extracted j) &&
  (List.range 16).all fun c => !s.reads (chanOf j c) || (h.ring (cellId j c)).reached s.last

/-- Block j takes its part of an event, or nothing when it is dropped, frozen or failed (R201, R208). -/
def Hub.extractPart (h : Hub) (k j : Nat) (errs : List EccErr) (lost : List HitErr) : Hub :=
  match h.slot k with
  | none => h
  | some s =>
    if bit s.extracted j then h
    else
      let s := if h.blockFailed j then { s with failed := s.failed ||| 2 ^ j } else s
      if !s.takes j then h.setSlot k (some { s with extracted := s.extracted ||| 2 ^ j })
      else if h.extractDue s j then h.extractBlock k s j errs lost
      else h.setSlot k (some s)

/-! ## Forms (R202 to R206) -/

/-- Fields of CELL_FORM and FORM_CFG as R201 fixes them. -/
def formNeg (f : Nat) : Bool := bit f 7
def formZs (f : Nat) : Nat := bits f 5 4
def cfgHitsMax (f : Nat) : Nat := bits f 21 16

/-- The delivered samples with their place in the window: place, 4 × A. -/
def ChanEvt.delivered (d : ChanEvt) : List (Nat × Nat) :=
  ((List.range d.samples.length).zip d.samples).filterMap fun (i, s) => s.map fun w => (i, w.2)

/-- The sample with the largest, or with `neg` the smallest, amplitude; on a tie the earliest (R204). -/
def peakSample (neg : Bool) : List (Nat × Nat) → Option (Nat × Nat)
  | [] => none
  | p :: t =>
    match peakSample neg t with
    | none => some p
    | some q => if (if neg then decide (p.2 ≤ q.2) else decide (q.2 ≤ p.2)) then some p else some q

/-- 4 × A of window sample `i`, if it was delivered. -/
def ChanEvt.at (d : ChanEvt) (i : Nat) : Option Nat := (d.samples.getD i none).map (·.2)

/-- 64 × δ of R204, rounded with ties toward positive infinity; 0 when a − 2 b + c = 0 (R547). -/
def peakDelta (a b c : Int) : Int :=
  let d := a - 2 * b + c
  if d = 0 then 0 else if d < 0 then roundDiv (-(32 * (a - c))) (-d) else roundDiv (32 * (a - c)) d

/-- The PEAK word and PEAK_EDGE (R204, R547). -/
def ChanEvt.peak (d : ChanEvt) (neg : Bool) : Nat × Bool :=
  match peakSample neg d.delivered with
  | none => (0, false)
  | some (k, a4) =>
    let word := fun (t : Int) => a4 % 2 ^ 20 * 2 ^ 12 + unsgn 12 t
    if k = 0 then (word 0, true)
    else
      match d.at (k - 1), d.at (k + 1) with
      | some a, some c => (word (64 * k + peakDelta a a4 c), false)
      | _, _ => (word (64 * k), true)

/-- The SUM word (R205). -/
def ChanEvt.sum (d : ChanEvt) (formCfg : Nat) (ped : Int) : Nat :=
  let a := d.delivered.map fun p => (p.2 : Int)
  let base :=
    if bit formCfg 1 then
      let l := a.take (2 ^ bits formCfg 9 8)
      if l.isEmpty then 0 else roundDiv (sumInt l) l.length
    else 524288 + ped
  unsgn 32 (sumInt (a.map fun x => x - base))

/-- A hit word (R206); `first` is the label of window sample 0. -/
def hitWord (ch first : Nat) (x : Hit) : Nat :=
  ch * 2 ^ 26 + b2n x.pile * 2 ^ 25 + b2n x.cold * 2 ^ 24 +
    (aheadMod labelSpan (labelOf x.tw) first * 2 ^ 14 + x.tw % 2 ^ 14) % 2 ^ 20

/-- Some delivered window sample carries Q. -/
def ChanEvt.hasQ (d : ChanEvt) : Bool := d.samples.any fun s => match s with | some w => bit w.1 14 | none => false

/-- Some window sample is a gap. -/
def ChanEvt.hasGap (d : ChanEvt) : Bool := d.samples.any (·.isNone)

/-- The gap mask of a channel, two words (R187, R213). -/
def ChanEvt.gapMask (d : ChanEvt) : List Nat :=
  let m := maskOf 64 fun i => d.samples.getD i (some (0, 0)) == none
  [m % 2 ^ 32, m / 2 ^ 32]

/-- The window words, gaps as 0x7FFF (R203). -/
def ChanEvt.window (d : ChanEvt) : List Nat := d.samples.map fun s => match s with | some w => w.1 | none => 0x7FFF

/-! ## Zero suppression (R207) -/

/-- A channel with settings `form`, `thr`, `ped` is kept. -/
def ChanEvt.kept (d : ChanEvt) (form thr : Nat) (ped : Int) (formCfg : Nat) : Bool :=
  let amp := d.delivered.any fun p =>
    let x := (p.2 : Int) - 524288 - ped
    (thr : Int) ≤ if formNeg form then -x else x
  let flagged := bit formCfg 0 && (d.hasQ || d.hasGap)
  match formZs form with
  | 0 => true
  | 1 => amp || flagged
  | 2 => amp || !d.hits.isEmpty || flagged
  | _ => false

/-! ## The fragment (R209, R211 to R214) -/

/-- What extraction delivered for channel n. -/
def Slot.chan (s : Slot) (n : Nat) : ChanEvt := SMap.get (fun _ => ({} : ChanEvt)) s.data n

/-- Channel index i of region r is present (R202, R207, R208). -/
def Slot.present (s : Slot) (r i : Nat) : Bool :=
  let n := 64 * r + i
  s.takes (n / 16) && s.reads n && (s.chan n).kept (s.form n) (s.zs n) (s.ped n) s.formCfg

/-- A 64-bit mask as two words. -/
def mask64 (p : Nat → Bool) : List Nat := let m := maskOf 64 p; [m % 2 ^ 32, m / 2 ^ 32]

/-- A section: its mask and data, or nothing when no present channel has the form (R211, R212). -/
def section_ (sel : Nat → Bool) (data : List Nat) : List Nat :=
  if (List.range 64).any sel then mask64 sel ++ data else []

/-- The flag entry of a present channel, if it has a flag (R213). -/
def Slot.flagEntry (s : Slot) (r i : Nat) : List Nat :=
  let n := 64 * r + i
  let d := s.chan n
  let f := s.form n
  let gap := d.hasGap
  let hits := bit f 0
  let lost := hits && d.hitLost
  let trunc := hits && decide (cfgHitsMax s.formCfg < d.hits.length)
  let edge := bit f 2 && (d.peak (formNeg f)).2
  if d.hasQ || gap || lost || trunc || edge then
    [i * 2 ^ 26 + b2n d.hasQ * 2 ^ 25 + b2n gap * 2 ^ 24 + b2n d.late * 2 ^ 23 + b2n d.ecc * 2 ^ 22 +
      b2n d.unwritten * 2 ^ 21 + b2n lost * 2 ^ 20 + b2n trunc * 2 ^ 19 + b2n edge * 2 ^ 18] ++
    (if gap then d.gapMask else [])
  else []

/-- The body of a region fragment (R211). -/
def Slot.body (s : Slot) (r : Nat) : List Nat :=
  let pres := fun i => s.present r i
  let sel := fun (b : Nat) (i : Nat) => pres i && bit (s.form (64 * r + i)) b
  let chs := fun (b : Nat) => (List.range 64).filter (sel b)
  let win := section_ (sel 3) (pack16 ((chs 3).flatMap fun i => (s.chan (64 * r + i)).window))
  let peak := section_ (sel 2) ((chs 2).map fun i => ((s.chan (64 * r + i)).peak (formNeg (s.form (64 * r + i)))).1)
  let sum := section_ (sel 1) ((chs 1).map fun i => (s.chan (64 * r + i)).sum s.formCfg (s.ped (64 * r + i)))
  let hitWords := (chs 0).flatMap fun i =>
    ((s.chan (64 * r + i)).hits.take (cfgHitsMax s.formCfg)).map (hitWord i s.first)
  let hits := section_ (sel 0) (hitWords.length :: hitWords)
  let entries := ((List.range 64).filter pres).map (s.flagEntry r)
  let flags := (entries.filter fun e => !e.isEmpty).length :: entries.flatten
  let rest := win ++ peak ++ sum ++ hits ++ flags
  let blocks := fun (m : Nat) => m / 2 ^ (4 * r) % 16
  let state := blocks s.drop * 2 ^ 28 + blocks s.failed * 2 ^ 24 + blocks s.frozen * 2 ^ 20 +
    b2n (!win.isEmpty) * 2 ^ 19 + b2n (!peak.isEmpty) * 2 ^ 18 + b2n (!sum.isEmpty) * 2 ^ 17 +
    b2n (!hits.isEmpty) * 2 ^ 16 + rest.length
  mask64 pres ++ [state] ++ rest

/-- Flags of a header: NO_SLOT, OUT, CLOSED, LAG (R209). -/
def headerFlags (out closed lag : Bool) : Nat := b2n out * 8 + b2n closed * 4 + b2n lag * 2

/-- The words of a fragment of region r (R209, R214). -/
def Slot.fragment (s : Slot) (r : Nat) (closed lag : Bool) : List Nat :=
  let out := bit s.out r
  eventHeader s.evt s.time s.cause (headerFlags out closed lag) (s.dtsum.getD r 0) ++
    if out || closed then [] else s.body r

/-! ## Assembly (R217) -/

/-- The slot of the region's oldest event not yet assembled. -/
def Hub.oldestWait (h : Hub) (r : Nat) : Option (Nat × Slot) :=
  ((List.range 128).filterMap fun k => (h.slot k).map fun s => (k, s)).foldl (fun a p =>
    if p.2.rgn.getD r .none ≠ .wait then a
    else match a with
      | none => some p
      | some o => if evtBefore p.2.evt o.2.evt then some p else some o) none

/-- Sets the state of region r's unit in a slot. -/
def Slot.setRgn (s : Slot) (r : Nat) (u : UnitState) : Slot := { s with rgn := s.rgn.set r u }
def Slot.setLeaf (s : Slot) (p : Nat) (u : UnitState) : Slot := { s with leaf := s.leaf.set p u }

/-- Unit u leaves before unit v of the same source: by event number, then for leaf fragments by spoke (R215, R219). -/
def unitBefore (u v : TxUnit) : Bool :=
  evtBefore (u.words.getD 0 0) (v.words.getD 0 0) ||
    (u.words.getD 0 0 == v.words.getD 0 0 && u.source == 7 && decide (u.buf % 16 < v.buf % 16))

/-- A unit of an event enters its source's order (R219). -/
def insertUnit (u : TxUnit) : List TxUnit → List TxUnit
  | [] => [u]
  | v :: t =>
    if v.lane.isNone ∧ v.slot.isSome ∧ unitBefore u v then u :: v :: t
    else v :: insertUnit u t

def Hub.sendEvent (h : Hub) (k : Nat) (u : TxUnit) : Hub := h.setTx k (insertUnit u (h.txOf k))

/-- The four blocks of region r have delivered their part of slot `s`. -/
def Slot.extractedIn (s : Slot) (r : Nat) : Bool := bits s.extracted (4 * r + 3) (4 * r) = 15

/-- The region assembles the fragment of its oldest event not yet assembled (R214, R217). -/
def Hub.fragmentAssembly (h : Hub) (r : Nat) : Hub :=
  match h.oldestWait r with
  | none => h
  | some (k, s) =>
    if h.bufFull r ∨ (!bit s.out r ∧ !s.extractedIn r) then h
    else
      let words := s.fragment r false (h.on (RGN_STATUS_LAG r))
      let h := h.setSlot k (some (s.setRgn r .built))
      let h := h.put (RGN_BUF_FREE_WORDS r) (h.get (RGN_BUF_FREE_WORDS r) - words.length)
      h.sendEvent (1 + r) {
        stream := 1, source := r, words := words, slot := some k, age := s.age, buf := words.length }

/-! ## Lag (R223) -/

/-- Region r is in service for an event (R223). -/
def Hub.inService (h : Hub) (r : Nat) : Bool := !h.on (RGN_CTRL_OUT r)

/-- Events every other in-service region has sent and region r has not. -/
def Hub.lagOf (h : Hub) (r : Nat) : Nat :=
  countWhere 128 fun k =>
    match h.slot k with
    | none => false
    | some s => s.rgn.getD r .none != .sent &&
        (List.range 6).all fun q => q == r || !h.inService q || s.rgn.getD q .none == .sent

/-- Keeps RGN_LAG and LAG of region r; a setting of LAG raises an alarm. -/
def Hub.refreshLag (h : Hub) (r : Nat) : Hub :=
  let n := h.lagOf r
  let limit := h.get EVT_LAG_LIMIT_LIMIT
  let h := h.put (RGN_LAG_EVENTS r) n
  if h.on (RGN_STATUS_LAG r) then h.putIf (n ≤ limit / 2) (RGN_STATUS_LAG r) 0
  else if limit < n then (h.put (RGN_STATUS_LAG r) 1).raise 0x05 (whereRgn r) n
  else h

def Hub.refreshLags (h : Hub) : Hub := h.forAll (List.range 6) Hub.refreshLag

/-! ## Units sent and slots released (R221) -/

/-- Removes the first unit of a list whose end has been handed over. -/
def takeSent : List TxUnit → Option (TxUnit × List TxUnit)
  | [] => none
  | u :: t =>
    if u.ended then some (u, t)
    else (takeSent t).map fun (v, r) => (v, u :: r)

/-- The unit of an event has been sent. -/
def Hub.eventUnitSent (h : Hub) (k : Nat) (u : TxUnit) : Hub :=
  match u.slot with
  | none => h
  | some i =>
    match h.slot i with
    | none => h
    | some s =>
      if 1 ≤ k ∧ k ≤ 6 then
        let r := k - 1
        let h := h.setSlot i (some (s.setRgn r .sent))
        let h := h.put (RGN_BUF_FREE_WORDS r) (h.get (RGN_BUF_FREE_WORDS r) + u.buf)
        ((h.put (RGN_LAST_EVT_EVENT r) s.evt).inc64 (RGN_FRAG_COUNT r)).refreshLags
      else if k = 8 then h.setSlot i (some (s.setLeaf (u.buf % 16) .sent))
      else h

/-- A unit of requester `k` is sent (R221); a reply other than FULL ends its request (R343). -/
def Hub.unitSent (h : Hub) (k : Nat) : Hub :=
  match takeSent (h.txOf k) with
  | none => h
  | some (u, rest) =>
    let h := (h.setTx k rest).eventUnitSent k u
    if k = 7 then h.inc64 EVT_NOSLOT_SENT
    else if k = 12 ∧ !bit (u.words.getD 1 0) 26 then
      h.wr DL_OUTSTANDING.addr (h.rd DL_OUTSTANDING.addr - 1)
    else h

/-- Every unit of a slot has been sent (R220, R221). -/
def Slot.done (s : Slot) : Bool := s.rgn.all (· == .sent) && s.leaf.all fun u => u == .sent || u == .none

/-- The release handshake of a slot completes (R221). -/
def Hub.slotRelease (h : Hub) (k : Nat) : Hub :=
  match h.slot k with
  | none => h
  | some s =>
    if s.done then (((h.setSlot k none).inc64 EVT_RELEASED).refreshSlots).refreshLags else h

/-! ## Closing (R224, R225) -/

/-- A unit that has not started. -/
def UnitState.unstarted (u : UnitState) : Bool := u == .wait || u == .built

/-- Removes the unit of slot `i` from a list of units. -/
def dropUnit (i : Nat) (p : TxUnit → Bool) (l : List TxUnit) : List TxUnit :=
  l.filter fun u => !(u.slot == some i && p u)

/-- The header-only CLOSED unit of region r takes the place of its unit for slot `i` (R224). -/
def Hub.closeRegionUnit (h : Hub) (i r : Nat) : Hub :=
  match h.slot i with
  | none => h
  | some s =>
    if (s.rgn.getD r .none).unstarted then
      let held := (((h.txOf (1 + r)).filter fun u => u.slot == some i).map (·.buf)).foldl (· + ·) 0
      let h := h.put (RGN_BUF_FREE_WORDS r) (h.get (RGN_BUF_FREE_WORDS r) + held)
      let h := h.setTx (1 + r) (dropUnit i (fun _ => true) (h.txOf (1 + r)))
      let h := h.setSlot i (some (s.setRgn r .built))
      let h := ((h.inc EVT_CLOSED_COUNT).set1 EVT_STATUS_CLOSED).set1 (RGN_STATUS_CLOSED r)
      h.sendEvent (1 + r) {
        stream := 1, source := r, words := s.fragment r true (h.on (RGN_STATUS_LAG r)), slot := some i, age := s.age }
    else h

/-- The header of a leaf fragment, whose DTSUM has the layout of a NO_SLOT record (R210, R215, R378). -/
def Slot.leafHeader (s : Slot) (flags : Nat) : List Nat :=
  eventHeader s.evt s.time s.cause flags (s.dtsum.getD 6 0)

/-- The header-only CLOSED leaf fragment of spoke p takes the place of its unit for slot `i` (R224). -/
def Hub.closeLeafUnit (h : Hub) (i p : Nat) : Hub :=
  match h.slot i with
  | none => h
  | some s =>
    if (s.leaf.getD p .none).unstarted then
      let h := h.setTx 8 (dropUnit i (fun u => u.buf % 16 == p) (h.txOf 8))
      let h := h.setSlot i (some (s.setLeaf p .built))
      let h := (h.inc EVT_CLOSED_COUNT).set1 EVT_STATUS_CLOSED
      h.sendEvent 8 {
        stream := 1, source := 7, words := s.leafHeader (headerFlags (bit s.leafOut p) true false), slot := some i
        age := s.age, buf := p }
    else h

/-- EVT_SLOT_TIMEOUT, in ms, has passed since the slot's allocation (R224). -/
def Hub.slotExpired (h : Hub) (s : Slot) : Bool := s.born + 1000 * h.get EVT_SLOT_TIMEOUT_MS ≤ h.clk.usec

/-- An event that has exceeded its timeout is closed, once: nothing more is extracted for it (R224). -/
def Hub.eventClose (h : Hub) (k : Nat) : Hub :=
  match h.slot k with
  | none => h
  | some s =>
    if s.closed ∨ !h.slotExpired s then h
    else
      let h := h.setSlot k (some { s with closed := true, data := [], extracted := 2 ^ 24 - 1 })
      let h := h.forAll (List.range 6) fun h r => h.closeRegionUnit k r
      h.forAll (List.range 16) fun h p => h.closeLeafUnit k p

/-- RGN_CTRL.OUT takes effect (R225). -/
def Hub.takeOut (h : Hub) (r : Nat) : Hub := h.setRgn r { h.rgn r with out := h.on (RGN_CTRL_OUT r) }

/-- RGN_CTRL.RESET is requested (R225). -/
def Hub.regionReset (h : Hub) (r : Nat) : Hub :=
  (h.set1 (RGN_CTRL_RESET r)).setRgn r { h.rgn r with resetPending := true }

/-- A fragment of region r has started and is not sent. -/
def Hub.fragmentOpen (h : Hub) (r : Nat) : Bool :=
  (List.range 128).any fun k => match h.slot k with | some s => s.rgn.getD r .none == .started | none => false

/-- The fragment buffer and the blocks' extracted data are discarded and every event whose fragment has not started
gets a CLOSED header-only fragment (R225). -/
def Hub.regionDiscard (h : Hub) (r : Nat) : Hub :=
  let h := h.forAll (List.range 128) fun h k => h.closeRegionUnit k r
  let h := h.forAll (List.range 128) fun h k =>
    match h.slot k with
    | none => h
    | some s => h.setSlot k (some { s with
        data := s.data.filter fun p => p.1 / 64 != r
        extracted := s.extracted ||| (15 * 2 ^ (4 * r)) })
  h.put (RGN_BUF_FREE_WORDS r) 65536

end Sys2Proof.Machine
end

