-- ==== Sys2Proof/Machine/ReplyOps.lean ====
section
/-! DEFINITION. Replies of the control channel (R343, R344) and the results of accesses that a leaf answers later
(R369 to R371). -/

namespace Sys2Proof.Machine

/-- The index of the first result that gave VOID, 0 if none did (R343). -/
def voidFirst : List (Option (Nat × Bool)) → Nat → Nat
  | [], _ => 0
  | some (_, true) :: _, i => i
  | _ :: t, i => voidFirst t (i + 1)

/-- The number of results without VOID (R343). -/
def doneCount (l : List (Option (Nat × Bool))) : Nat :=
  (l.filter fun r => match r with | some (_, v) => !v | none => false).length

/-- Some result gave VOID. -/
def anyVoid (l : List (Option (Nat × Bool))) : Bool := l.any fun r => match r with | some (_, v) => v | none => false

/-- Every result is there. -/
def allDone (l : List (Option (Nat × Bool))) : Bool := l.all Option.isSome

/-- The header word of a reply (R343). -/
def Hub.replyHeader (h : Hub) (mode tag len : Nat) : Nat :=
  9 * 2 ^ 28 + mode * 2 ^ 26 + h.get DL_GROUPS_HUB_ADDR * 2 ^ 18 + tag * 2 ^ 8 + len

/-- The words of a reply (R343). -/
def Hub.replyWords (h : Hub) (r : DlReply) : List Nat :=
  match r.refused with
  | some flag => [h.replyHeader r.mode r.tag 1, 2 ^ flag]
  | none =>
  let data := if r.isRead then r.results.map fun x => (x.getD (0, true)).1 else []
  let status := b2n (anyVoid r.results) * 2 ^ 31 + b2n r.stale * 2 ^ 30 + b2n r.replayed * 2 ^ 29
    + voidFirst r.results 0 * 2 ^ 8 + doneCount r.results
  h.replyHeader r.mode r.tag (1 + data.length) :: status :: data

/-- Sends the replies at the head of the list that are complete; they leave in order of their requests (R343). -/
def Hub.sendReplies (h : Hub) : List DlReply → Hub
  | [] => { h with lom := { h.lom with replies := [] } }
  | r :: t =>
    if allDone r.results then (h.sendOut 12 5 0 (h.replyWords r)).sendReplies t
    else { h with lom := { h.lom with replies := r :: t } }

/-- Sends what can be sent. -/
def Hub.flushReplies (h : Hub) : Hub := h.sendReplies h.lom.replies

/-- A request has been executed, or waits for leaves or a keeper: its reply takes its place in the order. -/
def Hub.pushReply (h : Hub) (r : DlReply) : Hub :=
  { h with lom := { h.lom with replies := h.lom.replies ++ [r] } }.flushReplies

/-- The reply to a request refused at 96 outstanding: it is sent at once, outside the order (R343). -/
def Hub.replyFull (h : Hub) (mode tag : Nat) : Hub :=
  ((h.inc DL_CTL_FULL).set1 DL_CTL_STATUS_FULL).sendOut 12 5 0 [h.replyHeader mode tag 1, 2 ^ 26]

/-- Sets one result of a list. -/
def setResult (l : List (Option (Nat × Bool))) (pos : Nat) : List (Nat × Bool) → List (Option (Nat × Bool))
  | [] => l
  | r :: t => setResult (l.set pos (some r)) (pos + 1) t

/-! ## The serial port's status word (R436, R439) -/

/-- The status word of a transaction (R436); `shared` is PORT_STATUS.MODE. -/
def portStatus (t : PortTxn) (shared late : Bool) : Nat :=
  b2n (anyVoid t.results) * 2 ^ 31 + b2n t.stale * 2 ^ 30 + b2n t.denied * 2 ^ 28
    + b2n (late && !shared) * 2 ^ 25 + b2n (late && shared) * 2 ^ 24
    + b2n t.prevCut * 2 ^ 23 + b2n t.prevOver * 2 ^ 22
    + voidFirst t.results 0 * 2 ^ 9 + doneCount t.results

/-- Writes the true status word of an ended transaction to PORT_LAST_STATUS (R439). -/
def Hub.portFinish (h : Hub) : Hub :=
  match h.port.txn with
  | none => h
  | some t =>
    match t.ended with
    | none => h
    | some late =>
      let shared := h.on PORT_STATUS_MODE
      let h := h.wr PORT_LAST_STATUS.addr (portStatus t shared late)
      let h := if late then h.set1 (if shared then PORT_STATUS_BUSY_SENT else PORT_STATUS_UNDERRUN) else h
      { h with port := { h.port with txn := none } }

/-- An ended transaction is finished once every register of it has its result. -/
def Hub.portSettle (h : Hub) : Hub :=
  match h.port.txn with
  | some t => if t.ended.isSome ∧ allDone t.results then h.portFinish else h
  | none => h

/-- Who waits for the results of master m's access. -/
def whoOf (m : Nat) : LeafFor := if m = 0 then .downlink else if m = 1 then .port else .keeper

/-- Results of a port transaction's registers reach the port (R436, R437). -/
def Hub.portResults (h : Hub) (access pos : Nat) (rs : List (Nat × Bool)) : Hub :=
  match h.port.txn with
  | some t =>
    if t.access = access then
      { h with port := { h.port with txn := some { t with results := setResult t.results pos rs } } }.portSettle
    else h
  | none => h

/-- The port agent has results of a transaction: the words read cross to the port through the PORT_OUT queue (R18, R484). -/
def Hub.portAnswer (h : Hub) (access pos : Nat) (rs : List (Nat × Bool)) : Hub :=
  if h.port.txn.any (·.isRead) then
    let (h, now) := h.qCross 3 (rs.map (·.1)) (.results access pos rs)
    if now then h.portResults access pos rs else h
  else h.portResults access pos rs

/-- Results of registers `pos` on of an access of the control channel or the port. -/
def Hub.resolve (h : Hub) (who : LeafFor) (access pos : Nat) (rs : List (Nat × Bool)) : Hub :=
  match who with
  | .downlink =>
    { h with lom := { h.lom with replies := h.lom.replies.map fun (r : DlReply) =>
      if r.access = access then { r with results := setResult r.results pos rs } else r } }.flushReplies
  | .port => h.portAnswer access pos rs
  | .keeper => h
  | .bcast => h

/-- The request of an access carries STALE (R345, R448). -/
def Hub.markStale (h : Hub) (who : LeafFor) (access : Nat) : Hub :=
  match who with
  | .downlink =>
    { h with lom := { h.lom with replies := h.lom.replies.map fun (r : DlReply) =>
      if r.access = access then { r with stale := true } else r } }
  | .port =>
    match h.port.txn with
    | some t => if t.access = access then { h with port := { h.port with txn := some { t with stale := true } } } else h
    | none => h
  | .keeper => h
  | .bcast => h

/-- A keeper command of the access was executed under REPLAYED (R343, R473). -/
def Hub.markReplayed (h : Hub) (who : LeafFor) (access : Nat) : Hub :=
  match who with
  | .downlink =>
    { h with lom := { h.lom with replies := h.lom.replies.map fun (r : DlReply) =>
      if r.access = access then { r with replayed := true } else r } }
  | .port => h.set1 KPR_STATUS_PORT_REPLAYED
  | .keeper => h
  | .bcast => h

end Sys2Proof.Machine
end

