-- ==== Sys2Proof/Machine/ArbOps.lean ====
section
/-! DEFINITION. The block arbiter (R165, R166, R216, R230) and the region arbiter (R217): extraction, calibration,
diagnostic and scrub reads of the rings, and assembly and diagnostic reads of the fragment buffers, in the order of
R13. A grant always moves the pointer of its arbiter past the winner (DESIGN CHOICE, log entry 40). -/

namespace Sys2Proof.Machine

/-! ## Requests of the block arbiter (R216) -/

/-- The age of the extraction that requests a grant of block j: the accept of its oldest event not yet extracted. -/
def Hub.extractReq (h : Hub) (j : Nat) : Option Nat :=
  (((List.range 128).filterMap h.slot).find? fun s => s.takes j && h.extractDue s j).map (·.age)

/-- Age and place in the pointer order of a ring read: 1 calibration, 3 diagnostic. -/
def ArbRead.req (r : ArbRead) : Nat × Nat := (r.age, if r.diag.isSome then 3 else 1)

/-- The waiting ring read of block j that comes first. -/
def Hub.nextRead (h : Hub) (j : Nat) : Option ArbRead :=
  (h.blk j).reads.foldl (fun a r =>
    match a with
    | none => some r
    | some q => if arbBefore 4 (h.blk j).arbPtr r.req q.req then some r else some q) none

/-- A ring read wins over the extraction of its block (R13, R165). -/
def Hub.readWins (h : Hub) (j : Nat) (r : ArbRead) : Bool :=
  match h.extractReq j with
  | none => true
  | some age => arbBefore 4 (h.blk j).arbPtr r.req (age, 0)

/-- `n` event clocks pass in which the reads of block j wait (R230). -/
def Hub.readsWait (h : Hub) (j n : Nat) : Hub :=
  if (h.blk j).reads.isEmpty then h
  else h.put (BLK_ARB_WAIT_CYCLES j) (min (2 ^ 32 - 1) (h.get (BLK_ARB_WAIT_CYCLES j) + n))

/-- A ring read is granted, and a diagnostic read answers its master (R166); the others wait one event clock. -/
def Hub.grantRead (h : Hub) (j : Nat) (errs : List EccErr) (r : ArbRead) : Hub :=
  let b := h.blk j
  let h := h.setBlk j { b with reads := b.reads.erase r, arbPtr := (r.req.2 + 1) % 4 }
  let h := h.readsWait j 1
  match r.diag with
  | none => h
  | some (m, access, pos, p) =>
    let (h, v) := h.diagGrant j r.cell p errs
    h.resolve (whoOf m) access pos [(v, false)]

/-- The waiting reads of block j that win are granted in order; `all`: the diagnostic reads too. -/
def Hub.grantReads (j : Nat) (errs : List EccErr) (all : Bool) : Nat → Hub → Hub
  | 0, h => h
  | n + 1, h =>
    match h.nextRead j with
    | none => h
    | some r => if h.readWins j r && (all || r.diag.isNone) then Hub.grantReads j errs all n (h.grantRead j errs r) else h

/-- The calibration reads of block j that win are granted. -/
def Hub.grantCals (h : Hub) (j : Nat) : Hub := Hub.grantReads j [] false (h.blk j).reads.length h

/-- A ring read of block j is raised. A diagnostic read waits for the event clock that grants it. -/
def Hub.raiseRead (h : Hub) (j : Nat) (r : ArbRead) : Hub :=
  (h.setBlk j { h.blk j with reads := (h.blk j).reads ++ [r] }).grantCals j

/-- The engine of block j reads a step result back from the scratch area behind the ring port (R216, R287). -/
def Hub.calRead (h : Hub) (j c : Nat) : Hub := h.raiseRead j { age := h.clk.tick, cell := c }

/-! ## Grants of the block arbiter (R165, R166, R186) -/

/-- An event clock in which a diagnostic read of block j requests: it is granted, or waits (R166, R216, R230). -/
def Hub.diagRead (h : Hub) (j : Nat) (errs : List EccErr) : Hub :=
  match h.nextRead j with
  | none => h
  | some r => if h.readWins j r then (h.grantRead j errs r).grantCals j else h.readsWait j 1

/-- The ring groups that the extraction of slot `s` reads in block j, one grant each (R216). -/
def Slot.grants (s : Slot) (j : Nat) : Nat :=
  countWhere 16 (fun c => s.reads (chanOf j c)) * ((s.first % 4 + s.size + 3) / 4)

/-- Block j takes its part of the event of slot `k` in one command: reads raised before the accept go first, the others
wait (R165; DESIGN CHOICE, log entry 56). -/
def Hub.extractTurn (h : Hub) (k j : Nat) (errs : List EccErr) (lost : List HitErr) : Hub :=
  match h.slot k with
  | none => h
  | some s =>
    if !(s.takes j && h.extractDue s j) then h.extractPart k j errs lost
    else
      let h := Hub.grantReads j errs true (h.blk j).reads.length h
      let h := h.extractPart k j errs lost
      let h := (h.setBlk j { h.blk j with arbPtr := 1 }).readsWait j (s.grants j)
      h.grantCals j

/-- The blocks extract the event of slot `k` (R186). -/
def Hub.extractionStart (h : Hub) (k : Nat) (errs : List EccErr) (lost : List HitErr) : Hub :=
  h.forAll (List.range 24) fun h j => h.extractTurn k j errs lost

/-- The block arbiter scrubs one group in an event clock in which nothing else requests; `err` is the error found there,
if any (R165). -/
def Hub.ringScrub (h : Hub) (j : Nat) (err : Option Bool) : Hub :=
  let b := h.blk j
  let id := cellId j (b.scrub / 512)
  let g := b.scrub % 512
  if !b.reads.isEmpty ∨ (h.extractReq j).isSome then h
  else
    let h := h.setBlk j { b with scrub := (b.scrub + 1) % 8704 }
    match err with
    | none => h
    | some u => if (h.ring id).groupWritten g then h.eccCount ⟨id, g, u⟩ else h

/-! ## The region arbiter (R217)

A shadow configuration frame has its grants within the load that writes it (DESIGN CHOICE, log entry 54). -/

/-- The age of the assembly that requests the fragment buffer of region r. -/
def Hub.assemblyReq (h : Hub) (r : Nat) : Option Nat :=
  match h.oldestWait r with
  | none => none
  | some (_, s) => if h.bufFull r ∨ (!bit s.out r ∧ !s.extractedIn r) then none else some s.age

/-- The diagnostic reads of region r's buffer that win are answered: what they read is free, as the spec gives the buffer
no layout (R25). -/
def Hub.grantBufReads (r : Nat) : Nat → Hub → Hub
  | 0, h => h
  | n + 1, h =>
    match (h.rgn r).reads with
    | [] => h
    | q :: t =>
      let wins := match h.assemblyReq r with
        | none => true
        | some age => arbBefore 3 (h.rgn r).ptr (q.age, 2) (age, 0)
      if wins then
        let h := h.setRgn r { h.rgn r with reads := t, ptr := 0 }
        Hub.grantBufReads r n (h.resolve (whoOf q.master) q.access q.pos
          [((Config.diagWord q.addr h.clk.tick).toNat, false)])
      else h

/-- A diagnostic read of region r's fragment buffer is raised. -/
def Hub.raiseBufRead (h : Hub) (r : Nat) (q : BufRead) : Hub :=
  Hub.grantBufReads r ((h.rgn r).reads.length + 1) (h.setRgn r { h.rgn r with reads := (h.rgn r).reads ++ [q] })

/-- The region's turn to assemble: reads raised before the accept go first, the others follow (R13, R217). -/
def Hub.assemblyTurn (h : Hub) (r : Nat) : Hub :=
  let h := h.fragmentAssembly r
  let h := h.setRgn r { h.rgn r with ptr := 1 }
  Hub.grantBufReads r (h.rgn r).reads.length h

end Sys2Proof.Machine
end

