-- ==== Sys2Proof/Machine/TdcOps.lean ====
section
/-! DEFINITION. Time-to-digital conversion (R232 to R238), code-density tables (R239 to R241), time inputs (R242),
interval engines (R243 to R245) and the frequency unit (R249, R250). -/

namespace Sys2Proof.Machine

/-! ## Tables of the state -/

def Hub.tdc (h : Hub) (id : Nat) : Tdc := SMap.get (fun _ => ({} : Tdc)) h.tdcs id
def Hub.setTdc (h : Hub) (id : Nat) (x : Tdc) : Hub := { h with tdcs := SMap.set (fun _ => ({} : Tdc)) h.tdcs id x }
def Hub.tin (h : Hub) (i : Nat) : Tin := SMap.get (fun _ => ({} : Tin)) h.tins i
def Hub.setTin (h : Hub) (i : Nat) (x : Tin) : Hub := { h with tins := SMap.set (fun _ => ({} : Tin)) h.tins i x }
def Hub.ivl (h : Hub) (e : Nat) : Ivl := SMap.get (fun _ => ({} : Ivl)) h.ivls e
def Hub.setIvl (h : Hub) (e : Nat) (x : Ivl) : Hub := { h with ivls := SMap.set (fun _ => ({} : Ivl)) h.ivls e x }

/-- The id of the TDC of tin_i. -/
def tinTdc (i : Nat) : Nat := 408 + i

/-- The BXC in Hz that the hub runs on: the one last measured or held, or the reference point's before the first
(DESIGN CHOICE, log entry 13). -/
def Hub.bxcHz (h : Hub) : Nat := if h.clk.hz = 0 then 32000000 else h.clk.hz

/-- ORG_STATUS.WARM. -/
def Hub.warm (h : Hub) : Bool := h.on ORG_STATUS_WARM

/-! ## The measuring ring (R232, R241) -/

/-- The table of a TDC: 4 r + b for cell 0 of a block, 24 + i for tin_i. -/
def tableOf (id : Nat) : Option Nat :=
  if 408 ≤ id then some (24 + (id - 408)) else if id % 17 = 0 then some (id / 17) else none

/-- Width of bin i of table t, in 2^−20 turn (R255). -/
def Hub.cdWidth (h : Hub) (t i : Nat) : Nat :=
  let w := h.rd (TDC_CD_TABLE t (i / 2)).addr
  if i % 2 = 0 then w % 2 ^ 16 else w / 2 ^ 16

/-- Twice the phase Φ(S) of a position (R232). -/
def Hub.phase2 (h : Hub) (id s : Nat) : Nat :=
  let table := match tableOf id with
    | some t => if h.on (TDC_CD_STAT_VALID t) then some t else none
    | none => none
  match table with
  | none => 2048 * s + 1024
  | some t =>
    let b := s % 1024
    2 * (2 ^ 20 * (s / 1024) + sumOver b (h.cdWidth t)) + h.cdWidth t b

/-- Difference of two doubled phases, modulo the 2^10 turns of the turn counter. -/
def phaseDiff (a b : Nat) : Nat := aheadMod (2 ^ 31) a b

/-- The three snapshots of a hit (R233). -/
structure Snap where
  sh : Nat
  s1 : Nat
  s2 : Nat
  deriving DecidableEq, Repr

/-- r of R233 as a fraction; free where the ring shows no phase between the reference snapshots. -/
def Hub.ringRatio (h : Hub) (id : Nat) (s : Snap) : Nat × Nat :=
  let b := phaseDiff (h.phase2 id s.s2) (h.phase2 id s.s1)
  if b = 0 then
    let (n, d) := Config.ringRatio id h.clk.tick
    (n.toNat, d.toNat + 1)
  else (phaseDiff (h.phase2 id s.s1) (h.phase2 id s.sh), b)

/-! ## Placing a hit (R234, R235) -/

/-- 10^12, the denominator of K. -/
def pico : Int := 1000000000000

/-- K × 10^12: TDC_SKEW in 0.25 ps as fine units (R234). -/
def Hub.skewFine (h : Hub) (skew : Nat) : Int := sgn 16 skew * 8192 * (h.bxcHz : Int)

/-- 16,384 × (2F + s − WHOLE) of the sample period in progress. -/
def Hub.sampleBase (h : Hub) : Int := 16384 * (h.label : Int)

/-- The time value of a measured hit registered in event-clock period q: S_1's edge begins period q + 1 (R234). -/
def Hub.measuredValue (h : Hub) (id q skew : Nat) (s : Snap) : Int :=
  let (a, b) := h.ringRatio id s
  let b' : Int := b
  let n := (h.sampleBase + 4096 * ((q : Int) + 1) - 4 * h.get TIME_ALIGN_FINE) * b' * pico -
    4096 * (a : Int) * pico - h.skewFine skew * b'
  roundDiv n (b' * pico)

/-- The time value of a hit recorded from the coarse capture (R235). -/
def Hub.coarseValue (h : Hub) (q skew : Nat) : Int :=
  roundDiv ((h.sampleBase + 4096 * (q : Int) + 2048 - 4 * h.get TIME_ALIGN_FINE) * pico - h.skewFine skew) pico

/-- The time word of a time value (R234). -/
def valueWord (v : Int) : Nat :=
  let m := (v % (2 ^ 63 : Nat)).toNat
  m / 32768 * 2 ^ 16 + m % 32768

/-- The time value of a time word. -/
def wordValue (tw : Nat) : Nat := tw / 2 ^ 16 * 32768 + tw % 32768

/-- The edge of a hit in fine units from reset, for dead time (R235). -/
def Hub.edgeTime (h : Hub) (id q : Nat) (s : Snap) : Int :=
  let (a, b) := h.ringRatio id s
  16384 * (h.clk.tick : Int) + 4096 * ((q : Int) + 1) - roundDiv (4096 * (a : Int)) b

/-- An edge lies within 40 ns of the last measured hit (R235). -/
def Hub.inDeadTime (h : Hub) (x : Tdc) (e : Int) : Bool :=
  match x.edge with
  | none => false
  | some e0 => (e - e0) * 1000000000 < 40 * 32768 * (h.bxcHz : Int)

/-- The first 1 µs after the TDC was enabled (R238). -/
def Hub.tdcWaking (h : Hub) (x : Tdc) : Bool :=
  match x.enFrom with
  | none => false
  | some b => (h.clk.tick - b) * 1000000 < 2 * h.bxcHz

/-! ## Interval engines (R243 to R245) -/

/-- IVL_CTRL.ARM (R243, R257). -/
def Hub.ivlArm (h : Hub) (e : Nat) : Hub :=
  if h.get (IVL_STATUS_STATE e) ≠ 0 then h
  else (h.setIvl e { cfg := h.rd (IVL_CFG e).addr, armFrom := h.clk.tick + 1 }).put (IVL_STATUS_STATE e) 1

/-- IVL_CTRL.CANCEL (R257). -/
def Hub.ivlCancel (h : Hub) (e : Nat) : Hub := (h.setIvl e {}).put (IVL_STATUS_STATE e) 0

/-- The start or the stop source of an engine, SRC in `src` and FALL in `fall`, takes an edge of source `s`; FALL counts
for a time input only (R243, R257). -/
def takesEdge (src fall s : Nat) (falling : Bool) : Bool := src == s && (4 ≤ s || (fall == 1) == falling)

/-- An IVL_CFG word takes an edge as its start, and as its stop. -/
def isStart (cfg s : Nat) (falling : Bool) : Bool := takesEdge (bits cfg 4 1) (bits cfg 5 5) s falling
def isStop (cfg s : Nat) (falling : Bool) : Bool := takesEdge (bits cfg 12 9) (bits cfg 13 13) s falling

/-- Engine e runs and takes edges of this kind. -/
def Hub.ivlWants (h : Hub) (e s : Nat) (falling : Bool) : Bool :=
  h.get (IVL_STATUS_STATE e) != 0 && (isStart (h.ivl e).cfg s falling || isStop (h.ivl e).cfg s falling)

/-- The first edge of an armed engine: an edge that is both its start and its stop is the start (R243). -/
def Hub.ivlFirst (h : Hub) (e s : Nat) (falling : Bool) (v : Nat) : Hub :=
  let x := h.ivl e
  if h.get (IVL_STATUS_STATE e) ≠ 1 ∨ h.clk.tick < x.armFrom ∨ !h.ivlWants e s falling then h
  else (h.setIvl e { x with first := some (!isStart x.cfg s falling, v, !h.warm) }).put (IVL_STATUS_STATE e) 2

/-- A result is written and the engine ends or re-arms (R243, R245). -/
def Hub.ivlWrite (h : Hub) (e : Nat) (d : Int) (cold tie order ovf : Bool) : Hub :=
  let r := 2 ^ 63 + b2n cold * 2 ^ 62 + b2n tie * 2 ^ 61 + b2n order * 2 ^ 60 + b2n ovf * 2 ^ 59 + unsgn 40 d
  let h := ((h.w64 (IVL_RESULT e) r).inc (IVL_COUNT e)).set1 (IVL_STATUS_DONE e)
  if bit (h.ivl e).cfg 16 then
    (h.setIvl e { cfg := h.rd (IVL_CFG e).addr, armFrom := h.clk.tick + 1 }).put (IVL_STATUS_STATE e) 1
  else (h.setIvl e {}).put (IVL_STATUS_STATE e) 0

/-- Signed difference of two time values (R10). -/
def valueDiff (a b : Nat) : Int := sgn 63 (aheadMod (2 ^ 63) a b)

/-- The second edge of an engine: the stop after a start, the start after a stop (R243, R244). COLD follows R244, either
edge's, where R56 would let a result with a cold first edge go without (DEDUCED, log entry 58). -/
def Hub.ivlSecond (h : Hub) (e s : Nat) (falling : Bool) (v : Nat) : Hub :=
  let cfg := (h.ivl e).cfg
  match (h.ivl e).first with
  | none => h
  | some (stop, v0, cold0) =>
    if !(if stop then isStart cfg s falling else isStop cfg s falling) then h
    else
      let d := if stop then valueDiff v0 v else valueDiff v v0
      h.ivlWrite e d (cold0 || !h.warm) (d == 0) (decide (d < 0)) false

/-- An edge of source s reaches engine e (R243). -/
def Hub.ivlEdge (h : Hub) (e s : Nat) (falling : Bool) (v : Nat) : Hub :=
  if (h.ivl e).first.isSome then h.ivlSecond e s falling v else h.ivlFirst e s falling v

/-- The second edge has not come in 2^24 sample periods (R244). -/
def Hub.ivlOvf (h : Hub) (e : Nat) : Hub :=
  match (h.ivl e).first with
  | none => h
  | some (stop, _, cold0) =>
    let top : Int := 2 ^ 38 - 1
    h.ivlWrite e (if stop then -top else top) (cold0 || !h.warm) false stop true

/-! ## Hits of a channel (R108, R134) -/

/-- The sample period, counted from reset, that label `l` names now. -/
def Hub.tickOf (h : Hub) (l : Nat) : Nat :=
  let back := aheadMod labelSpan h.label l
  if back < 2 ^ 48 then h.clk.tick - back else h.clk.tick + (labelSpan - back)

/-- The delay of channel n, in fine units, for a hit with undelayed label `l` (R134). -/
def Hub.hitDelay (h : Hub) (n l : Nat) : Nat := 1024 * delayAt (h.chan n).dly (h.tickOf l)

/-- The spare is the hit source of channel n for label `l` (R108). -/
def Hub.spareSource (h : Hub) (n l : Nat) : Bool :=
  let x := h.chan n
  match x.bound with
  | none => x.spare
  | some b => if b ≤ h.tickOf l then x.spare else !x.spare

/-- The channel a hit of cell c of block j with undelayed label `l` belongs to, if the cell is its source. -/
def Hub.hitChannel (h : Hub) (j c l : Nat) : Option Nat :=
  if c < 16 then if h.spareSource (chanOf j c) l then none else some (chanOf j c)
  else
    let k := h.get (HNG_STATUS_ROUTE j)
    if k < 16 ∧ 2 ≤ h.get (HNG_STATUS_PHASE j) ∧ h.spareSource (chanOf j k) l then some (chanOf j k) else none

/-- A hit record enters the hit store of its channel (R134, R237). -/
def Hub.storeHit (h : Hub) (j c : Nat) (x : Hit) : Hub :=
  let l := labelOf x.tw
  match h.hitChannel j c l with
  | none => h
  | some n =>
    let tw := valueWord ((wordValue x.tw : Int) + h.hitDelay n l)
    h.setHitStore n ((h.hitStore n).add { x with tw := tw })

/-- A hit record enters the queue of tin_i, or is dropped (R242). -/
def Hub.tinHit (h : Hub) (i : Nat) (x : Hit) : Hub :=
  if !bit (h.get TDC_TIN_CFG_FIFO_EN) i then h
  else if 64 ≤ (h.tin i).fifo.length then
    (h.incSat (TDC_TIN_LEVEL_LOST i)).put TDC_TIN_STATUS_OVF (h.get TDC_TIN_STATUS_OVF ||| 2 ^ i)
  else
    let t := h.tin i
    let t := { t with fifo := t.fifo ++ [x] }
    (h.setTin i t).put (TDC_TIN_LEVEL_LEVEL i) t.fifo.length

/-- A crossing that reached TDC `id`: not recorded, PILE or measured (R235, R236, R238). -/
def Hub.tdcRecord (h : Hub) (id q : Nat) (s : Snap) : Option Hit × Tdc × Bool :=
  let x := h.tdc id
  let period := 4 * h.clk.tick + q
  let e := h.edgeTime id q s
  if h.tdcWaking x ∨ x.period = some period then (none, x, true)
  else if h.inDeadTime x e then
    (some ⟨valueWord (h.coarseValue q x.skew), true, !h.warm⟩, { x with period := some period }, false)
  else
    (some ⟨valueWord (h.measuredValue id q x.skew s), false, !h.warm⟩,
      { x with period := some period, edge := some e, measured := some period }, false)

/-- A crossing of the discriminator of cell c of block j (R80 to R82, R108, R233 to R238). -/
def Hub.cellCrossing (h : Hub) (j c q : Nat) (s : Snap) (x : Swing) : Hub :=
  let id := cellId j c
  let d := h.cell id
  if !h.sampling ∨ !discHit d h.clk.tick x then h
  else
    let h := h.setCell id { d with armed := false, hits := d.hits + 1 }
    if !(h.tdc id).en then h
    else
      let (hit, t, dropped) := h.tdcRecord id q s
      let h := h.setTdc id t
      match hit with
      | none => if dropped then h.inc (TDC_DROP_COUNT j c) else h
      | some v =>
        let h := h.inc (TDC_HIT_COUNT j c)
        let h := if v.pile then h.inc (TDC_PILE_COUNT j c) else h
        let h := h.w64 (TDC_LAST j c) v.tw
        let h := h.wr (TDC_LAST_FLAGS j c).addr (4 + b2n v.pile * 2 + b2n v.cold)
        h.storeHit j c v

/-- An edge at time input i: a hit where TDC_TIN_CFG selects it (R242), and unless it is PILE an edge for the engines
that take it (R243). An edge that neither wants is not measured. -/
def Hub.tinCrossing (h : Hub) (i q : Nat) (s : Snap) (fall : Bool) : Hub :=
  let mine := fall == (h.tin i).fall
  if !mine && !(List.range 4).any fun e => h.ivlWants e i fall then h
  else
    let (hit, t, _) := h.tdcRecord (tinTdc i) q s
    let h := h.setTdc (tinTdc i) t
    match hit with
    | none => h
    | some v =>
      let h := if v.pile then h else h.forAll (List.range 4) fun h e => h.ivlEdge e i fall (wordValue v.tw)
      if mine then h.tinHit i v else h

/-- The signal moves at a discriminator or a time input; an edge of tin_i falls where the signal does. -/
def Hub.tdcHit (h : Hub) (id q : Nat) (s : Snap) (x : Swing) : Hub :=
  if id < 408 then h.cellCrossing (id / 17) (id % 17) q s x
  else h.tinCrossing (id - 408) q s (decide (x.stop < x.start))

/-! ## Settings (R238, R241, R253, R256) -/

/-- Table t goes back to the uniform table (R241). -/
def Hub.cdUniform (h : Hub) (t : Nat) : Hub :=
  let h := h.forAll (List.range 512) fun h w => h.wr (TDC_CD_TABLE t w).addr 0x04000400
  (h.put (TDC_CD_STAT_VALID t) 0).wr (TDC_CD_AGE t).addr 0xFFFFFFFF

/-- A change of TDC_CFG.EN takes effect (R238, R241). -/
def Hub.takeTdcEnable (h : Hub) (j c : Nat) : Hub :=
  let id := cellId j c
  let x := h.tdc id
  let en := h.on (TDC_CFG_EN j c)
  if en = x.en then h
  else if en then
    let h := h.setTdc id { x with en := true, enFrom := some (h.clk.tick + 1) }
    if c = 0 then h.cdUniform j else h
  else h.setTdc id { x with en := false }

/-- TDC_SKEW takes effect at a BX boundary (R253). -/
def Hub.takeSkew (h : Hub) (j c : Nat) : Hub :=
  let x := h.tdc (cellId j c)
  h.setTdc (cellId j c) { x with skew := h.get (TDC_SKEW_SKEW j c) }

/-- The settings of tin_i take effect at a BX boundary (R253, R256). -/
def Hub.takeTin (h : Hub) (i : Nat) : Hub :=
  let x := h.tdc (tinTdc i)
  let h := h.setTdc (tinTdc i) { x with skew := h.get (TDC_TIN_SKEW_SKEW i) }
  h.setTin i { h.tin i with fall := bit (h.get TDC_TIN_CFG_FALL) i }

/-! ## Code-density tables (R239 to R241) -/

/-- The TDC of table t. -/
def tableTdc (t : Nat) : Nat := if t < 24 then 17 * t else 408 + (t - 24)

/-- The table being filled is discarded (R240). -/
def Hub.cdDiscard (h : Hub) (t : Nat) : Hub :=
  let x := h.tdc (tableTdc t)
  (h.setTdc (tableTdc t) { x with bins := [], fill := 0 }).put (TDC_CD_STAT_FILL t) 0

/-- The hit latch holds a snapshot of S_h, S_1 or S_2 in event-clock period p (R233, R239). -/
def latchBusy (x : Tdc) (p : Nat) : Bool :=
  match x.measured with
  | none => false
  | some m => m ≤ p && p ≤ m + 1

/-- A density snapshot of table t in bin b, in event-clock period q of the sample period in progress (R239). -/
def Hub.cdSnapshot (h : Hub) (t b q : Nat) : Hub :=
  let id := tableTdc t
  let x := h.tdc id
  if !x.en then h
  else if !h.warm then h.cdDiscard t
  else if latchBusy x (4 * h.clk.tick + q) ∨ 2 ^ 20 ≤ x.fill then h
  else
    let x := { x with
      bins := SMap.set (fun _ => 0) x.bins b (SMap.get (fun _ => 0) x.bins b + 1), fill := x.fill + 1 }
    (h.setTdc id x).put (TDC_CD_STAT_FILL t) x.fill

/-- Table t uses measured widths: CD_EN of the cell; a time input has no such bit (R241, R253). -/
def Hub.cdEnabled (h : Hub) (t : Nat) : Bool := if t < 24 then h.on (TDC_CFG_CD_EN t 0) else true

/-- With CD_EN = 0 the TDC of cell 0 uses the uniform table, and VALID reads 0 until a table is accepted again (R241). -/
def Hub.cdOff (h : Hub) (t : Nat) : Hub :=
  if h.cdEnabled t ∨ !h.on (TDC_CD_STAT_VALID t) then h
  else
    (h.forAll (List.range 512) fun h w => h.wr (TDC_CD_TABLE t w).addr 0x04000400).put (TDC_CD_STAT_VALID t) 0

/-- A table of 2^20 snapshots is accepted or rejected (R240); with CD_EN = 0 an accepted one counts and is not used
(R241, R255). -/
def Hub.cdComplete (h : Hub) (t : Nat) : Hub :=
  let x := h.tdc (tableTdc t)
  if x.fill < 2 ^ 20 then h
  else
    let w := fun i => SMap.get (fun _ => 0) x.bins i
    let ok := (List.range 1024).all fun i => 1 ≤ w i && w i ≤ 8192
    let h := h.cdDiscard t
    if ok then
      let h := (h.inc (TDC_CD_COUNT t)).wr (TDC_CD_AGE t).addr 0
      if h.cdEnabled t then
        let h := h.forAll (List.range 512) fun h i =>
          h.wr (TDC_CD_TABLE t i).addr (w (2 * i) + w (2 * i + 1) * 2 ^ 16)
        h.put (TDC_CD_STAT_VALID t) 1
      else h
    else
      let h := h.set1 (TDC_CD_STAT_REJECT t)
      h.raise 0x06 (whereUnit 11 t) (h.rd (TDC_CD_STAT t).addr)

/-- Filling stops and starts again while the orangery is not warm (R240). -/
def Hub.cdCold (h : Hub) : Hub := h.forAll (List.range 28) Hub.cdDiscard

/-- One millisecond passes for a table's age, which reads all ones while no table has been accepted (R255). -/
def Hub.cdAge (h : Hub) (t : Nat) : Hub := h.incSat (TDC_CD_AGE t)

/-! ## Time-input queue (R242) -/

/-- The oldest entry of tin_i's queue is taken: its time word and the flags EMPTY, PILE, COLD. -/
def Hub.tinPop (h : Hub) (i : Nat) : Hub × Nat × Nat :=
  let t := h.tin i
  match t.fifo with
  | [] => (h, 0, 4)
  | x :: r =>
    ((h.setTin i { t with fifo := r }).put (TDC_TIN_LEVEL_LEVEL i) r.length, x.tw, b2n x.pile * 2 + b2n x.cold)

/-! ## Frequency unit (R249, R250, R259) -/

/-- The measurement ends; START and BUSY read 0. -/
def Hub.frqEnd (h : Hub) : Hub := (h.put FRQ_STATUS_BUSY 0).put FRQ_CTRL_START 0

/-- ocxo_clk stops while a measurement runs (R250). -/
def Hub.frqNoRef (h : Hub) : Hub :=
  if h.on FRQ_STATUS_BUSY then ((h.set1 FRQ_STATUS_NO_REF).w64 FRQ_RESULT 0).frqEnd else h

/-- FRQ_CTRL.START (R249). -/
def Hub.frqStart (h : Hub) : Hub :=
  if h.on FRQ_STATUS_BUSY then h
  else
    let h := { h with frq := (h.get FRQ_CFG_SRC, h.get FRQ_CFG_P, h.get FRQ_GATE_US) }
    let h := (h.put FRQ_STATUS_BUSY 1).put FRQ_CTRL_START 1
    if h.on CLK_STATUS_REF_LOST then h.frqNoRef else h

/-- FRQ_CTRL.CANCEL (R259). -/
def Hub.frqCancel (h : Hub) : Hub := h.frqEnd

/-- The frequency in mHz (R249). -/
def frqResult (n p refKhz m : Nat) : Nat :=
  let f := (roundDiv ((n * 2 ^ p * 256 * refKhz * 1000 * 1000 : Nat) : Int) m).toNat
  if m = 0 ∨ 2 ^ 64 ≤ f then (Config.freqBeyond n m).toNat else f

/-- The gate closes with N edges and M reference units (R249). -/
def Hub.frqDone (h : Hub) (n m : Nat) : Hub :=
  if !h.on FRQ_STATUS_BUSY then h
  else
    let h := ((h.wr FRQ_EDGES.addr n).w64 FRQ_REFTIME m).w64 FRQ_RESULT (frqResult n h.frq.2.1 h.clk.refKhz m)
    (h.set1 FRQ_STATUS_DONE).frqEnd

/-- No prescaled edge opens or closes the gate in time (R250). -/
def Hub.frqNoEdge (h : Hub) (n : Nat) : Hub :=
  if !h.on FRQ_STATUS_BUSY then h
  else (((h.wr FRQ_EDGES.addr n).w64 FRQ_RESULT 0).set1 FRQ_STATUS_NO_EDGE).frqEnd

end Sys2Proof.Machine
end

