-- ==== Sys2Proof/Machine/MonitorOps.lean ====
section
/-! DEFINITION. The monitor: converters and requests (R263 to R266), averagers (R270 to R272), results (R269, R273,
R274), window comparators (R275) and excitation (R267, R268). -/

namespace Sys2Proof.Machine

/-! ## Tables of the state -/

def Hub.monConv (h : Hub) (m : Nat) : MonConv := SMap.get (fun _ => ({} : MonConv)) h.mon.convs m
def Hub.setMonConv (h : Hub) (m : Nat) (x : MonConv) : Hub :=
  { h with mon := { h.mon with convs := SMap.set (fun _ => ({} : MonConv)) h.mon.convs m x } }
def Hub.monAvg (h : Hub) (i : Nat) : MonAvg := SMap.get (fun _ => ({} : MonAvg)) h.mon.avgs i
def Hub.setMonAvg (h : Hub) (i : Nat) (x : MonAvg) : Hub :=
  { h with mon := { h.mon with avgs := SMap.set (fun _ => ({} : MonAvg)) h.mon.avgs i x } }

/-- EXC_CFG of excitation e in effect (R267). -/
def Hub.exc (h : Hub) (e : Nat) : Nat := SMap.get (fun _ => 0x01000000) h.mon.excs e
def Hub.setExc (h : Hub) (e v : Nat) : Hub :=
  { h with mon := { h.mon with excs := SMap.set (fun _ => 0x01000000) h.mon.excs e v } }

/-- The converters and the excitation are powered (R494). -/
def Hub.monOn (h : Hub) : Bool := h.sampling || (h.pwr.state == .standby && h.on PWR_CFG_STBY_MON)

/-! ## Fields of MON_CH_CFG (R280) -/

def chEn (c : Nat) : Bool := bit c 31
def chDiff (c : Nat) : Bool := bit c 30
def chLink (c : Nat) : Bool := bit c 28
def chExc (c : Nat) : Nat := bits c 26 24
def chAvg (c : Nat) : Nat := bits c 23 20
def chComp (c : Nat) : Nat := bits c 17 16

/-- The response of R137 a COMP value names (R270). -/
def compRom (comp : Nat) : Nat := if comp = 0 then 0 else 28 + comp

/-- The settle count 3 + T − 1 of a COMP value (R270). -/
def compSettle (comp : Nat) : Nat := 2 + (romAt (compRom comp)).coef.length

/-- A write of MON_CH_CFG from `old` to `new` is a channel change (R271). -/
def channelChange (old new : Nat) : Bool :=
  chDiff old != chDiff new || bits old 29 29 != bits new 29 29 || chLink old != chLink new || chExc old != chExc new ||
  chAvg old != chAvg new || chComp old != chComp new || (!chEn old && chEn new)

/-- MON_CH_CFG of channel i has been written (R270, R271). -/
def Hub.monChWritten (h : Hub) (i old : Nat) : Hub :=
  let new := h.rd (MON_CH_CFG i).addr
  let h := h.put (MON_CH_STATUS_SETTLE i) (compSettle (chComp new))
  if channelChange old new then
    let x := h.monAvg i
    h.setMonAvg i { x with chg := x.chg + 1 }
  else h

/-- MON_CH_STATUS.OPEN of the excitation a channel is linked to. -/
def Hub.linkOpen (h : Hub) (cfg : Nat) : Bool := chLink cfg && h.on (EXC_STATUS_OPEN (chExc cfg))

/-! ## Operations (R263, R265) -/

/-- The event-clock cycle the sample period in progress begins with. -/
def Hub.clocks (h : Hub) : Nat := 4 * h.clk.tick

/-- `us` microseconds in event-clock cycles, rounded up (R263). -/
def Hub.usClocks (h : Hub) (us : Nat) : Nat := (8 * h.bxcHz * us + 999999) / 1000000

/-- The request a converter takes next, and what then waits: captures, then the urgent request, then the scan (R265). A
source as SRC of R273 codes it, the channel and the comparator of a capture. -/
def MonConv.nextOp (x : MonConv) : Option (Nat × Nat × Nat) :=
  match x.caps, x.urg, x.seq with
  | (w, ch) :: _, _, _ => some (1, ch, w)
  | [], some ch, _ => some (2, ch, 0)
  | [], none, ch :: _ => some (0, ch, 0)
  | [], none, [] => none

/-- The conversion step of a running operation has begun: the label and BX_VALID of its sample period stand (R273). -/
def Hub.monBegun (h : Hub) (m : Nat) : Hub :=
  let x := h.monConv m
  match x.run with
  | some op =>
    if op.label.isNone ∧ op.conv < h.clocks + 4 then
      h.setMonConv m { x with run := some { op with label := some (h.label, h.on TIME_STATUS_BX_VALID) } }
    else h
  | none => h

/-- A converter without an operation: it stays powered with STAY_ON only (R263). -/
def Hub.monIdle (h : Hub) (m : Nat) : Hub :=
  let stay := b2n (bit (h.get MON_CFG_STAY_ON) m && h.monOn)
  (h.put MON_STATUS_BUSY (setBits (h.get MON_STATUS_BUSY) m m 0)).put MON_STATUS_PWR
    (setBits (h.get MON_STATUS_PWR) m m stay)

/-- Starts the next operation of converter m when it is powered (R494) and runs none (R263). -/
def Hub.monStart (h : Hub) (m : Nat) : Hub :=
  let x := h.monConv m
  if x.run.isSome then h
  else
    match if h.monOn then x.nextOp else none with
    | none => h.monIdle m
    | some (src, ch, w) =>
      let up := if bit (h.get MON_STATUS_PWR) m then x.up else h.clocks + h.usClocks 2
      let open_ := x.connected != some ch || (src == 0 && x.again)
      let ready := if open_ then h.clocks + h.usClocks 1 else h.clocks
      let cfg := h.rd (MON_CH_CFG ch).addr
      let op : MonOp := {
        src := src, ch := ch, win := w, cfg := cfg, chg := (h.monAvg ch).chg
        corr := h.rd (CAL_MON_CORR m (bits cfg 29 29)).addr
        ready := ready, conv := max up ready, isOpen := h.linkOpen cfg }
      let x := { x with
        run := some op, connected := if open_ then none else x.connected, up := up
        caps := if src = 1 then x.caps.tail else x.caps, again := if src = 0 then false else x.again }
      let h := (h.setMonConv m x).put MON_STATUS_BUSY (setBits (h.get MON_STATUS_BUSY) m m 1)
      (h.put MON_STATUS_PWR (setBits (h.get MON_STATUS_PWR) m m 1)).monBegun m

/-- The channel that stands connected when an operation is abandoned: its own once its discharge has ended (R263). -/
def Hub.connectedBy (h : Hub) (x : MonConv) (op : MonOp) : Option Nat :=
  if op.ready ≤ h.clocks then some op.ch else x.connected

/-- A running sequencer operation is abandoned (R265). -/
def Hub.monAbandon (h : Hub) (m : Nat) : Hub :=
  let x := h.monConv m
  match x.run with
  | none => h
  | some op =>
    if op.src = 0 then h.setMonConv m { x with run := none, again := true, connected := h.connectedBy x op } else h

/-- Converter m loses its power (R494): the operation it runs ends without a result, and its request waits. -/
def Hub.monCut (h : Hub) (m : Nat) : Hub :=
  let x := h.monConv m
  match x.run with
  | none => h
  | some op =>
    h.setMonConv m { x with
      run := none, again := x.again || op.src == 0, connected := h.connectedBy x op
      caps := if op.src = 1 then (op.win, op.ch) :: x.caps else x.caps }

/-- The converters take up their power: they run what waits in the states that power them, and nothing in the others
(R263, R494; DEDUCED, log entry 75). -/
def Hub.monPower (h : Hub) : Hub :=
  h.forAll [0, 1] fun h m => if h.monOn then h.monStart m else (h.monCut m).monIdle m

/-- A capture of comparator w on channel ch is requested; at most one waits for each comparator (R265, R275). -/
def Hub.monCapture (h : Hub) (w ch : Nat) : Hub :=
  let m := ch / 32
  let x := h.monConv m
  if x.caps.any (·.1 == w) then h
  else (((h.setMonConv m { x with caps := x.caps ++ [(w, ch)] }).monAbandon m).monStart m)

/-- MON_URGENT.GO = 1 is written (R265, R266). -/
def Hub.monUrgentGo (h : Hub) : Hub :=
  let ch := h.get MON_URGENT_CH
  let m := ch / 32
  if h.on MON_URGENT_GO then h.set1 MON_STATUS_URG_BUSY
  else
    let x := h.monConv m
    let h := (h.setMonConv m { x with urg := some ch }).put MON_URGENT_GO 1
    let begun := x.run.any fun op => op.label.isSome
    let h := if h.on MON_CFG_URGENT ∨ !begun then h.monAbandon m else h
    h.monStart m

/-- The channels of a scan of converter m (R264). -/
def Hub.scanList (h : Hub) (m : Nat) : List Nat :=
  ((List.range 32).map fun k => 32 * m + k).filter fun i =>
    chEn (h.rd (MON_CH_CFG i).addr) && !(i % 2 == 1 && chDiff (h.rd (MON_CH_CFG (i - 1)).addr))

/-- A scan starts on both converters (R264). -/
def Hub.monScan (h : Hub) : Hub :=
  h.forAll [0, 1] fun h m => (h.setMonConv m { h.monConv m with seq := h.scanList m }).monStart m

/-- A scan has not ended: one of its channels has not been converted on either converter. -/
def Hub.monScanning (h : Hub) : Bool := !(h.monConv 0).seq.isEmpty || !(h.monConv 1).seq.isEmpty

/-- The sequencer's period begins: its scan starts, or waits for the one running and is late, once (R264). -/
def Hub.monScanStart (h : Hub) : Hub :=
  if !h.on MON_SEQ_CFG_EN ∨ !h.monOn ∨ h.mon.late then h
  else if h.monScanning then
    ({ h with mon := { h.mon with late := true } }.inc MON_OVERRUN_COUNT).set1 MON_STATUS_OVERRUN
  else h.monScan

/-! ## Averager (R270, R271) -/

/-- A 12-bit code as a number (R262). -/
def monCode (cfg code : Nat) : Int := if chDiff cfg then sgn 12 code else (code % 4096 : Nat)

/-- A code at an end of its range (R262). -/
def monClipped (cfg code : Nat) : Bool :=
  if chDiff cfg then code % 4096 == 2047 || code % 4096 == 2048 else code % 4096 == 0 || code % 4096 == 4095

/-- Integrators over integers: each stage takes the new value of the one before it. -/
def monInteg : List Int → Int → List Int
  | [], _ => []
  | a :: t, x => (a + x) :: monInteg t (a + x)

/-- Combs over integers: the new delays and the difference. -/
def monComb : List Int → Int → List Int × Int
  | [], x => ([], x)
  | a :: t, x => let r := monComb t (x - a); (x :: r.1, r.2)

/-- VALUE and its saturation for a channel from its averager (R270, R273). -/
def MonAvg.value (x : MonAvg) (cfg : Nat) : Int × Bool :=
  let d3 : Int := (2 ^ (3 * chAvg cfg) : Nat)
  let coef := (romAt (compRom (chComp cfg))).coef
  let gain := sumInt coef
  let n := gain * x.base * d3 + applyResp coef x.hist
  let v := roundDiv (16 * n) (65536 * d3)
  let s := if chDiff cfg then clampInt (-32768) 32767 v else clampInt 0 65535 v
  (s, s != v)

/-- A conversion numbered `last` contributes to an output at conversion `conv`: the span of order 3 and T taps. -/
def contributes (cfg conv : Nat) (last : Option Nat) : Bool :=
  match last with
  | none => false
  | some k => k ≤ conv && conv - k < ((romAt (compRom (chComp cfg))).coef.length + 2) * 2 ^ chAvg cfg - 2

/-- A sequencer conversion enters the averager of its channel; an output is due when the flag is true (R270, R271). -/
def MonAvg.enter (x : MonAvg) (cfg chg code : Nat) : MonAvg × Bool :=
  let c := monCode cfg code
  let conv := x.conv + 1
  let x := { x with conv := conv, clip := if monClipped cfg code then some conv else x.clip }
  let x := if x.loaded = chg then x
    else { x with
      loaded := chg, first := true, base := c, integ := [0, 0, 0], comb := [0, 0, 0], n := 0, hist := []
      lastOpen := none, clip := if monClipped cfg code then some conv else none }
  let integ := monInteg x.integ (c - x.base)
  let x := { x with integ := integ, n := x.n + 1 }
  if x.n < 2 ^ chAvg cfg then (x, false)
  else
    let (cb, y) := monComb x.comb (integ.getLastD 0)
    ({ x with comb := cb, n := 0, hist := y :: x.hist.take 16 }, true)

/-! ## Results (R269, R273, R274) -/

/-- The two words of a monitor record (R273); `label` is the label of the conversion step. -/
def monWords (value : Int) (ch : Nat) (open_ settle clip lost : Bool) (src : Nat) (noValid : Bool) (label : Nat) :
    Nat × Nat :=
  (unsgn 16 value * 2 ^ 16 + ch * 2 ^ 10 + b2n open_ * 2 ^ 9 + b2n settle * 2 ^ 8 + b2n clip * 2 ^ 7 +
    b2n lost * 2 ^ 6 + src * 2 ^ 4 + b2n noValid * 2 ^ 3 + label % 2, label / 2 % 2 ^ 32)

/-- A record enters the monitor results queue, or finds it full and is lost (R274). -/
def Hub.monPush (h : Hub) (w : Nat × Nat) : Hub :=
  let w0 := if h.mon.gap then w.1 ||| 64 else w.1
  { h with mon := { h.mon with gap := false } }.qOffer 5 (asItem .plain [w0, w.2])

/-- A result of a channel is released with its OPEN mark (R269); GO reads 1 until an urgent one is (R266). -/
def Hub.monRelease (h : Hub) (r : MonHeld) : Hub :=
  let x := h.monAvg r.ch
  let h := if r.src = 0 ∧ r.isOpen then h.setMonAvg r.ch { x with lastOpen := some r.conv } else h
  let h := if r.src = 2 then h.put MON_URGENT_GO 0 else h
  match r.rec_ with
  | none => h
  | some (w0, w1) =>
    let o := r.isOpen || (r.src == 0 && contributes r.cfg r.conv x.lastOpen)
    h.monPush (if o then w0 ||| 512 else w0, w1)

/-- A result is held when its channel is linked, else released at once (R269). -/
def Hub.monResult (h : Hub) (m : Nat) (r : MonHeld) : Hub :=
  if chLink r.cfg then
    let x := h.monConv m
    h.setMonConv m { x with held := x.held ++ [r] }
  else h.monRelease r

/-- A code of the converter after its offset and gain correction (R262, R298): OFFSET in 1/16 code, GAIN in 1 ppm, to
the nearest code of the range (DESIGN CHOICE, log entry 62). -/
def monCorrected (cfg corr code : Nat) : Nat :=
  let x := (16 * monCode cfg code + sgn 16 (bits corr 31 16)) * (1000000 + sgn 16 (bits corr 15 0))
  let y := roundDiv x 16000000
  unsgn 12 (if chDiff cfg then clampInt (-2048) 2047 y else clampInt 0 4095 y)

/-- The result of an operation with the converter's code (R270, R272, R273). -/
def Hub.monConvert (h : Hub) (m : Nat) (op : MonOp) (raw : Nat) : Hub :=
  let code := monCorrected op.cfg op.corr raw
  let remain := h.get (MON_CH_STATUS_REMAIN op.ch)
  let (label, valid) := op.label.getD (h.label, h.on TIME_STATUS_BX_VALID)
  let noValid := !valid
  if op.src = 0 then
    let (x, out) := (h.monAvg op.ch).enter op.cfg op.chg code
    let h := h.setMonAvg op.ch x
    if out then
      let (v, sat) := x.value op.cfg
      let clip := sat || contributes op.cfg x.conv x.clip
      let w := monWords v op.ch false (x.first || remain != 0) clip false 0 noValid label
      let h := h.setMonAvg op.ch { x with first := false }
      let h := h.put (MON_CH_STATUS_REMAIN op.ch) (remain - 1)
      h.monResult m ⟨op.ch, op.cfg, x.conv, 0, some w, op.isOpen⟩
    else h.monResult m ⟨op.ch, op.cfg, x.conv, 0, none, op.isOpen⟩
  else
    let w := monWords (monCode op.cfg code * 16) op.ch false (remain != 0) (monClipped op.cfg code) false op.src
      noValid label
    h.monResult m ⟨op.ch, op.cfg, 0, op.src, some w, op.isOpen⟩

/-- The request of a finished operation is served. -/
def MonConv.served (x : MonConv) (op : MonOp) : MonConv :=
  let x := { x with run := none, connected := some op.ch }
  match op.src with
  | 0 => { x with seq := x.seq.tail }
  | 1 => x
  | _ => { x with urg := none }

/-- A late scan starts at once when the one before it has ended, while the sequencer runs (R264). -/
def Hub.monNextScan (h : Hub) : Hub :=
  if h.mon.late ∧ !h.monScanning then
    let h := { h with mon := { h.mon with late := false } }
    if h.on MON_SEQ_CFG_EN then h.monScan else h
  else h

/-- The conversion of converter m's operation ends (R263). -/
def Hub.monDone (h : Hub) (m code : Nat) : Hub :=
  match (h.monConv m).run with
  | none => h
  | some op =>
    let h := h.monConvert m op code
    (h.setMonConv m ((h.monConv m).served op)).monNextScan.monStart m

/-- The open window of converter m's oldest held result ends (R269). -/
def Hub.monResultRelease (h : Hub) (m : Nat) : Hub :=
  let x := h.monConv m
  match x.held with
  | [] => h
  | r :: t => (h.setMonConv m { x with held := t }).monRelease r

/-- The forwarder has the words of a record (R274). -/
def Hub.monTaken (h : Hub) (l : List Nat) : Hub :=
  match l with
  | [w0, w1] =>
    let ch := bits w0 15 10
    let h := h.w64 (MON_LAST ch) (w0 + w1 * 2 ^ 32)
    if h.on MON_CFG_STREAM_EN then h.sendOut 11 3 (ch / 32) [w0, w1] else h
  | _ => h

/-- The forwarder takes the oldest record (R274). -/
def Hub.monForward (h : Hub) : Hub :=
  match h.qTake 5 with
  | none => h
  | some (l, h) => h.monTaken l

/-! ## Window comparators (R275) -/

/-- The input of comparator w leaves its window: SEEN and the count (R275, R276). -/
def Hub.winSeen (h : Hub) (w : Nat) : Hub :=
  let h := h.put MON_WIN_STATUS_SEEN (h.get MON_WIN_STATUS_SEEN ||| 2 ^ w)
  h.inc (MON_WIN_COUNT w)

/-- OUTSIDE_w, and whether comparator w waits for its rearm. -/
def Hub.winSet (h : Hub) (w : Nat) (out tripped : Bool) : Hub :=
  let h := h.put MON_WIN_STATUS_OUTSIDE (setBits (h.get MON_WIN_STATUS_OUTSIDE) w w (b2n out))
  { h with mon := { h.mon with tripped := setBits h.mon.tripped w w (b2n tripped) } }

/-- A limit of comparator w, and a code of its input, in the format of the watched channel (R275, R281). -/
def Hub.winCode (h : Hub) (w code : Nat) : Int := monCode (h.rd (MON_CH_CFG (h.get (MON_WIN_CFG_CH w))).addr) code

/-- The input of comparator w at `code` lies outside its window by more than `margin` codes below LOW or above HIGH;
with a negative margin, not inside by that much (R275). -/
def Hub.winBeyond (h : Hub) (w code : Nat) (margin : Int) : Bool :=
  let x := h.winCode w code
  decide (x < h.winCode w (h.get (MON_WIN_THR_LOW w)) - margin) ||
    decide (h.winCode w (h.get (MON_WIN_THR_HIGH w)) + margin < x)

/-- Comparator w, which is on, compares its input, which stands at `code` (R275): OUTSIDE follows the window, a crossing
is seen while the comparator is armed, and it rearms when the input is inside by HYST. The second result: a crossing. -/
def Hub.winCompare (h : Hub) (w code : Nat) : Hub × Bool :=
  let out := h.winBeyond w code 0
  let back := !h.winBeyond w code (-(h.get (MON_WIN_CFG_HYST w) : Int))
  let crossed := out && !bit h.mon.tripped w
  let h := h.winSet w out (out || (bit h.mon.tripped w && !back))
  (if crossed then h.winSeen w else h, crossed)

/-- The input of comparator w moves to `code` outside the gazebo state, in which all comparators compare continuously: a
crossing raises its alarm and requests its capture (R275, R276). -/
def Hub.winInput (h : Hub) (w code : Nat) : Hub :=
  if !h.on (MON_WIN_CFG_EN w) then h
  else
    let (h, crossed) := h.winCompare w code
    if crossed then
      let h := h.raise 0x08 (whereUnit 8 w) (h.rd MON_WIN_STATUS.addr)
      if h.on (MON_WIN_CFG_CAPTURE w) then h.monCapture w (h.get (MON_WIN_CFG_CH w)) else h
    else h

/-- A change of a comparator's settings rearms it; one that is off has no input outside a window (R281;
DEDUCED, log entry 75). -/
def Hub.winWritten (h : Hub) (w : Nat) : Hub :=
  h.winSet w (h.on (MON_WIN_CFG_EN w) && bit (h.get MON_WIN_STATUS_OUTSIDE) w) false

/-! ## Excitation (R267, R268) -/

/-- The channels linked to excitation e. -/
def Hub.linked (h : Hub) (e : Nat) : List Nat :=
  (List.range 64).filter fun i => let c := h.rd (MON_CH_CFG i).addr; chLink c && chExc c == e

/-- MODE of an EXC_CFG word. -/
def excMode (c : Nat) : Nat := bits c 31 30

/-- EXC_CFG of excitation e has been written with a change, which waits for its microsecond tick (R267). -/
def Hub.excWritten (h : Hub) (e : Nat) : Hub :=
  { h with mon := { h.mon with excDue := setBits h.mon.excDue e e 1 } }

/-- The changes written since the last microsecond tick take effect (R267, R272). -/
def Hub.excChange (h : Hub) (e : Nat) : Hub :=
  if !bit h.mon.excDue e then h
  else
    let new := h.rd (EXC_CFG e).addr
    let h := { h with mon := { h.mon with excDue := setBits h.mon.excDue e e 0 } }.setExc e new
    let h := h.put (EXC_STATUS_BLANK e) (b2n (excMode new != 0))
    let h := if excMode new = 0 then h.put (EXC_STATUS_LOSS e) 0 else h
    h.forAll (h.linked e) fun h i => h.put (MON_CH_STATUS_REMAIN i) (h.get (MON_CH_STATUS_SETTLE i))

/-- OPEN of excitation e sets: results whose open window runs carry it (R269). -/
def Hub.excOpen (h : Hub) (e : Nat) : Hub :=
  let h := h.set1 (EXC_STATUS_OPEN e)
  h.forAll [0, 1] fun h m =>
    let x := h.monConv m
    let hit := fun (c : Nat) => chLink c && chExc c == e
    h.setMonConv m { x with
      run := x.run.map fun op => if hit op.cfg then { op with isOpen := true } else op
      held := x.held.map fun r => if hit r.cfg then { r with isOpen := true } else r }

/-- A loss of compliance is seen; LIMIT exists in VOLTAGE mode only (R268). -/
def Hub.excLoss (h : Hub) (e : Nat) (limit : Bool) : Hub :=
  let mode := excMode (h.exc e)
  if mode = 0 ∨ h.on (EXC_STATUS_BLANK e) ∨ (limit ∧ mode ≠ 2) ∨ !h.monOn then h
  else if h.on (EXC_STATUS_LOSS e) then h.excOpen e
  else
    let h := (h.set1 (EXC_STATUS_LOSS e)).put (EXC_STATUS_WHY e) (if limit then 2 else 1)
    let h := (h.excOpen e).inc (EXC_LOSS_COUNT e)
    h.raise 0x07 (whereUnit 7 e) (h.rd (EXC_STATUS e).addr)

/-- OPEN is set again while compliance is lost (R268). -/
def Hub.excOpenAgain (h : Hub) : Hub :=
  h.forAll (List.range 8) fun h e =>
    if h.on (EXC_STATUS_LOSS e) ∧ !h.on (EXC_STATUS_OPEN e) then h.excOpen e else h

end Sys2Proof.Machine
end

