-- ==== Sys2Proof/Machine/CalibOps.lean ====
section
/-! DEFINITION. Calibration: the engine's phases (R285 to R291, R296, R297), the queue (R293 to R295), monitor
corrections (R298) and test pulses (R299). -/

namespace Sys2Proof.Machine

def Hub.calBlk (h : Hub) (j : Nat) : CalBlk := SMap.get (fun _ => ({} : CalBlk)) h.cal.blks j
def Hub.setCalBlk (h : Hub) (j : Nat) (x : CalBlk) : Hub :=
  { h with cal := { h.cal with blks := SMap.set (fun _ => ({} : CalBlk)) h.cal.blks j x } }

/-! ## Codes of the registers (R301) -/

def phIdle : Nat := 0
def phSwitchIn : Nat := 1
def phPassA : Nat := 2
def phPassB : Nat := 3
def phApply : Nat := 4
def phCheck : Nat := 5
def phSkew : Nat := 6
def phSwitchOut : Nat := 7

def whyDisagree : Nat := 1
def whyCheckFail : Nat := 2
def whyRange : Nat := 3
def whyRefBad : Nat := 4
def whyEnded : Nat := 5

/-- Uses of the spare as HNG_MOVE and HNG_STATUS code them (R125, R127). -/
def useShadow : Nat := 0
def useCover : Nat := 1
def useRetire : Nat := 2
def useCalibrate : Nat := 3
def useNone : Nat := 4
def useFaulty : Nat := 5

/-! ## Step quantities (R288) -/

/-- n × (mean − 8,192) of a sum of 6,144 codes, rounded. -/
def offsetSteps (n : Int) (s : Nat) : Int := roundDiv (n * ((s : Int) - 6144 * 8192)) 6144

/-- 10,000 × (difference / span − 1), rounded: `tenths` is the nominal span × 10 at U = 1. -/
def gainSteps (a b : Nat) (tenths refUv : Nat) : Int :=
  let n : Int := ((a : Int) - b) * 10000000
  let d : Int := (6144 * tenths * refUv : Nat)
  roundDiv (10000 * (n - d)) d

/-- (H2 − H3) / (L2 − L3) in 2^−16, rounded; none when the low-gain difference is not positive. -/
def stepRatio (x : StepSums) : Option Int :=
  let h : Int := (x.h2.toNat : Int) - x.h3.toNat
  let l : Int := (x.l2.toNat : Int) - x.l3.toNat
  if l ≤ 0 then none else some (roundDiv (65536 * h) l)

/-- The trims in a trim register (R90). -/
def trimOff (w : Nat) : Int := sgn 10 w
def trimGain (w : Nat) : Int := sgn 10 (w / 2 ^ 16)
def trimWord (off gain : Int) : Nat := unsgn 10 gain * 2 ^ 16 + unsgn 10 off

/-- A trim lies in its field's range (R90). -/
def trimOk (x : Int) : Bool := -512 ≤ x && x ≤ 511

/-- A ratio lies in its field's range (R91). -/
def ratioOk (x : Int) : Bool := 0x0C0000 ≤ x && x ≤ 0x140000

/-- The set a pass yields, or none when a trim or ratio is outside its range (R288, R289). -/
def Calib.passSet (x : Calib) (s : StepSums) : Option TrimSet :=
  match stepRatio s with
  | none => none
  | some ρ =>
    let t : TrimSet :=
      { hgOff := trimOff x.oldHg - offsetSteps 2 s.h0.toNat
        hgGain := trimGain x.oldHg - gainSteps s.h2.toNat s.h3.toNat 131072 x.refUv
        lgOff := trimOff x.oldLg - offsetSteps 2 s.l4.toNat
        lgGain := trimGain x.oldLg - gainSteps s.l5.toNat s.l6.toNat 147456 x.refUv
        ratio := ρ }
    if trimOk t.hgOff && trimOk t.hgGain && trimOk t.lgOff && trimOk t.lgGain && ratioOk ρ then some t else none

/-- Absolute difference of two integers. -/
def absDiff (a b : Int) : Nat := (a - b).natAbs

/-- Two passes agree (R289). -/
def agree (tol : Nat) (a b : TrimSet) : Bool :=
  let o := bits tol 31 24
  let g := bits tol 23 16
  absDiff a.hgOff b.hgOff ≤ o && absDiff a.lgOff b.lgOff ≤ o && absDiff a.hgGain b.hgGain ≤ g &&
  absDiff a.lgGain b.lgGain ≤ g && absDiff a.ratio b.ratio ≤ bits tol 15 0

/-- The CHECK pass is within the tolerances: offsets within OFFSET × 0.5 code, gains within GAIN × 0.01 % (R289). -/
def checkOk (tol refUv : Nat) (s : StepSums) : Bool :=
  let o : Int := bits tol 31 24
  let g : Int := bits tol 23 16
  let off := fun (x : Nat) => decide ((2 * ((x : Int) - 6144 * 8192)).natAbs ≤ (o * 6144).natAbs)
  let gain := fun (a b tenths : Nat) =>
    let n : Int := ((a : Int) - b) * 10000000
    let d : Int := (6144 * tenths * refUv : Nat)
    decide ((10000 * (n - d)).natAbs ≤ (g * d).natAbs)
  off s.h0.toNat && off s.l4.toNat && gain s.h2.toNat s.h3.toNat 131072 && gain s.l5.toNat s.l6.toNat 147456

/-- A residual in the 8-bit field of CELL_CAL_RESID (R301). -/
def resid8 (x : Int) : Nat := if -128 ≤ x ∧ x ≤ 127 then unsgn 8 x else (Config.residBeyond x).toNat

/-- CELL_CAL_RESID from the CHECK pass (R290, R301). -/
def residWord (refUv : Nat) (s : StepSums) : Nat :=
  resid8 (offsetSteps 4 s.h0.toNat) * 2 ^ 24 + resid8 (gainSteps s.h2.toNat s.h3.toNat 131072 refUv) * 2 ^ 16 +
    resid8 (offsetSteps 4 s.l4.toNat) * 2 ^ 8 + resid8 (gainSteps s.l5.toNat s.l6.toNat 147456 refUv)

/-! ## Engine -/

/-- CAL_RGN_TEMP of the region of block j. -/
def Hub.rgnTemp (h : Hub) (j : Nat) : Nat := h.rd (CAL_RGN_TEMP (j / 4)).addr % 2 ^ 16

/-- The trims of a cell under calibration come into force; it serves no channel, so nothing is marked (R76, R291). -/
def Hub.calTrimForce (h : Hub) (id : Nat) : Hub :=
  h.setCell id { h.cell id with
    trimHg := h.rd (CELL_TRIM_HG (id / 17) (id % 17)).addr, trimLg := h.rd (CELL_TRIM_LG (id / 17) (id % 17)).addr }

/-- The engine writes the trims of a cell; they come into force at the next BX boundary (R287). -/
def Hub.calTrims (h : Hub) (j c hg lg : Nat) : Hub :=
  let h := (h.wr (CELL_TRIM_HG j c).addr hg).wr (CELL_TRIM_LG j c).addr lg
  { h with cal := { h.cal with trims := cellId j c :: h.cal.trims } }

/-- A BX begins: the trims written by the engines come into force (R287). -/
def Hub.calTrimsTaken (h : Hub) : Hub :=
  let h := h.forAll h.cal.trims Hub.calTrimForce
  { h with cal := { h.cal with trims := [] } }

/-- Sets the phase of the engine. -/
def Hub.calPhase (h : Hub) (j c ph : Nat) : Hub := h.put (CELL_CAL_STATUS_PHASE j c) ph

/-- Sets the calibration in progress. -/
def Hub.setCalib (h : Hub) (j : Nat) (x : Option Calib) : Hub := h.setCalBlk j { h.calBlk j with run := x }

/-- Keeps QUEUED at the queue (R303). -/
def Hub.setCalQueue (h : Hub) (j : Nat) (q : List CalReq) : Hub :=
  (h.setCalBlk j { h.calBlk j with queue := q }).put (CAL_BLK_STATUS_QUEUED j) (maskOf 17 fun c => q.any (·.cell == c))

/-- Queues a calibration of a cell; a further request for a queued cell changes nothing (R294) but that the entry runs with
AUTO_EN = 0 once the host has asked for it, and ends the cell's part of a sweep that finds it queued (DESIGN CHOICE, log
entry 63). -/
def Hub.calQueue (h : Hub) (j c rank : Nat) (sweep : Bool) : Hub :=
  let q := (h.calBlk j).queue
  let host := rank == 1
  if q.any (·.cell == c) then
    h.setCalQueue j (q.map fun r => if r.cell = c then { r with host := r.host || host, sweep := r.sweep || sweep } else r)
  else h.setCalQueue j (q ++ [⟨c, rank, host, sweep⟩])

/-- A calibration has ended with its verdict; SWEEP reads 0 after the last of a sweep (R303). -/
def Hub.sweepDone (h : Hub) (j : Nat) (x : Calib) : Hub :=
  if x.sweep then
    let l := h.cal.sweep.filter (· != cellId j x.cell)
    let h := { h with cal := { h.cal with sweep := l } }
    if l.isEmpty then h.put CAL_CTRL_SWEEP 0 else h
  else h

/-- The engine of block j goes idle. -/
def Hub.calIdle (h : Hub) (j c : Nat) : Hub :=
  let h := (h.put (CELL_CAL_STATUS_BUSY j c) 0).calPhase j c phIdle
  let h := (h.put (CAL_BLK_STATUS_BUSY j) 0).setCalib j none
  if c = 16 then h.put (HNG_STATUS_USE j) useShadow else h

/-- A calibration is ended before its verdict, or during SKEW or SWITCH_OUT after it (R291). -/
def Hub.calEnd (h : Hub) (j why : Nat) : Hub :=
  match (h.calBlk j).run with
  | none => h
  | some x =>
    let c := x.cell
    if x.final then
      let h := if h.get (CELL_CAL_STATUS_PHASE j c) = phSkew then h.set1 (CELL_CAL_STATUS_SKEW_SKIPPED j c) else h
      (h.sweepDone j x).calIdle j c
    else
      let h := (h.calTrims j c x.oldHg x.oldLg).calTrimForce (cellId j c)
      let h := (h.put (CELL_CAL_STATUS_VERDICT j c) 3).put (CELL_CAL_STATUS_WHY j c) why
      let q := (h.calBlk j).queue
      let again := q.find? (·.cell == c)
      let req : CalReq := ⟨c, 0, x.host || again.any (·.host), x.sweep || again.any (·.sweep)⟩
      (h.calIdle j c).setCalQueue j (req :: q.filter (·.cell != c))

/-- The verdict CAL_SUSPECT (R289, R290, R295). -/
def Hub.calSuspect (h : Hub) (j c why : Nat) : Hub :=
  let h := (h.put (CELL_CAL_STATUS_VERDICT j c) 2).put (CELL_CAL_STATUS_WHY j c) why
  let h := (h.inc CAL_SUSPECT_COUNT).healthWatch j c (CELL_HEALTH_CAUSE_CAL j c)
  let h := h.put (CELL_CAL_TEMP_TRY j c) (h.rgnTemp j)
  h.setCalBlk j { h.calBlk j with blocked := (h.calBlk j).blocked ||| 2 ^ c }

/-- A failed attempt (R289): the next attempt, or CAL_SUSPECT after the fourth. `restore` runs APPLY first. -/
def Hub.calFail (h : Hub) (j : Nat) (x : Calib) (why : Nat) (restore : Bool) : Hub :=
  let c := x.cell
  let h := (h.inc (CELL_CAL_ATTEMPTS j c)).put (CELL_CAL_STATUS_WHY j c) why
  let n := h.get (CELL_CAL_STATUS_ATTEMPT j c)
  let last := n = 3
  let h := if last then h.calSuspect j c why else h.put (CELL_CAL_STATUS_ATTEMPT j c) (n + 1)
  let h := h.calTrims j c x.oldHg x.oldLg
  let h := h.setCalib j (some { x with passA := none, restoring := restore, stop := last, final := last })
  h.calPhase j c (if restore then phApply else if last then phSwitchOut else phPassA)

/-- A trim or ratio outside its range ends the calibration with CAL_SUSPECT (R289). -/
def Hub.calRange (h : Hub) (j : Nat) (x : Calib) : Hub :=
  let h := (h.calSuspect j x.cell whyRange).calTrims j x.cell x.oldHg x.oldLg
  (h.setCalib j (some { x with final := true })).calPhase j x.cell phSwitchOut

/-- PASS_B has ended: APPLY writes the mean of the two sets when they agree (R289). -/
def Hub.calPassB (h : Hub) (j : Nat) (x : Calib) (a b : TrimSet) : Hub :=
  if agree x.tol a b then
    let m := fun (p q : Int) => roundDiv (p + q) 2
    let h := h.calTrims j x.cell (trimWord (m a.hgOff b.hgOff) (m a.hgGain b.hgGain))
      (trimWord (m a.lgOff b.lgOff) (m a.lgGain b.lgGain))
    (h.setCalib j (some { x with label := h.nextBxLabel, restoring := false })).calPhase j x.cell phApply
  else h.calFail j x whyDisagree false

/-- A calibration is accepted (R289, R290); SKEW follows while the orangery is warm (R297). -/
def Hub.calAccept (h : Hub) (j : Nat) (x : Calib) (s : StepSums) (ρ : Int) : Hub :=
  let c := x.cell
  let h := h.put (CELL_GAIN_RATIO_RATIO j c) ρ.toNat
  let h := ((h.inc (CELL_CAL_COUNT j c)).inc CAL_ACCEPT_COUNT).w64 (CELL_CAL_TIME j c) (timeWord x.label)
  let h := (h.put (CELL_CAL_TEMP_LAST j c) x.temp).wr (CELL_CAL_RESID j c).addr (residWord x.refUv s)
  let h := h.put (CELL_CAL_STATUS_VERDICT j c) 1
  let h := h.setCalBlk j { h.calBlk j with
    run := some { x with final := true }, blocked := setBits (h.calBlk j).blocked c c 0 }
  if h.warm then h.calPhase j c phSkew
  else (h.set1 (CELL_CAL_STATUS_SKEW_SKIPPED j c)).calPhase j c phSwitchOut

/-- CHECK has ended (R289). -/
def Hub.calCheck (h : Hub) (j : Nat) (x : Calib) (s : StepSums) : Hub :=
  if checkOk x.tol x.refUv s then
    match stepRatio s with
    | some ρ => if ratioOk ρ then h.calAccept j x s ρ else h.calRange j x
    | none => h.calRange j x
  else h.calFail j x whyCheckFail true

/-- SKEW has ended; `diff` is the mean time value minus the expected one, in 1/1,024 ps (R297). -/
def Hub.calSkew (h : Hub) (j c : Nat) (diff : Int) : Hub :=
  let h := if 1024 < diff.natAbs then
      let new := sgn 16 (h.get (TDC_SKEW_SKEW j c)) + roundDiv diff 256
      h.put (TDC_SKEW_SKEW j c) (if -32768 ≤ new ∧ new ≤ 32767 then unsgn 16 new else (Config.skewBeyond new).toNat)
    else h
  h.calPhase j c phSwitchOut

/-- A calibration that vref_cal stops: before its verdict, or in SKEW (R285, R291). -/
def Hub.refStops (h : Hub) (j : Nat) (x : Calib) : Bool :=
  h.on CAL_STATUS_REF_BAD && (!x.final || h.get (CELL_CAL_STATUS_PHASE j x.cell) == phSkew)

/-- The island has cooled: a SKEW phase that runs is skipped (R297). -/
def Hub.skewsCold (h : Hub) : Hub :=
  if h.warm then h
  else h.forAll (List.range 24) fun h j =>
    match (h.calBlk j).run with
    | some x =>
      if h.get (CELL_CAL_STATUS_PHASE j x.cell) = phSkew then
        (h.set1 (CELL_CAL_STATUS_SKEW_SKIPPED j x.cell)).calPhase j x.cell phSwitchOut
      else h
    | none => h

/-- The phase in progress of block j's engine completes (R287). At the end of a pass the engine has read its step results
back (R216; one read for a pass, DESIGN CHOICE, log entry 56). -/
def Hub.calPhaseEnd (h : Hub) (j : Nat) (s : StepSums) (diff : Int) : Hub :=
  match (h.calBlk j).run with
  | none => h
  | some x =>
    let c := x.cell
    let ph := h.get (CELL_CAL_STATUS_PHASE j c)
    let h := if ph = phPassA ∨ ph = phPassB ∨ ph = phCheck then h.calRead j c else h
    if h.refStops j x then h.calEnd j whyRefBad
    else if ph = phSwitchIn then h.calPhase j c phPassA
    else if ph = phPassA then
      match x.passSet s with
      | none => h.calRange j x
      | some a => (h.setCalib j (some { x with passA := some a })).calPhase j c phPassB
    else if ph = phPassB then
      match x.passA, x.passSet s with
      | some a, some b => h.calPassB j x a b
      | _, _ => h.calRange j x
    else if ph = phApply then
      if x.restoring then
        (h.setCalib j (some { x with restoring := false })).calPhase j c (if x.stop then phSwitchOut else phPassA)
      else (h.setCalib j (some { x with temp := h.rgnTemp j })).calPhase j c phCheck
    else if ph = phCheck then h.calCheck j x s
    else if ph = phSkew then h.calSkew j c diff
    else (h.sweepDone j x).calIdle j c

/-- vref_cal is compared: the 1 ms check, or the start of a step of block j's calibration (R285, R291). -/
def Hub.calRefCheck (h : Hub) (step : Option Nat) (bad : Bool) : Hub :=
  let h := h.put CAL_STATUS_REF_BAD (b2n bad)
  match step with
  | none => h
  | some j =>
    match (h.calBlk j).run with
    | none => h
    | some x => if h.refStops j x then h.calEnd j whyRefBad else h

/-! ## Queueing (R293 to R295) -/

/-- Every cell is queued (R293). -/
def Hub.calSweep (h : Hub) : Hub :=
  if !h.on CAL_CTRL_AUTO_EN then h.put CAL_CTRL_SWEEP 0
  else
    let h := h.forAll (List.range 408) fun h id => h.calQueue (id / 17) (id % 17) 2 true
    { h.put CAL_CTRL_SWEEP 1 with cal := { h.cal with sweep := List.range 408 } }

/-- CELL_HEALTH.CLEAR, and a region that has moved beyond TEMP_DELTA, let a suspect cell be queued by temperature again
(R295). -/
def Hub.calUnblock (h : Hub) (j c : Nat) : Hub :=
  h.setCalBlk j { h.calBlk j with blocked := setBits (h.calBlk j).blocked c c 0 }

/-- The keepers queue the cells whose region moved beyond TEMP_DELTA (R293, R295). -/
def Hub.calTempCheck (h : Hub) : Hub :=
  if !h.on CAL_CTRL_AUTO_EN ∨ h.on KPR_STATUS_KEEPERLESS then h
  else h.forAll (List.range 408) fun h id =>
    let j := id / 17
    let c := id % 17
    let t := sgn 16 (h.rgnTemp j)
    let d := h.get CAL_SCHED_TEMP_DELTA
    let h := if d < absDiff t (sgn 16 (h.get (CELL_CAL_TEMP_TRY j c))) then h.calUnblock j c else h
    if d < absDiff t (sgn 16 (h.get (CELL_CAL_TEMP_LAST j c))) ∧ !bit (h.calBlk j).blocked c then h.calQueue j c 2 false
    else h

/-- A cell's age limit has passed (R293). -/
def Hub.calAge (h : Hub) (j c : Nat) : Hub :=
  if h.on CAL_CTRL_AUTO_EN ∧ !h.on KPR_STATUS_KEEPERLESS ∧ h.get CAL_SCHED_MAX_AGE_S ≠ 0 then h.calQueue j c 2 false
  else h

/-! ## Monitor corrections and test pulses (R298, R299) -/

/-- Converter m has converted 0 V and the calibration level of range g, 3,840 codes, 16 times each; the operands are the
sums of its codes. The correction makes them 0 and the level, and is not applied if its gain lies outside ±2 % (R298). -/
def Hub.monCalibration (h : Hub) (m g low level : Nat) : Hub :=
  let span : Int := (level : Int) - low
  let gain := roundDiv ((16 * 3840 - span) * 1000000) span
  if 0 < span ∧ gain.natAbs ≤ 20000 then
    h.wr (CAL_MON_CORR m g).addr (unsgn 16 (-(low : Int)) * 2 ^ 16 + unsgn 16 gain)
  else h.set1 CAL_STATUS_MON_BAD

/-- CAL_STROBE acts at the frame count in progress (R299). -/
def Hub.calStrobe (h : Hub) : Hub :=
  let h := h.inc CAL_STROBE_COUNT
  if h.on CAL_PULSE_CFG_EN then
    let p : Pulse :=
      { bx := (h.nextFrame + h.get CAL_PULSE_CFG_DELAY) % bxSpan, width := h.get CAL_PULSE_CFG_WIDTH
        level := h.get CAL_PULSE_LEVEL_LEVEL }
    { h with cal := { h.cal with due := h.cal.due ++ [p] } }
  else h

/-- The test pulses due in the frame count in progress start (R299). -/
def Hub.calPulse (h : Hub) : Hub :=
  let now := h.cal.due.filter fun p => p.bx == h.clk.frame
  let rest := h.cal.due.filter fun p => p.bx != h.clk.frame
  { h with cal := { h.cal with due := rest, active := h.cal.active ++ now.map fun p => { p with left := p.width } } }

/-- One sample of the running test pulses. -/
def Hub.calPulseSample (h : Hub) : Hub :=
  { h with cal := { h.cal with
    active := (h.cal.active.map fun p => { p with left := p.left - 1 }).filter fun p => p.left != 0 } }

/-- The step injected into channel n, in LEVEL units: masked channels, and none into a cell under calibration. -/
def Hub.injected (h : Hub) (n : Nat) : Int :=
  if bit (h.rd (CAL_PULSE_MASK (n / 32)).addr) (n % 32) then
    sumInt (h.cal.active.map fun p => sgn 16 p.level)
  else 0

end Sys2Proof.Machine
end

