-- ==== Sys2Proof/Machine/ClockOps.lean ====
section
/-! DEFINITION. The time base (02): downlink selection, holdover, the reference oscillator, local mode, BX
numbering, group alignment and the orangery. -/

namespace Sys2Proof.Machine

/-! ## Downlinks and selection (R27 to R32) -/

/-- Downlink d (0 A, 1 B) is good and within the offset of R30. -/
def Hub.dlGood (h : Hub) (d : Nat) : Bool := if d = 0 then h.on CLK_STATUS_DLA_OK else h.on CLK_STATUS_DLB_OK

/-- Sets the OK bit of downlink d; a good downlink bars local mode until the next reset (R35). -/
def Hub.setDlGood (h : Hub) (d : Nat) (b : Bool) : Hub :=
  let h := { h with clk := { h.clk with everGood := h.clk.everGood || b } }
  if d = 0 then h.put CLK_STATUS_DLA_OK (b2n b) else h.put CLK_STATUS_DLB_OK (b2n b)

/-- The selected downlink. -/
def Hub.selDl (h : Hub) : Nat := h.get CLK_STATUS_DL_ACTIVE

/-- The policy taken up is automatic (R27). -/
def Hub.autoPolicy (h : Hub) : Bool := h.clk.pol == 0 || h.clk.pol == 3

/-- The downlink the policy prefers or forces (R27). -/
def Hub.preferred (h : Hub) : Nat := if h.clk.pol = 0 ∨ h.clk.pol = 1 then 0 else 1

/-- The downlink the policy selects; none when an automatic policy finds none good (R27, R32). -/
def Hub.policyPick (h : Hub) : Option Nat :=
  let p := h.preferred
  if !h.autoPolicy then some p
  else if h.dlGood p then some p
  else if h.dlGood (1 - p) then some (1 - p)
  else none

/-- The good downlink that the policy selects, if there is one (R27, R35). -/
def Hub.goodPick (h : Hub) : Option Nat := h.policyPick.filter h.dlGood

/-- CLK_BXC_FREQ reads the measured or held frequency, 0 with neither lock nor holdover and while REF_LOST = 1
(R58). -/
def Hub.refreshFreq (h : Hub) : Hub :=
  let live := (h.on CLK_STATUS_MACHINE_LOCK || h.on CLK_STATUS_HOLDOVER) && !h.on CLK_STATUS_REF_LOST
  h.wr CLK_BXC_FREQ.addr (if live then h.clk.hz else 0)

/-- The round-trip average restarts, a measurement in flight is discarded and RTT_VALID clears (R247). -/
def Hub.rttRestart (h : Hub) : Hub :=
  let out := if h.rtt.out = some 0 then none else h.rtt.out
  { h with rtt := { h.rtt with dl := [], out := out } }.put TIME_STATUS_RTT_VALID 0

/-! ## Holdover (R28, R36 to R39) -/

/-- A slew or a phase step back to a downlink that has not completed is given up (R34, R38). -/
def Hub.cancelReturn (h : Hub) : Hub := { h with clk := { h.clk with slewing := false, stepPending := false } }

/-- The MACHINE PLL enters holdover, or stays in it and gives up a return in progress (R28, R36, R59). In local mode
holdover does not apply (R35). -/
def Hub.enterHoldover (h : Hub) : Hub :=
  let h := h.cancelReturn
  if h.on CLK_STATUS_HOLDOVER ∨ h.on CLK_STATUS_LOCAL then h
  else
    let unq := !h.clk.qualified || h.on CLK_STATUS_REF_COLD
    let h := ((h.put CLK_STATUS_HOLDOVER 1).put CLK_STATUS_MACHINE_LOCK 0).put CLK_STATUS_HOLD_LONG 0
    let h := (h.put CLK_STATUS_HOLD_UNQUAL (b2n unq)).wr CLK_HOLD_TIME.addr 0
    { h with clk := { h.clk with qualified := false } }.refreshFreq

/-- A fault of the selected downlink puts a locked PLL into holdover, and keeps one that is returning there (R28). -/
def Hub.dlFault (h : Hub) : Hub :=
  if h.on CLK_STATUS_MACHINE_LOCK ∨ h.on CLK_STATUS_HOLDOVER then h.enterHoldover else h

/-- The MACHINE PLL is locked; its first lock after reset restarts the continuous record (R60, R146). -/
def Hub.locked (h : Hub) : Hub :=
  let sched := if h.clk.firstLock then h.crec.sched else h.crec.sched ++ [(none, reLock)]
  { h with
    clk := { h.clk with firstLock := true }
    crec := { h.crec with sched := sched } }.put CLK_STATUS_MACHINE_LOCK 1

/-- The hub leaves holdover, locked to a downlink; holdover is qualified again after 10 s (R36, R38). -/
def Hub.leaveHoldover (h : Hub) : Hub :=
  let h := ((h.put CLK_STATUS_HOLDOVER 0).put CLK_STATUS_HOLD_LONG 0).put CLK_STATUS_HOLD_UNQUAL 1
  let h := { h with clk := { h.clk with qualified := false, freeRun := false, refReturned := false } }
  h.cancelReturn.locked.refreshFreq

/-- Locks with a frame boundary outside ±1/2 BX: BX_SLIP, BX_VALID cleared, and every sample marked until the next
BX_SET (R38, R39). The frame count runs on from its value (R41; DESIGN CHOICE, log entry 41). -/
def Hub.slipLock (h : Hub) : Hub :=
  let h := (h.set1 CLK_STATUS_BX_SLIP).put TIME_STATUS_BX_VALID 0
  { h with clk := { h.clk with slipMark := true } }.leaveHoldover

/-- The PLL takes a good downlink it is brought to without a phase comparison; after a free-run, whether or not the
oscillator is back, it slips (R38, R39). -/
def Hub.lockBack (h : Hub) : Hub := if h.clk.freeRun ∨ h.clk.refReturned then h.slipLock else h.leaveHoldover

/-- With no good downlink and no usable oscillator the PLL free-runs (R39). -/
def Hub.checkFreeRun (h : Hub) : Hub :=
  if h.on CLK_STATUS_REF_LOST ∧ (!h.dlGood 0 ∧ !h.dlGood 1) ∧
      (h.on CLK_STATUS_HOLDOVER ∨ h.on CLK_STATUS_LOCAL ∨ h.on CLK_STATUS_MACHINE_LOCK) then
    let h := ((h.put TIME_STATUS_BX_VALID 0).put CLK_STATUS_HOLD_UNQUAL 1).put CLK_STATUS_MACHINE_LOCK 0
    { h with clk := { h.clk with freeRun := true, slipMark := true, qualified := false } }
  else h

/-- Every sample carries Q for the time base (R37 to R39). -/
def Hub.timebaseQ (h : Hub) : Bool :=
  h.clk.slipMark || h.clk.freeRun ||
    (h.on CLK_STATUS_HOLDOVER && (h.on CLK_STATUS_HOLD_LONG || h.on CLK_STATUS_HOLD_UNQUAL))

/-- The hub selects downlink d (R28, R31, R32). -/
def Hub.selectDl (h : Hub) (d : Nat) : Hub :=
  ((h.put CLK_STATUS_DL_ACTIVE d).inc CLK_SWITCH_COUNT).rttRestart

/-- No request holds the hub in holdover (R59, R34). -/
def Hub.holdFree (h : Hub) : Bool := !h.on CLK_CTRL_HOLD_FORCE && !h.clk.relocking

/-- The selected downlink has lost signal or lock, or shown a second bad frame in a row (R28). -/
def Hub.dlFailed (h : Hub) : Bool :=
  let d := h.selDl
  decide (2 ≤ if d = 0 then h.clk.badRunA else h.clk.badRunB) || h.get (DL_STATUS_STATE d) != 7

/-- A switch to a good downlink ends holdover, unless a request holds the hub there (R28, R32). -/
def Hub.switched (h : Hub) : Hub := if h.on CLK_STATUS_HOLDOVER ∧ h.holdFree then h.lockBack else h

/-- The switch to the other good downlink at the end of a BX (R28). -/
def Hub.downlinkSwitch (h : Hub) : Hub :=
  let d := 1 - h.selDl
  if h.autoPolicy ∧ h.dlFailed ∧ h.dlGood d then
    h.selectDl d |>.switched
  else h

/-- The return to the preferred downlink (R31). -/
def Hub.downlinkRevert (h : Hub) : Hub :=
  let d := h.preferred
  if h.autoPolicy ∧ h.on CLK_CTRL_REVERT ∧ h.dlGood d ∧ h.selDl ≠ d then h.selectDl d else h

/-- A changed DL_SEL takes effect (R32). A forced policy that names a downlink that is not good selects it at once,
and no switch is counted (DESIGN CHOICE, log entry 43). -/
def Hub.takePolicy (h : Hub) : Hub :=
  let h := { h with clk := { h.clk with pol := h.get CLK_CTRL_DL_SEL } }
  match h.policyPick with
  | none => h
  | some d =>
    if d = h.selDl then h
    else if h.dlGood d then (h.selectDl d).switched
    else (h.put CLK_STATUS_DL_ACTIVE d).rttRestart.dlFault

/-- HOLD_FORCE was written (R59); after a clear the hub leaves holdover under R38. -/
def Hub.holdForce (h : Hub) : Hub := if h.on CLK_CTRL_HOLD_FORCE then h.enterHoldover else h

/-- The frequency measured on ocxo_clk differs from REF_KHZ by more than 100 ppm (R33). -/
def Hub.freqBad (h : Hub) : Bool :=
  match h.clk.ocxoHz with
  | none => false
  | some f =>
    let nominal : Int := h.clk.refKhz * 1000
    decide (nominal < ((f : Int) - nominal).natAbs * 10000)

/-- Some condition of R33 holds; in local mode the frequency check is not made (R35). -/
def Hub.refBad (h : Hub) : Bool :=
  !h.clk.ocxoWarm || h.on CLK_STATUS_REF_LOST || (h.freqBad && !h.on CLK_STATUS_LOCAL)

/-- REF_COLD follows its conditions; while it is set holdover is not qualified (R33, R34). -/
def Hub.refreshRef (h : Hub) : Hub :=
  if h.refBad then
    { h with clk := { h.clk with qualified := false } }.put CLK_STATUS_REF_COLD 1 |>.put CLK_STATUS_HOLD_UNQUAL 1
  else h.put CLK_STATUS_REF_COLD 0

/-- A planned re-lock begins with the REF_KHZ of the register (R34). -/
def Hub.relock (h : Hub) : Hub :=
  let h := (h.enterHoldover).put CLK_CTRL_RELOCK 1
  { h with clk := { h.clk with relocking := true, refKhz := h.get CLK_REF_CFG_REF_KHZ } }.refreshRef

/-- A planned re-lock completes (R34). With HOLD_FORCE = 1 or no good downlink the hub stays in holdover. -/
def Hub.relockDone (h : Hub) : Hub :=
  if h.clk.relocking then
    let h := { h with clk := { h.clk with relocking := false } }.put CLK_CTRL_RELOCK 0
    if h.dlGood h.selDl then h.switched else h
  else h

/-- The good downlink that a hub in holdover returns to: the selected one, on which it stays, or under an automatic
policy the other one once the selected one has failed (R28, R31). -/
def Hub.returnTo (h : Hub) : Option Nat :=
  let d := h.selDl
  if h.dlGood d then some d
  else if h.autoPolicy ∧ h.dlFailed ∧ h.dlGood (1 - d) then some (1 - d)
  else none

/-- A good downlink is available in holdover; `err` is the phase error found, in ps (R38, R39). -/
def Hub.holdoverExit (h : Hub) (err : Int) : Hub :=
  match h.returnTo with
  | none => h
  | some d =>
    if h.on CLK_STATUS_HOLDOVER ∧ h.holdFree then
      let h := if d = h.selDl then h else h.selectDl d
      let f : Int := h.clk.hz
      let e : Int := if err < 0 then -err else err
      if h.clk.freeRun ∨ h.clk.refReturned then h.slipLock
      else if e * 64 * 2 * f ≤ 1000000000000 then { h with clk := { h.clk with slewing := true } }
      else if e * 2 * f ≤ 1000000000000 then { h with clk := { h.clk with stepPending := true } }
      else h.slipLock
    else h

/-- The hub in holdover may complete a return to the selected downlink: it is good and no request holds the hub
(R34, R38, R59). -/
def Hub.mayReturn (h : Hub) : Bool := h.on CLK_STATUS_HOLDOVER && h.holdFree && h.dlGood h.selDl

/-- The slew is complete (R38). -/
def Hub.slewDone (h : Hub) : Hub := if h.clk.slewing ∧ h.mayReturn then h.leaveHoldover else h

/-- The four samples of every channel from the next one on carry Q for a moved phase (R38, R51). -/
def Hub.markPhase (h : Hub) : Hub := { h with clk := { h.clk with phaseTo := h.clk.tick + 1 + 4 } }

/-- The phase is stepped at a BX boundary (R38). -/
def Hub.phaseStep (h : Hub) : Hub :=
  if h.clk.stepPending ∧ h.mayReturn then (h.set1 CLK_STATUS_HOLD_STEP).markPhase.leaveHoldover else h

/-- 100 ms of holdover have passed (R37). -/
def Hub.holdoverLong (h : Hub) : Hub := h.putIf (h.on CLK_STATUS_HOLDOVER) CLK_STATUS_HOLD_LONG 1

/-- The PLL has been locked to a good downlink with REF_COLD = 0 for 10 s (R36). -/
def Hub.holdoverQualified (h : Hub) : Hub :=
  if h.on CLK_STATUS_MACHINE_LOCK ∧ !h.on CLK_STATUS_HOLDOVER ∧ !h.on CLK_STATUS_REF_COLD ∧ !h.on CLK_STATUS_LOCAL then
    { h with clk := { h.clk with qualified := true } }.put CLK_STATUS_HOLD_UNQUAL 0
  else h

/-! ## The oscillator (R33, R34, R39) -/

/-- The ocxo_warm input changes level (R33). -/
def Hub.ocxoWarmChange (h : Hub) (warm : Bool) : Hub := { h with clk := { h.clk with ocxoWarm := warm } }.refreshRef

/-- ocxo_clk is measured against the recovered BXC (R33). -/
def Hub.refFreqCheck (h : Hub) (hz : Nat) : Hub := { h with clk := { h.clk with ocxoHz := some hz } }.refreshRef

/-- ocxo_clk shows no edge for 1 µs (R33, R39, R250). -/
def Hub.refLost (h : Hub) : Hub := ((h.put CLK_STATUS_REF_LOST 1).refreshRef).checkFreeRun.refreshFreq.frqNoRef

/-- Edges return on ocxo_clk: the PLL takes its phase from the oscillator in unqualified holdover (R39). -/
def Hub.refReturn (h : Hub) : Hub :=
  let h := h.put CLK_STATUS_REF_LOST 0
  let h :=
    if h.clk.freeRun then
      ({ h with clk := { h.clk with freeRun := false, refReturned := true } }.put CLK_STATUS_HOLDOVER 1)
        |>.put CLK_STATUS_LOCAL 0
    else h
  h.refreshRef.refreshFreq

/-! ## First lock and local mode (R35, R146) -/

/-- A recovered BXC that the PLL does not lock to (R60). -/
def bxcOutside (hz : Nat) : Bool := decide (hz < 24000000) || decide (48000000 < hz)

/-- The BXC of the selected downlink is measured (R58, R60). -/
def Hub.bxcMeasured (h : Hub) (hz : Nat) : Hub :=
  let h := h.put CLK_STATUS_BXC_RANGE (b2n (bxcOutside hz))
  if h.on CLK_STATUS_MACHINE_LOCK ∧ !h.on CLK_STATUS_LOCAL ∧ !bxcOutside hz then
    { h with clk := { h.clk with hz := hz } }.refreshFreq
  else h

/-- The MACHINE PLL first locks after reset to a downlink whose BXC is `hz`; outside 24 to 48 MHz, and while it is in
holdover, it does not lock (R59, R60, R146). -/
def Hub.pllLock (h : Hub) (hz : Nat) : Hub :=
  let h := h.put CLK_STATUS_BXC_RANGE (b2n (bxcOutside hz))
  if h.on CLK_STATUS_MACHINE_LOCK ∨ h.on CLK_STATUS_HOLDOVER ∨ h.on CLK_STATUS_LOCAL ∨ bxcOutside hz then h
  else
    match h.goodPick with
    | none => h
    | some d => ({ h.put CLK_STATUS_DL_ACTIVE d with clk := { h.clk with hz := hz } }).locked.refreshFreq

/-- No downlink was good for 100 ms after boot step 1: the PLL locks to ocxo_clk (R35). -/
def Hub.localEnter (h : Hub) : Hub :=
  if h.clk.everGood ∨ h.on CLK_STATUS_REF_LOST ∨ h.dlGood 0 ∨ h.dlGood 1 then h
  else
    let khz := h.get CLK_REF_CFG_LOCAL_KHZ
    let h := { h with clk := { h.clk with localKhz := khz, hz := khz * 1000 } }
    let h := ((h.put CLK_STATUS_LOCAL 1).put CLK_STATUS_HOLDOVER 0).put TIME_STATUS_BX_VALID 0
    h.locked.refreshRef.refreshFreq

/-- A downlink with BXC `hz` is good in local mode and the policy selects it: the hub locks to it, and enters holdover
at once where HOLD_FORCE = 1 or a re-lock runs (R34, R35, R59, R60; DESIGN CHOICE, log entry 52). -/
def Hub.localExit (h : Hub) (hz : Nat) : Hub :=
  if h.on CLK_STATUS_LOCAL then
    let h := h.put CLK_STATUS_BXC_RANGE (b2n (bxcOutside hz))
    match if bxcOutside hz then none else h.goodPick with
    | none => h
    | some d =>
      let h := (h.put CLK_STATUS_LOCAL 0).put CLK_STATUS_DL_ACTIVE d
      let h := { h with clk := { h.clk with hz := hz } }.slipLock.refreshRef
      if h.holdFree then h else h.enterHoldover
  else h

/-! ## Numbering (R40 to R42) -/

/-- BX_SET acts, `gzb` being the gazebo microsecond counter: the count is loaded, numbering
validated, and a change of a valid count is a jump, raised with the label of the sample period that comes next, the
first in the loaded numbering. Answers whether the count changed. -/
def Hub.bxSetCount (h : Hub) (gzb : Nat) : Hub × Bool :=
  let new := h.r64 TIME_BX_PRESET / 2 ^ 16
  let old := h.nextFrame
  let valid := h.on TIME_STATUS_BX_VALID
  let h := (h.inc TIME_BXSET_COUNT).w64 TIME_GZB_AT_SET (gzb % 2 ^ 48)
  -- the sample period that comes next carries the loaded count
  let bxBefore := if h.clk.slot = 1 then (new + 2 ^ 48 - 1) % 2 ^ 48 else new
  let h := { h with clk := { h.clk with frame := bxBefore, slipMark := h.clk.freeRun } }
  let h := h.put TIME_STATUS_BX_VALID 1
  if new = old then (h, false)
  else if valid then ((h.set1 TIME_STATUS_BX_JUMP).raiseAt ((h.label + 1) % labelSpan) 0x16 0 (old % 2 ^ 32), true)
  else (h, true)

/-! ## Alignment (R44 to R51, R64) -/

/-- Twice the programmed delay, in ps (R44). -/
def Hub.delay2 (h : Hub) : Int :=
  2 * (h.rd TIME_TARGET.addr : Int) - 2 * sgn 32 (h.rd TIME_PATH_DELAY.addr) - (h.rd TIME_RTT.addr : Int)
    - 2 * (h.rd TIME_HUB_OFFSET.addr : Int)

/-- The programmed delay in 1/4,096 sample, halves rounded up (R46). -/
def Hub.alignUnits (h : Hub) : Int :=
  let f : Int := h.rd CLK_BXC_FREQ.addr
  (2 * h.delay2 * 4096 * f + 1000000000000) / 2000000000000

/-- TIME_ALIGN_CTRL.COMPUTE: every case of R48 that holds sets its flag. Without a frequency the programmed delay is
still a number of picoseconds, but no number of samples (R46, R48, R49). -/
def Hub.alignCompute (h : Hub) : Hub :=
  let noClk := h.rd CLK_BXC_FREQ.addr == 0
  let noRtt := !h.on TIME_STATUS_RTT_VALID
  let negative := decide (h.delay2 < 0)
  let range := !noClk && !negative && decide (255 < h.alignUnits / 4096)
  let armed := h.on TIME_STATUS_ALIGN_ARMED
  let n := h.alignUnits.toNat
  let h := (h.putIf noClk TIME_STATUS_ALIGN_NO_CLK 1).putIf noRtt TIME_STATUS_ALIGN_NO_RTT 1
  let h := (h.putIf negative TIME_STATUS_ALIGN_NEG 1).putIf range TIME_STATUS_ALIGN_RANGE 1
  let h := h.putIf armed TIME_STATUS_ALIGN_LATE 1
  if noClk ∨ noRtt ∨ negative ∨ range ∨ armed then h else h.wr TIME_ALIGN_NEXT.addr n

/-- TIME_ALIGN_CTRL.ARM (R49). -/
def Hub.alignArm (h : Hub) : Hub :=
  let bx := h.r64 TIME_ALIGN_BX / 2 ^ 16
  let ahead := aheadMod (2 ^ 48) bx h.clk.frame
  if 2 ≤ ahead ∧ ahead < 2 ^ 47 then
    { h with clk := { h.clk with armedBx := bx } }.put TIME_STATUS_ALIGN_ARMED 1
  else h.set1 TIME_STATUS_ALIGN_LATE

/-- TIME_ALIGN_CTRL.CANCEL (R64). -/
def Hub.alignCancel (h : Hub) : Hub := h.put TIME_STATUS_ALIGN_ARMED 0

/-- The first sample of the armed BX comes next: TIME_ALIGN_NEXT is applied, unless WHOLE would change in RUN
(R49 to R51). Answers whether it was applied. -/
def Hub.alignApply (h : Hub) : Hub × Bool :=
  if h.on TIME_STATUS_ALIGN_ARMED ∧ h.nextFrame = h.clk.armedBx then
    let next := h.rd TIME_ALIGN_NEXT.addr
    let old := h.rd TIME_ALIGN.addr
    let h := h.put TIME_STATUS_ALIGN_ARMED 0
    if h.inRun ∧ next / 4096 ≠ old / 4096 then (h.set1 TIME_STATUS_ALIGN_WHOLE_RUN, false)
    else
      let h := (h.wr TIME_ALIGN.addr next).set1 TIME_STATUS_ALIGN_DONE
      (if next % 4096 = old % 4096 then h else h.markPhase, true)
  else (h, false)

/-! ## The orangery (R54 to R57, R65 to R67) -/

/-- MARGIN_LOW follows the highest die temperature and the set point (R54). -/
def Hub.refreshMargin (h : Hub) : Hub :=
  h.put ORG_STATUS_MARGIN_LOW (b2n (h.get ORG_CTRL_SETPOINT * 10 < h.get ORG_TEMP_DIE_MAX + 500))

/-- The heater is powered: while it regulates, in READY and RUN, and in STANDBY where STBY_HEAT says so (R57, R494). -/
def Hub.heatOn (h : Hub) : Bool :=
  h.on ORG_CTRL_EN && (h.sampling || (h.pwr.state == .standby && h.on PWR_CFG_STBY_HEAT))

/-- HEAT_SAT: the heater is at 200 mW and the island below the set point (R55). -/
def Hub.refreshHeat (h : Hub) : Hub :=
  h.put ORG_STATUS_HEAT_SAT
    (b2n (h.get ORG_STATUS_HEATER_MW == 200 && decide (h.get ORG_TEMP_ISLAND < h.get ORG_CTRL_SETPOINT * 10)))

/-- A heater without power draws none (R57, R494). -/
def Hub.heatPower (h : Hub) : Hub := if h.heatOn then h else (h.put ORG_STATUS_HEATER_MW 0).refreshHeat

/-- WARM asserts (R55). -/
def Hub.warmAssert (h : Hub) : Hub :=
  if h.on ORG_STATUS_WARM ∨ !h.on ORG_CTRL_EN then h
  else
    let h := h.put ORG_STATUS_WARM 1
    h.wr ORG_WARM_TIME.addr (min (h.clk.orgUsec / 1000) (2 ^ 32 - 1))

/-- WARM deasserts; the density tables become cold (R55, R240). -/
def Hub.warmDeassert (h : Hub) : Hub :=
  if h.on ORG_STATUS_WARM then
    ((h.put ORG_STATUS_WARM 0).set1 ORG_STATUS_WARM_LOST).wr ORG_WARM_TIME.addr (2 ^ 32 - 1) |>.cdCold
  else h

/-- ORG_CTRL is written: EN and SETPOINT, a set point outside 450 to 850 refused (R57, R58, R65). -/
def Hub.orgCtrlWrite (h : Hub) (en setpoint : Nat) : Hub :=
  let h := h.put ORG_CTRL_EN en
  let h :=
    if 450 ≤ setpoint ∧ setpoint ≤ 850 then h.put ORG_CTRL_SETPOINT setpoint else h.set1 ORG_STATUS_SET_ILLEGAL
  let h := { h with clk := { h.clk with orgUsec := 0 } }
  let h := h.wr ORG_WARM_TIME.addr (if h.on ORG_STATUS_WARM then 0 else 2 ^ 32 - 1)
  let h := h.refreshMargin
  (if en = 0 then h.warmDeassert.put ORG_STATUS_HEATER_MW 0 else h).refreshHeat

end Sys2Proof.Machine
end

