-- ==== Sys2Proof/Machine/Crypto.lean ====
section
/-! DEFINITION. Checks over bytes: the CRC-8 of spokes (R352), the CRC-16 of downlink and upstream frames (R330),
the CRC-24 of uplink frames (R347), the CRC-32 of frames and checkpoints (R386), and HMAC-SHA-256 (R420, R421). -/

namespace Sys2Proof.Machine

/-- The four bytes of a word, most significant first (R329). -/
def wordBytes (w : Nat) : List Nat := [bits w 31 24, bits w 23 16, bits w 15 8, bits w 7 0]

/-- The bytes of a list of words (R329). -/
def wordsBytes (l : List Nat) : List Nat := (l.map wordBytes).flatten

/-- A word from four bytes, most significant first. -/
def bytesWord (l : List Nat) : Nat := l.foldl (fun a b => a * 256 + b % 256) 0

/-- The whole words of a list of bytes. -/
def bytesWords : List Nat → List Nat
  | a :: b :: c :: d :: t => bytesWord [a, b, c, d] :: bytesWords t
  | _ => []

/-! ## Cyclic checks -/

/-- One bit of an unreflected CRC of width `w`. -/
def crcBit (w poly c : Nat) : Nat :=
  let s := c * 2 % 2 ^ w
  if c / 2 ^ (w - 1) % 2 = 1 then s ^^^ poly else s

/-- `n` bits of an unreflected CRC. -/
def crcBits (w poly : Nat) : Nat → Nat → Nat
  | 0, c => c
  | n + 1, c => crcBits w poly n (crcBit w poly c)

/-- An unreflected CRC over bytes. -/
def crc (w poly init : Nat) (l : List Nat) : Nat :=
  l.foldl (fun c b => crcBits w poly 8 (c ^^^ b % 256 * 2 ^ (w - 8))) init

/-- CRC-16, polynomial 0x1021, from 0xFFFF (R330, R354). -/
def crc16 (l : List Nat) : Nat := crc 16 0x1021 0xFFFF l

/-- CRC-8, polynomial 0x2F, from 0xFF (R352). -/
def crc8 (l : List Nat) : Nat := crc 8 0x2F 0xFF l

/-- CRC-24 of RFC 4880 (R347). -/
def crc24 (l : List Nat) : Nat := crc 24 0x864CFB 0xB704CE l

/-- One bit of the reflected CRC-32. -/
def crc32Bit (c : Nat) : Nat := if c % 2 = 1 then c / 2 ^^^ 0xEDB88320 else c / 2

/-- `n` bits of the reflected CRC-32. -/
def crc32Bits : Nat → Nat → Nat
  | 0, c => c
  | n + 1, c => crc32Bits n (crc32Bit c)

/-- The CRC-32 of IEEE 802.3 over bytes (R386). -/
def crc32 (l : List Nat) : Nat :=
  l.foldl (fun c b => crc32Bits 8 (c ^^^ b % 256)) 0xFFFFFFFF ^^^ 0xFFFFFFFF

/-! ## SHA-256 and HMAC -/

/-- The words of a number of `32 n` bits, the most significant first. -/
def packed (n v : Nat) : List Nat := (List.range n).map fun i => bits v (32 * (n - i) - 1) (32 * (n - 1 - i))

/-- The round constants of SHA-256, eight to a row. -/
def shaRounds : List Nat :=
  ([0x428a2f9871374491b5c0fbcfe9b5dba53956c25b59f111f1923f82a4ab1c5ed5,
    0xd807aa9812835b01243185be550c7dc372be5d7480deb1fe9bdc06a7c19bf174,
    0xe49b69c1efbe47860fc19dc6240ca1cc2de92c6f4a7484aa5cb0a9dc76f988da,
    0x983e5152a831c66db00327c8bf597fc7c6e00bf3d5a7914706ca635114292967,
    0x27b70a852e1b21384d2c6dfc53380d13650a7354766a0abb81c2c92e92722c85,
    0xa2bfe8a1a81a664bc24b8b70c76c51a3d192e819d6990624f40e3585106aa070,
    0x19a4c1161e376c082748774c34b0bcb5391c0cb34ed8aa4a5b9cca4f682e6ff3,
    0x748f82ee78a5636f84c878148cc7020890befffaa4506cebbef9a3f7c67178f2] : List Nat).flatMap (packed 8)

/-- The initial hash value of SHA-256. -/
def shaStart : List Nat :=
  packed 8 0x6a09e667bb67ae853c6ef372a54ff53a510e527f9b05688c1f83d9ab5be0cd19

/-- The sum, without carries, of a word turned right by each of the given places and of `low`. -/
def turned (places : List Nat) (x low : Nat) : Nat :=
  places.foldl (fun acc n => acc ^^^ (x / 2 ^ n + x * 2 ^ (32 - n) % 2 ^ 32)) low

/-- The next word of a message schedule, whose last sixteen words stand newest first. -/
def shaWord (w : List Nat) : Nat :=
  let near := w.getD 1 0
  let far := w.getD 14 0
  (turned [7, 18] far (far / 8) + turned [17, 19] near (near / 1024) + w.getD 6 0 + w.getD 15 0) % 2 ^ 32

/-- A message schedule, newest word first, with `n` words more. -/
def shaSchedule (n : Nat) (w : List Nat) : List Nat := (List.range n).foldl (fun w _ => shaWord w :: w) w

/-- The working variables of SHA-256 as two halves of four words, the newest first in each: a to d and e to h. -/
structure ShaVars where
  upper : List Nat
  lower : List Nat

/-- One round of SHA-256 with `kw` the sum of its constant and its schedule word. -/
def ShaVars.round (v : ShaVars) (kw : Nat) : ShaVars :=
  let a := v.upper.getD 0 0
  let b := v.upper.getD 1 0
  let c := v.upper.getD 2 0
  let e := v.lower.getD 0 0
  let f := v.lower.getD 1 0
  let g := v.lower.getD 2 0
  let mix := kw + v.lower.getD 3 0 + (g ^^^ e &&& (f ^^^ g)) + turned [6, 11, 25] e 0
  let top := mix + (a &&& b ||| c &&& (a ||| b)) + turned [2, 13, 22] a 0
  { upper := top % 2 ^ 32 :: v.upper.take 3
    lower := (v.upper.getD 3 0 + mix) % 2 ^ 32 :: v.lower.take 3 }

/-- The compression of one block of 16 words. -/
def shaBlock (hash block : List Nat) : List Nat :=
  let sums := List.zipWith (· + ·) shaRounds (shaSchedule 48 block.reverse).reverse
  let v := sums.foldl ShaVars.round ⟨hash.take 4, hash.drop 4⟩
  List.zipWith (fun x y => (x + y) % 2 ^ 32) hash (v.upper ++ v.lower)

/-- The blocks of a padded message, `n` at most. -/
def shaBlocks : Nat → List Nat → List Nat → List Nat
  | 0, hash, _ => hash
  | n + 1, hash, w => if w.isEmpty then hash else shaBlocks n (shaBlock hash (w.take 16)) (w.drop 16)

/-- SHA-256 of a byte string, as eight words. -/
def sha256 (m : List Nat) : List Nat :=
  let len := m.length
  let pad := List.replicate ((119 - len % 64) % 64) 0
  let w := bytesWords (m ++ 0x80 :: pad) ++ [len * 8 / 2 ^ 32 % 2 ^ 32, len * 8 % 2 ^ 32]
  shaBlocks (w.length / 16) shaStart w

/-- HMAC-SHA-256 under a 32-byte key, as 32 bytes (R390, R420, R421). -/
def hmac (key m : List Nat) : List Nat :=
  let k := key ++ List.replicate (64 - key.length) 0
  let inner := sha256 (k.map (· ^^^ 0x36) ++ m)
  wordsBytes (sha256 (k.map (· ^^^ 0x5c) ++ wordsBytes inner))

end Sys2Proof.Machine
end

