-- ==== Sys2Proof/Machine/LineOps.lean ====
section
/-! DEFINITION. The line of a serial lane (11): the registers of a lane, the 8b/10b code (R306), and the pattern
generator and checker of a loopback (R322, R323). A symbol is its byte, with the K flag as bit 8; a group is its ten
bits abcdei fghj, a the most significant. The tables are those of IEEE 802.3 Clause 36 (PRESUMED, log entry 38). -/

namespace Sys2Proof.Machine

/-! ## Registers of a lane (R325, R326) -/

/-- The window of lane l. -/
def laneBase (l : Nat) : Nat :=
  if l < 12 then 0x70000 + 0x40 * l else if l < 14 then 0x80000 + 0x40 * (l - 12) else 0x90000 + 0x40 * (l - 14)

def lEn (l : Nat) : RF := ⟨laneBase l, 0, 0⟩
def lRetrain (l : Nat) : RF := ⟨laneBase l, 3, 3⟩
def lLoop (l : Nat) : RF := ⟨laneBase l, 5, 4⟩
def lCfg (l : Nat) : RF := ⟨laneBase l + 4, 31, 0⟩
def lState (l : Nat) : RF := ⟨laneBase l + 8, 3, 0⟩
def lCause (l : Nat) : RF := ⟨laneBase l + 8, 11, 8⟩
def lLoopSync (l : Nat) : RF := ⟨laneBase l + 8, 13, 13⟩
def lLoopRefused (l : Nat) : RF := ⟨laneBase l + 8, 14, 14⟩
def lCfgIllegal (l : Nat) : RF := ⟨laneBase l + 8, 15, 15⟩
def lEqStep (l : Nat) : RF := ⟨laneBase l + 8, 20, 16⟩
def lEye (l : Nat) : RF := ⟨laneBase l + 8, 31, 24⟩
def lRun (l : Nat) : RF := ⟨laneBase l + 0xC, 3, 0⟩
def lTotal (l : Nat) : RF := ⟨laneBase l + 0xC, 31, 16⟩
def lLoopSym (l : Nat) : RF := ⟨laneBase l + 0x20, 31, 0⟩
def lLoopErr (l : Nat) : RF := ⟨laneBase l + 0x28, 31, 0⟩

/-- STATE of lane l (R311): 0 DISABLED, 1 DOWN, 2 COMMA, 3 SYMBOL, 4 FRAME, 5 EQ, 6 IDENT, 7 UP, 8 LOOP. -/
def Hub.ls (h : Hub) (l : Nat) : Nat := h.get (lState l)
def Hub.setLs (h : Hub) (l st : Nat) : Hub := h.put (lState l) st

/-! ## Symbols (R331, R355) -/

def k282 : Nat := 256 + 0x5C
def k283 : Nat := 256 + 0x7C
def k285 : Nat := 256 + 0xBC
def k286 : Nat := 256 + 0xDC
def k287 : Nat := 256 + 0xFC

/-- What a receiver has instead of a symbol where the group was a code error (R306). -/
def badSymbol : Nat := 512

/-- The byte value of a symbol, as it enters a check (R330, R355). -/
def symByte (s : Nat) : Nat := s % 256

/-! ## The 8b/10b code (R306) -/

/-- The sub-blocks abcdei of D.0 to D.31 at negative running disparity. -/
def code6 : List Nat :=
  [0b100111, 0b011101, 0b101101, 0b110001, 0b110101, 0b101001, 0b011001, 0b111000,
   0b111001, 0b100101, 0b010101, 0b110100, 0b001101, 0b101100, 0b011100, 0b010111,
   0b011011, 0b100011, 0b010011, 0b110010, 0b001011, 0b101010, 0b011010, 0b111010,
   0b110011, 0b100110, 0b010110, 0b110110, 0b001110, 0b101110, 0b011110, 0b101011]

/-- The sub-blocks fghj of D.x.0 to D.x.7 at negative running disparity. -/
def code4 : List Nat := [0b1011, 0b1001, 0b0101, 0b1100, 0b1101, 0b1010, 0b0110, 0b1110]

/-- The sub-blocks fghj of K.x.0 to K.x.7 at negative running disparity; each has its complement at positive. -/
def codeK4 : List Nat := [0b1011, 0b0110, 0b1010, 0b1100, 0b1101, 0b0101, 0b1001, 0b0111]

/-- The running disparity after a sub-block of n bits, true for positive. -/
def disparity (rd : Bool) (n w : Nat) : Bool :=
  let ones := ((List.range n).filter (bit w)).length
  if ones * 2 = n then (if w = 2 ^ (n / 2) - 1 then true else if w = 2 ^ n - 2 ^ (n / 2) then false else rd)
  else decide (n < ones * 2)

/-- The running disparity after a group. -/
def groupDisparity (rd : Bool) (g : Nat) : Bool := disparity (disparity rd 6 (g / 16)) 4 (g % 16)

/-- The form of a sub-block, given at negative disparity, that is sent at disparity rd: its complement at positive
disparity if it is unbalanced, or one of the two balanced ones with an alternative, or where `pair` says so. -/
def subBlock (pair rd : Bool) (n w : Nat) : Nat :=
  if rd && (pair || disparity true n w == disparity false n w) then 2 ^ n - 1 - w else w

/-- D.x.7 takes its alternative form, which avoids a run of five equal bits. -/
def alternate7 (rd : Bool) (x : Nat) : Bool :=
  if rd then x == 11 || x == 13 || x == 14 else x == 17 || x == 18 || x == 20

/-- The sub-block abcdei of a symbol, by its low five bits and whether it is a K character. -/
def encode6 (rd k : Bool) (x : Nat) : Nat := subBlock false rd 6 (if k && x == 28 then 0b001111 else code6.getD x 0)

/-- The group of a symbol at running disparity rd. -/
def encodeSym (rd : Bool) (s : Nat) : Nat :=
  let x := s % 32
  let y := s / 32 % 8
  let k := decide (256 ≤ s)
  let hi := encode6 rd k x
  let rd := disparity rd 6 hi
  let lo :=
    if k then subBlock true rd 4 (codeK4.getD y 0)
    else if y = 7 ∧ alternate7 rd x then subBlock true rd 4 0b0111
    else subBlock false rd 4 (code4.getD y 0)
  hi * 16 + lo

/-- The K characters besides K28.0 to K28.7: K23.7, K27.7, K29.7 and K30.7. -/
def kBeyond : List Nat := [23, 27, 29, 30]

/-- The symbols whose groups start with the sub-block `hi` at disparity rd. -/
def candidates (rd : Bool) (hi : Nat) : List Nat :=
  let xs := (List.range 32).filter fun x => encode6 rd false x == hi
  xs.flatMap (fun x => (List.range 8).map fun y => 32 * y + x)
    ++ (xs.filter kBeyond.contains).map (256 + 224 + ·)
    ++ (if encode6 rd true 28 = hi then (List.range 8).map fun y => 256 + 32 * y + 28 else [])

/-- The symbol a group stands for at running disparity rd; none: a code error (R306). -/
def decodeSym (rd : Bool) (g : Nat) : Option Nat := (candidates rd (g / 16)).find? fun s => encodeSym rd s == g

/-- The groups of symbols sent from disparity rd on, and the disparity after them. -/
def encodeSyms (rd : Bool) : List Nat → List Nat × Bool
  | [] => ([], rd)
  | s :: t =>
    let g := encodeSym rd s
    let (gs, rd) := encodeSyms (groupDisparity rd g) t
    (g :: gs, rd)

/-- The disparity a receiver takes from a group before it has one: that at which the group is K28.5, of either
disparity (R306). -/
def commaDisparity (g : Nat) : Option Bool := [false, true].find? fun rd => encodeSym rd k285 == g

/-- The symbols a receiver decodes from groups, and the disparity it has after them. -/
def decodeSyms (rd : Option Bool) : List Nat → List Nat × Option Bool
  | [] => ([], rd)
  | g :: t =>
    match rd <|> commaDisparity g with
    | none => let (ss, rd) := decodeSyms none t; (badSymbol :: ss, rd)
    | some rd =>
      let (ss, rd') := decodeSyms (some (groupDisparity rd g)) t
      ((decodeSym rd g).getD badSymbol :: ss, rd')

/-! ## The line of a lane (R306, R310) -/

/-- Groups as they stand on a line whose polarity is inverted. -/
def invertIf (inv : Bool) (gs : List Nat) : List Nat := if inv then gs.map (1023 - ·) else gs

/-- The transmitter of lane l sends symbols; POL_INV is bit 31 of UL_CFG, TX_INV bit 30 of SPK_CFG (R310, R327). -/
def Hub.transmit (h : Hub) (l : Nat) (syms : List Nat) : Hub :=
  let x := h.lane l
  let (gs, rd) := encodeSyms x.tx syms
  h.setLane l { x with tx := rd, line := invertIf (bit x.cfg (if l < 12 then 31 else 30)) gs }

/-- The receiver of lane l decodes groups from the line: the symbols, and how many code errors (R306, R310). -/
def Hub.receive (h : Hub) (l : Nat) (groups : List Nat) : (List Nat × Nat) × Hub :=
  let x := h.lane l
  let (syms, rd) := decodeSyms x.rx (invertIf (bit x.cfg 31) groups)
  ((syms, (syms.filter (· == badSymbol)).length), h.setLane l { x with rx := rd })

/-! ## The pattern (R323) -/

/-- One step of PRBS-31, x^31 + x^28 + 1: the new bit enters as the least significant of the last 31. -/
def prbsStep (g : Nat) : Nat := g % 2 ^ 30 * 2 + (g / 2 ^ 30 + g / 2 ^ 27) % 2

/-- The next data byte of the sequence: its first bit is bit 0, the one sent first (DEDUCED, log entry 64). -/
def prbsByte (g : Nat) : Nat :=
  ((List.range 8).foldl (fun (p : Nat × Nat) i => (prbsStep p.1, p.2 + prbsStep p.1 % 2 * 2 ^ i)) (g, 0)).2

/-- The last 31 bits of the sequence after a data byte. -/
def prbsLoad (g byte : Nat) : Nat := (List.range 8).foldl (fun g i => g % 2 ^ 30 * 2 + byte / 2 ^ i % 2) g

/-- Data bytes of the pattern, and the last 31 bits after them. -/
def prbsBytes : Nat → Nat → List Nat × Nat
  | 0, g => ([], g)
  | n + 1, g =>
    let b := prbsByte g
    let (l, g) := prbsBytes n (prbsLoad g b)
    (b :: l, g)

/-- Lane l's generator makes a frame of n symbols of the pattern (R323). -/
def Hub.patternFrame (h : Hub) (l n : Nat) : List Nat × Hub :=
  let x := h.lane l
  let (bytes, g) := prbsBytes (n - 1) x.gen
  (k285 :: bytes, h.setLane l { x with gen := g })

/-! ## The checker (R323) -/

/-- The checker sees the symbols that stand for one symbol of the pattern, the comma of its frame or the next data
byte, and answers how many it counts and how many of them in error. Until it has LOOP_SYNC it takes the sequence from
the bytes it receives. -/
def Checker.see (c : Checker) (comma : Bool) (syms : List Nat) : Checker × Nat × Nat :=
  let want := if comma then k285 else prbsByte c.gen
  let bad := (syms.filter fun s => s != want || (!comma && decide (c.seen < 4))).length
  let s := if c.sync then want else syms.headD badSymbol
  let run := if bad = 0 then min 64 (c.run + syms.length) else 0
  let sync := c.sync || run == 64
  ({ gen := if comma then c.gen else prbsLoad c.gen (symByte s)
     seen := if comma then c.seen else if s < 256 then min 4 (c.seen + 1) else 0
     run := run, sync := sync, on := c.on || sync },
   if c.on then (syms.length, bad) else (0, 0))

/-- A list cut into pieces of k. -/
def pieces (k : Nat) (l : List Nat) : List (List Nat) :=
  (List.range (l.length / k)).map fun i => (l.drop (k * i)).take k

/-- The checker sees the rest of a frame, each symbol of the pattern k times: how many it counts, how many in error. -/
def Checker.seeAll (c : Checker) (comma : Bool) : List (List Nat) → Checker × Nat × Nat
  | [] => (c, 0, 0)
  | p :: t =>
    let (c, n, e) := c.see comma p
    let (c, m, f) := c.seeAll false t
    (c, n + m, e + f)

/-- The checker of looped lane l sees a frame, each symbol of the pattern k times (R322, R323). -/
def Hub.loopCheck (h : Hub) (l k : Nat) (syms : List Nat) : Hub :=
  let x := h.lane l
  let (c, n, e) := x.check.seeAll true (pieces k syms)
  let h := (h.setLane l { x with check := c, silent := false }).put (lLoopSync l) (b2n c.sync)
  (h.w64 (lLoopSym l) (h.r64 (lLoopSym l) + n)).wr (lLoopErr l).addr (min (2 ^ 32 - 1) (h.rd (lLoopErr l).addr + e))

/-- The generator of looped lane l feeds its own checker with a frame of n symbols; the coder and decoder between
them give each symbol back (R322). -/
def Hub.loopInside (h : Hub) (l n : Nat) : Hub :=
  let (syms, h) := h.patternFrame l n
  h.loopCheck l 1 syms

/-- A frame on the line of looped receive lane l, where its mode is FAR: a spoke's comes back four symbols for each
(R322); each symbol that comes is checked and counted (DEDUCED, log entry 65). -/
def Hub.loopOutside (h : Hub) (l : Nat) (syms : List Nat) : Hub :=
  if h.get (lLoop l) = 3 then h.loopCheck l (if 14 ≤ l then 4 else 1) syms else h

/-- A frame's time passes on looped receive lane l: the internal generator feeds the checker, or, on a FAR lane whose
partner is gone, only broken symbols come (R322, R324). -/
def Hub.loopTick (h : Hub) (l : Nat) : Hub :=
  if h.ls l ≠ 8 then h
  else if h.get (lLoop l) = 3 then
    if (h.lane l).silent then
      let h := h.loopOutside l (List.replicate 16 badSymbol)
      h.setLane l { h.lane l with silent := true }
    else h
  else h.loopInside l 16

/-- The partner of FAR lane l is lost: LOOP_SYNC is, and errors are counted until frames come again (R324). -/
def Hub.loopSilent (h : Hub) (l : Nat) : Hub :=
  if h.get (lLoop l) = 3 then
    let x := h.lane l
    (h.setLane l { x with check := { x.check with sync := false, run := 0, seen := 0 }, silent := true }).put
      (lLoopSync l) 0
  else h

/-- A write of LOOP clears the counters and LOOP_SYNC; the generator starts at a place the spec leaves open (R323,
log entry 64). -/
def Hub.loopClear (h : Hub) (l : Nat) : Hub :=
  let h := ((h.w64 (lLoopSym l) 0).wr (lLoopErr l).addr 0).put (lLoopSync l) 0
  h.setLane l { h.lane l with check := {}, silent := false, gen := (Config.prbsSeed l h.clk.tick).toNat }

end Sys2Proof.Machine
end

