-- ==== Sys2Proof/Machine/LeafOps.lean ====
section
/-! DEFINITION. Spokes and leaf devices (13): downstream and upstream frames, presence, requests to leaves, leaf
records, the hold stores and stream 4. -/

namespace Sys2Proof.Machine

/-- STATE of spoke s (R326). -/
def Hub.spkState (h : Hub) (s : Nat) : Nat := h.get (SPK_STATUS_STATE s)

/-- An item as control symbols (R359). -/
def itemSymbols (words : List Nat) : List Nat := k282 :: wordsBytes words

/-- Queues an item for spoke s. -/
def Hub.sendItem (h : Hub) (s : Nat) (words : List Nat) : Hub :=
  let x := h.leaf s
  h.setLeaf s { x with down := x.down ++ itemSymbols words }

/-! ## Time-stamp offset (R375) -/

/-- The instant the comma of a spoke frame leaves the hub, in ps after the BX edge (R380, worked example). -/
def spokeTxPs : Nat := 1250

/-- LEAF_TS_OFF from the round trip and the alignment in effect (R375). -/
def Hub.tsOffset (h : Hub) (s : Nat) : Int :=
  let f : Int := if h.clk.hz = 0 then 32000000 else h.clk.hz
  let t2 : Int := 2 * spokeTxPs + (h.rd (IVL_SPK_RTT s).addr : Nat)
  let k := (t2 * f * 4096 - (h.rd TIME_ALIGN.addr : Nat) * 1000000000000) / 4096000000000000
  (k - (h.whole : Nat)) / 2

/-- OFF_DRIFT follows NEW and OFF. -/
def Hub.refreshDrift (h : Hub) (s : Nat) : Hub :=
  h.put (LEAF_STATUS_OFF_DRIFT s) (b2n (h.get (LEAF_TS_OFF_NEW s) != h.get (LEAF_TS_OFF_OFF s)))

/-- Recomputes NEW of a present leaf (R375). -/
def Hub.recomputeOffset (h : Hub) (s : Nat) : Hub :=
  if h.leafPresent s then (h.put (LEAF_TS_OFF_NEW s) (unsgn 16 (h.tsOffset s))).refreshDrift s else h

/-! ## SYNC (R358) -/

/-- SYNC goes out in the next downstream frame of spoke s; records are discarded until resynchronised. -/
def Hub.leafSync (h : Hub) (s : Nat) : Hub :=
  (h.setLeaf s { h.leaf s with syncDue := true }).put (LEAF_STATUS_SYNCING s) 1

/-- SYNC, in effect while frames are exchanged. -/
def Hub.leafSyncUp (h : Hub) (s : Nat) : Hub := if h.spkState s = 7 then h.leafSync s else h

/-- LEAF_CTRL.SYNC reads 1 until the SYNC has gone out (R6, R358). -/
def Hub.leafSyncWrite (h : Hub) (s : Nat) : Hub :=
  if h.spkState s = 7 then (h.leafSync s).put (LEAF_CTRL_SYNC s) 1 else h

/-- Upstream frame MAXLAG + 1 with a matching LBXL has arrived (R358). -/
def Hub.leafSyncDone (h : Hub) (s : Nat) : Hub :=
  if h.spkState s = 7 ∧ !(h.leaf s).syncDue then h.put (LEAF_STATUS_SYNCING s) 0 else h

/-- A BX_SET that changes the count sends SYNC on every spoke in UP (R358). -/
def Hub.leafSyncAll (h : Hub) : Hub := h.forAll (List.range 16) Hub.leafSyncUp

/-- LEAF_CTRL.RESET, ignored while the spoke is not UP; it reads 1 until the RESET has gone out (R6, R353, R382). -/
def Hub.leafReset (h : Hub) (s : Nat) : Hub :=
  if h.spkState s = 7 then (h.setLeaf s { h.leaf s with resetDue := true }).put (LEAF_CTRL_RESET s) 1 else h

/-- The frame with the SYNC or RESET has gone, or the spoke has left UP: the actions of LEAF_CTRL are over (R6). -/
def Hub.leafCtrlOver (h : Hub) (s : Nat) : Hub :=
  (h.put (LEAF_CTRL_RESET s) 0).putIf (!(h.leaf s).syncDue) (LEAF_CTRL_SYNC s) 0

/-! ## The downstream frame (R352, R353) -/

/-- The fast-command byte of the frame of frame count F. -/
def Leaf.fastByte (x : Leaf) (f : Nat) : Nat :=
  if x.resetDue then 0x10
  else b2n x.syncDue * 0x80 + ((x.forward.filter fun p => p.1 == f).foldl (fun a p => a ||| p.2) 0)

/-- The control symbol of the next frame. -/
def Leaf.control (x : Leaf) : Nat :=
  if x.exits ≠ 0 then k287 else if x.echoDue then k286 else x.down.headD k283

/-- Spoke s is in a far-end loopback whose LOOP item, if one went, has left (R322, R364). -/
def Hub.spokeFar (h : Hub) (s : Nat) : Bool :=
  h.spkState s == 8 && h.get (lLoop (14 + s)) == 3 && (h.leaf s).down.isEmpty && (h.leaf s).exits == 0

/-- A frame of the far-end pattern on spoke s, or of the 16 BX before it (R322, R364). -/
def Hub.spokePattern (h : Hub) (s : Nat) : List Nat × Hub :=
  let x := h.lane (14 + s)
  if x.lead ≠ 0 then ([k285, 0, k283, crc8 [0, symByte k283]], h.setLane (14 + s) { x with lead := x.lead - 1 })
  else h.patternFrame (14 + s) 4

/-- A frame of Draveri on spoke s. A SYNC takes up F_s, NEW and ADJ (R358, R375). -/
def Hub.spokeLive (h : Hub) (s : Nat) : List Nat × Hub :=
  let x := h.leaf s
  let f := h.clk.frame
  let fast := x.fastByte f
  let ctl := x.control
  let frame := [k285, fast, ctl, crc8 [fast, symByte ctl]]
  let sync := x.syncDue && !x.resetDue
  let echo := x.exits == 0 && x.echoDue
  let h := h.setLeaf s { x with
    resetDue := false
    syncDue := x.syncDue && x.resetDue
    fs := if sync then f else x.fs
    up := if sync then none else x.up
    adj := if sync then h.get (LEAF_TS_ADJ_ADJ s) else x.adj
    exits := x.exits - 1
    echoDue := x.echoDue && !echo
    echoFrame := if echo then some ((f + 2 ^ 48 - (if sync then f else x.fs)) % 2 ^ 16) else x.echoFrame
    down := if x.exits = 0 ∧ !x.echoDue then x.down.drop 1 else x.down
    forward := x.forward.filter fun p => p.1 != f && aheadMod (2 ^ 48) p.1 f < 2 ^ 47 }
  let h := if x.syncDue || x.resetDue then h.leafCtrlOver s else h
  (frame, if sync then (h.put (LEAF_TS_OFF_OFF s) (h.get (LEAF_TS_OFF_NEW s))).refreshDrift s else h)

/-- Sends the downstream frame of the BX in progress on spoke s, while SPK_CTRL.EN = 1 and the spoke is powered
(R322, R352, R494). The swing changes at the frame boundary (R308). -/
def Hub.downstreamFrame (h : Hub) (s : Nat) : Hub :=
  if !h.on (SPK_CTRL_EN s) ∨ h.spkState s = 0 then h
  else
    let h := h.setLane (14 + s) { h.lane (14 + s) with drive := h.rd (lCfg (14 + s)).addr }
    let (frame, h) := if h.spokeFar s then h.spokePattern s else h.spokeLive s
    (h.setLeaf s { h.leaf s with lastDown := frame }).transmit (14 + s) frame

/-- A CAL_STROBE or REC_SYNC acting in the BX in progress is forwarded in the frame of F + 6 (R379). -/
def Hub.leafForward (h : Hub) (cal rec_ : Bool) : Hub :=
  h.forAll (List.range 16) fun h s =>
    let bits_ := b2n (cal && h.on (LEAF_CTRL_FWD_CAL s)) * 0x40 + b2n (rec_ && h.on (LEAF_CTRL_FWD_REC s)) * 0x20
    if h.leafPresent s ∧ bits_ ≠ 0 then
      let x := h.leaf s
      h.setLeaf s { x with forward := x.forward ++ [((h.nextFrame + 6) % 2 ^ 48, bits_)] }
    else h

/-! ## Requests to a leaf (R361, R362, R369 to R372) -/

/-- The words of a REQUEST (R360, R361). -/
def LeafReq.words (r : LeafReq) : List Nat :=
  (1 * 2 ^ 28 + r.tag * 2 ^ 8 + (2 + r.data.length)) :: (r.op * 2 ^ 28 + r.count * 2 ^ 16 + r.reg) :: r.sel :: r.data

/-- The transmitter of spoke s sends a request, which is outstanding from then on (R359, R370). -/
def Hub.sendLeaf (h : Hub) (s : Nat) (r : LeafReq) : Hub :=
  let x := h.leaf s
  let h := h.setLeaf s { x with out := x.out ++ [r] }
  (h.put (LEAF_STATUS_OUTSTANDING s) (x.out.length + 1)).sendItem s r.words

/-- Fewer than 4 requests are outstanding on spoke s (R370). -/
def Hub.leafFree (h : Hub) (s : Nat) : Bool := decide ((h.leaf s).out.length < 4)

/-- The request whose words stand whole at the head of the leaf control queue. -/
def headLeaf (words : List QWord) : Option (Nat × LeafReq) :=
  match (splitItem words).1.getLast? with
  | some w => match w.item with
    | .leaf s r => if w.mark then some (s, r) else none
    | _ => none
  | none => none

/-- The spoke transmitters take requests from the head of the leaf control queue, in order, while fewer than 4 are
outstanding on the spoke of the first (R370, R484): at most `n`. -/
def Hub.pumpLeaves : Nat → Hub → Hub
  | 0, h => h
  | n + 1, h =>
    let x := h.queue 7
    match headLeaf x.words with
    | none => h
    | some (s, r) =>
      if h.leafFree s then
        Hub.pumpLeaves n (((h.setQueue 7 { x with words := (splitItem x.words).2 }).qReleaseHeld 7).sendLeaf s r)
      else h

/-- The words that wait in the leaf control queue or before it. -/
def Hub.leafWaiting (h : Hub) : List QWord := (h.queue 7).words ++ (h.queue 7).held

/-- The spoke transmitters take what they can. -/
def Hub.pumpLeaf (h : Hub) : Hub := Hub.pumpLeaves h.leafWaiting.length h

/-- A request for spoke s crosses to MACHINE through the leaf control queue, or waits there (R18, R370). -/
def Hub.askLeaf (h : Hub) (s : Nat) (r : LeafReq) : Hub :=
  let x := h.leaf s
  let r := { r with tag := x.tag }
  let h := h.setLeaf s { x with tag := (x.tag + 1) % 256 }
  if h.leafFree s then
    let (h, now) := h.qCross 7 r.words (.leaf s r)
    if now then h.sendLeaf s r else h
  else h.qOffer 7 (asItem (.leaf s r) r.words)

/-- The last word of a request for a leaf: the request. -/
def QWord.leafReq (w : QWord) : Option (Nat × LeafReq) :=
  match w.item with
  | .leaf s r => if w.mark then some (s, r) else none
  | _ => none

/-- Some request of the broadcast has not been recorded yet. -/
def Hub.bcastOpen (h : Hub) : Bool :=
  ((List.range 16).any fun s => (h.leaf s).out.any fun r => r.who == .bcast) ||
    h.leafWaiting.any fun w => w.leafReq.any fun p => p.2.who == .bcast

/-- GO reads 1 until every selected spoke is recorded (R372). -/
def Hub.bcastCheck (h : Hub) : Hub := if h.bcastOpen then h else h.put LEAF_BCAST_CTRL_GO 0

/-- The outcome of a broadcast on spoke s (R372): the endpoints written, or none. -/
def Hub.bcastOutcome (h : Hub) (s : Nat) (done : Option Nat) : Hub :=
  match done with
  | some n =>
    let h := h.put LEAF_BCAST_RESULT_DONE (h.get LEAF_BCAST_RESULT_DONE ||| 2 ^ s)
    h.wr LEAF_BCAST_COUNT.addr ((h.rd LEAF_BCAST_COUNT.addr + n) % 2 ^ 32)
  | none => h.put LEAF_BCAST_RESULT_SKIPPED (h.get LEAF_BCAST_RESULT_SKIPPED ||| 2 ^ s)

/-- A request ends: `reply` is the leaf's status word and data, none for a timeout or an absent leaf (R369 to
R372). A MODIFY goes on with its write (R541). Of a request with VOID or ERR the registers beyond its DONE give VOID, at
least the last (DEDUCED, log entry 68). -/
def Hub.endRequest (h : Hub) (s : Nat) (r : LeafReq) (reply : Option (Nat × List Nat)) : Hub :=
  let ok := match reply with | some (st, _) => !bit st 31 && !bit st 30 | none => false
  let data := match reply with | some (_, d) => d | none => []
  let done := match reply with | some (st, _) => min (st % 2 ^ 16) r.count | none => 0
  match r.who with
  | .bcast => (h.bcastOutcome s (if ok then reply.map fun p => p.1 % 2 ^ 16 else none)).bcastCheck
  | who =>
    match r.modify, ok with
    | some (mask, value), true =>
      let old := data.headD 0
      let new := (old &&& (2 ^ 32 - 1 - mask)) ||| (value &&& mask)
      h.askLeaf s { r with op := 2, data := [new], modify := none }
    | _, _ =>
      let vals := (List.range (r.count + 1)).map fun i => (if r.op = 1 then data.getD i 0 else 0, !ok && decide (done ≤ i))
      h.resolve who r.access r.pos vals

/-- Removes the oldest outstanding request of spoke s and sends the next. -/
def Hub.popRequest (h : Hub) (s : Nat) : Hub :=
  let x := h.leaf s
  let h := h.setLeaf s { x with out := x.out.drop 1 }
  (h.put (LEAF_STATUS_OUTSTANDING s) (x.out.drop 1).length).pumpLeaf

/-- A REPLY item of the leaf: it answers the oldest outstanding request, or is discarded (R362). -/
def Hub.leafReply (h : Hub) (s tag status : Nat) (data : List Nat) : Hub :=
  match (h.leaf s).out with
  | [] => h
  | r :: _ => if r.tag = tag then (h.popRequest s).endRequest s r (some (status, data)) else h

/-- The oldest outstanding request has waited LEAF_CTL_TIMEOUT (R370). -/
def Hub.leafTimeout (h : Hub) (s : Nat) : Hub :=
  match (h.leaf s).out with
  | [] => h
  | r :: _ => ((h.popRequest s).endRequest s r none).set1 (LEAF_STATUS_CTL_TIMEOUT s)

/-- Ends a list of requests with VOID. -/
def Hub.voidRequests (h : Hub) (s : Nat) : List LeafReq → Hub
  | [] => h
  | r :: t => (h.endRequest s r none).voidRequests s t

/-- One register of a leaf window (R368): spoke, endpoint and register index. -/
def leafPlace (addr : Nat) : Nat × Nat × Nat :=
  let i := bits addr 23 6
  (bits i 17 14, bits i 13 0, bits addr 5 2)

/-- The register can be asked for: the leaf is present and has the endpoint and the register (R369). -/
def Hub.leafHas (h : Hub) (addr : Nat) : Bool :=
  let (s, e, r) := leafPlace addr
  h.leafPresent s && decide (e < bits (h.rd (LEAF_SHAPE s).addr) 14 0) && decide (r ≤ bits (h.rd (LEAF_SHAPE s).addr) 31 28)

/-- Splits the accessible registers of an access, (position, address), into runs of consecutive registers of one
endpoint (R369). -/
def leafRuns (fix : Bool) : List (Nat × Nat) → List (List (Nat × Nat))
  | [] => []
  | x :: t =>
    match leafRuns fix t with
    | (y :: r) :: rest =>
      if !fix && x.2 + 4 == y.2 && x.1 + 1 == y.1 && x.2 / 64 == y.2 / 64 then (x :: y :: r) :: rest
      else [x] :: (y :: r) :: rest
    | rest => [x] :: rest

/-- The request for one run (R361). -/
def leafRunReq (who : LeafFor) (access : Nat) (write : Bool) (data : List Nat) (run : List (Nat × Nat)) : LeafReq :=
  let p := run.headD (0, 0)
  let (_, e, r) := leafPlace p.2
  { who := who, pos := p.1, op := if write then 2 else 1, count := run.length - 1, reg := r, sel := e
    data := if write then run.map fun q => data.getD q.1 0 else [], access := access }

/-- An access to leaf registers (position, address): those that cannot be asked for answer VOID at once, the others
are sent as requests (R369, R371). -/
def Hub.leafAccess (h : Hub) (who : LeafFor) (access : Nat) (write fix : Bool) (regs : List (Nat × Nat))
    (data : List Nat) : Hub :=
  let good := regs.filter fun p => h.leafHas p.2
  let bad := regs.filter fun p => !h.leafHas p.2
  let h := bad.foldl (fun h p => h.resolve who access p.1 [(0, true)]) h
  (leafRuns fix good).foldl (fun h run =>
    h.askLeaf (leafPlace (run.headD (0, 0)).2).1 (leafRunReq who access write data run)) h

/-- A MODIFY of a leaf register: its read is sent, and its write follows (R541). -/
def Hub.leafModify (h : Hub) (access addr mask value : Nat) : Hub :=
  let (s, e, r) := leafPlace addr
  if h.leafHas addr then
    h.askLeaf s { who := .downlink, pos := 0, op := 1, count := 0, reg := r, sel := e, data := []
                  modify := some (mask, value), access := access }
  else h.resolve .downlink access 0 [(0, true)]

/-- LEAF_BCAST_CTRL.GO (R372). -/
def Hub.bcastGo (h : Hub) : Hub :=
  if h.on LEAF_BCAST_CTRL_GO then h
  else
    let h := ((h.put LEAF_BCAST_CTRL_GO 1).wr LEAF_BCAST_RESULT.addr 0).wr LEAF_BCAST_COUNT.addr 0
    let sel := h.rd LEAF_BCAST_SEL.addr
    let value := h.rd LEAF_BCAST_VALUE.addr
    let reg := h.get LEAF_BCAST_CFG_REG
    let h := h.forAll ((List.range 16).filter fun s => bit (h.get LEAF_BCAST_CFG_SPOKES) s) fun h s =>
      if h.leafPresent s ∧ bit (h.rd (LEAF_CAPS s).addr) 0 then
        h.askLeaf s { who := .bcast, pos := 0, op := 3, count := 0, reg := reg, sel := sel, data := [value], access := 0 }
      else h.bcastOutcome s none
    h.bcastCheck

/-! ## Items lost in a queue (R490, R491) -/

/-- What the loss of an item means (R490): a reply is never sent, so its request is no longer outstanding; a cut
transaction does not execute the rest; a journal entry is missing; a request to a leaf ends as one without a reply. -/
def Hub.itemLost (h : Hub) (i : QItem) : Hub :=
  match i with
  | .unit 12 u =>
    if bit (u.words.getD 1 0) 26 then h else h.wr DL_OUTSTANDING.addr (h.rd DL_OUTSTANDING.addr - 1)
  | .access _ _ _ =>
    { h with port := { h.port with txn := h.port.txn.map fun (t : PortTxn) =>
      { t with results := t.results.filter Option.isSome } } }.portSettle
  | .journal _ => { h with kpr := { h.kpr with missed := true } }
  | .leaf s r => (h.endRequest s r none).set1 (LEAF_STATUS_CTL_TIMEOUT s)
  | _ => h

/-- Q_CTRL.FLUSH of queue q: what the queue held, and the rest of an item on its way in, is lost (R491). -/
def Hub.flushQueue (h : Hub) (q : Nat) : Hub :=
  let x := h.queue q
  let gone := x.words ++ if x.part then (splitItem x.held).1 else []
  (gone.filter (·.mark)).foldl (fun h w => h.itemLost w.item) (h.qFlush q)

/-! ## Presence (R367) -/

/-- A word of a request for the leaf of spoke s. -/
def QWord.forLeaf (w : QWord) (s : Nat) : Bool :=
  match w.item with
  | .leaf t _ => t == s
  | _ => false

/-- The requests for spoke s that wait are taken out of the leaf control queue (R370). -/
def Hub.dropWaiting (h : Hub) (s : Nat) : Hub :=
  let x := h.queue 7
  let cutOff := x.part && (x.held.head?.any fun w => w.forLeaf s)
  let h := h.setQueue 7 { x with
    words := x.words.filter fun w => !w.forLeaf s, held := x.held.filter fun w => !w.forLeaf s, part := x.part && !cutOff }
  (if cutOff then h.put (Q_STATUS_OPEN 7) 0 else h).qReleaseHeld 7

/-- The spoke leaves UP or enters LOOP: the leaf is absent, its requests end with VOID (R367, R370). -/
def Hub.leafAbsent (h : Hub) (s : Nat) : Hub :=
  let x := h.leaf s
  let was := h.leafPresent s
  let waiting := h.leafWaiting.filterMap QWord.leafReq |>.filter fun p => p.1 == s
  let h := (h.dropWaiting s).setLeaf s { x with
    out := [], down := [], item := none, record := none, up := none, measured := false
    syncDue := false, resetDue := false, echoDue := false, echoFrame := none, gone := true, forward := [] }
  let h := { h with rtt := { h.rtt with
    spk := SMap.erase s h.rtt.spk, out := if h.rtt.out = some (s + 1) then none else h.rtt.out } }
  let h := ((h.put (LEAF_STATUS_OUTSTANDING s) 0).put (LEAF_STATUS_PRESENT s) 0).leafCtrlOver s
  let h := (h.put (LEAF_STATUS_SYNCING s) 0).wr (IVL_SPK_RTT s).addr (2 ^ 32 - 1)
  let h := (h.voidRequests s (x.out ++ waiting.map (·.2))).pumpLeaf
  if was then h.raise 0x0C (whereUnit 6 s) 0 else h

/-- The leaf becomes present (R367, R375). -/
def Hub.leafPresentNow (h : Hub) (s : Nat) : Hub :=
  if h.spkState s = 7 ∧ !h.on (LEAF_STATUS_SYNCING s) ∧ (h.leaf s).measured ∧ !h.leafPresent s then
    let off := unsgn 16 (h.tsOffset s)
    let h := ((h.put (LEAF_TS_OFF_NEW s) off).put (LEAF_TS_OFF_OFF s) off).refreshDrift s
    let x := h.leaf s
    let h := h.setLeaf s { x with gone := false, adj := h.get (LEAF_TS_ADJ_ADJ s), passedTo := none }
    (h.put (LEAF_STATUS_PRESENT s) 1).raise 0x0C (whereUnit 6 s) 1
  else h

/-- The spoke reaches UP: its round-trip average restarts and SYNC goes out in the first frame (R248, R358). -/
def Hub.leafUp (h : Hub) (s : Nat) : Hub :=
  let h := { h with rtt := { h.rtt with spk := SMap.erase s h.rtt.spk } }
  let h := h.setLeaf s { h.leaf s with measured := false, up := none }
  (h.wr (IVL_SPK_RTT s).addr (2 ^ 32 - 1)).leafSync s

/-! ## Upstream items and frames (R354, R355, R358, R359) -/

/-- A fault that counts for the isolation of spoke s (R380). -/
def Hub.leafFault (h : Hub) (s : Nat) : Hub :=
  let x := h.leaf s
  h.setLeaf s { x with faults := x.faults + 1 }

/-- Discards the upstream item in assembly (R359). -/
def Hub.leafItemDiscard (h : Hub) (s : Nat) : Hub := (h.inc (SPK_CTL_DISCARD s)).leafFault s

/-- The header of an upstream item is one the leaf may send (R360). -/
def upItemOk (hdr : Nat) : Bool :=
  let len := bits hdr 7 0
  match bits hdr 31 28 with
  | 8 => len == 7
  | 9 => decide (1 ≤ len) && decide (len ≤ 17)
  | 10 => len == 1
  | _ => false


/-- Drops a leaf record with a reason (R374). -/
def Hub.recordDrop (h : Hub) (s why : Nat) : Hub :=
  ((h.inc (LEAF_REC_DROP s)).put (LEAF_STATUS_DROP_WHY s) why).leafFault s

/-- What a symbol makes of an item or record in assembly (R338, R359, R373): the new assembly, whether one was
discarded, and the words of one that is complete. -/
structure Assembled where
  next : Assembly
  discarded : Bool := false
  words : Option (List Nat) := none

/-- A symbol of a stream: K28.2 starts an item, K28.3 is idle, other K characters are not of the stream; `ok` says
whether a header is one the stream carries (R338, R359, R373). -/
def assemble (ok : Nat → Bool) (a : Assembly) (sym : Nat) : Assembled :=
  if sym = k282 then { next := some [], discarded := a.isSome }
  else if sym = k283 then { next := none, discarded := a.isSome }
  else if 256 ≤ sym then { next := a }
  else
    match a with
    | none => { next := none }
    | some l =>
      let l := l ++ [sym]
      let hdr := bytesWord (l.take 4)
      if l.length = 4 ∧ !ok hdr then { next := none, discarded := true }
      else if 4 ≤ l.length ∧ l.length = 4 * (1 + bits hdr 7 0) then { next := none, words := some (bytesWords l) }
      else { next := some l }

/-- An upstream frame is good (R355). -/
def upFrameGood (f : List Nat) (codeErrs : Nat) : Bool :=
  let body := f.drop 1
  codeErrs == 0 && f.getD 0 0 == k285 && decide (f.getD 1 0 < 256) &&
    (f.getD 2 0 < 256 || f.getD 2 0 == k282 || f.getD 2 0 == k283 || f.getD 2 0 == k286) &&
    ((f.drop 3).take 11).all (fun x => x < 256 || x == k282 || x == k283) &&
    decide (f.getD 14 0 < 256) && decide (f.getD 15 0 < 256) &&
    crc16 ((body.take 13).map symByte) == f.getD 14 0 * 256 + f.getD 15 0

/-- The number of the upstream frame that arrives: the next one; after a SYNC the first good frame with LBXL = 0 is
frame 0 (R357, R358). -/
def Leaf.frameNumber (x : Leaf) (good : Bool) (lbxl : Nat) : Option Nat :=
  match x.up with
  | some n => some (n + 1)
  | none => if good ∧ lbxl = 0 then some 0 else none

/-- The time stamp of downstream frame n of spoke s (R375). -/
def Hub.leafStamp (h : Hub) (s n : Nat) : Nat :=
  let x := h.leaf s
  let t : Int := (x.fs : Int) + n + sgn 16 (h.get (LEAF_TS_OFF_OFF s)) + sgn 8 x.adj
  (t % (2 ^ 48 : Nat)).toNat

/-- A leaf's ALARM item (R360). -/
def Hub.leafAlarm (h : Hub) (s word : Nat) : Hub :=
  if h.spkState s = 7 then (h.wr (LEAF_ALARM_LAST s).addr word).raise 0x0E (whereUnit 6 s) word else h

/-! ## Records, hold store and stream 4 (R373 to R378) -/

/-- The words of the units of spoke s that wait for stream 4. -/
def Hub.stream4Words (h : Hub) (s : Nat) : Nat :=
  (((h.txOf 10).filter fun u => u.source == s).map fun u => u.words.length).foldl (· + ·) 0

/-- Appends a record to the last group of spoke s that has not started and holds fewer than 64 records. -/
def joinGroup (s : Nat) (words : List Nat) : List TxUnit → Option (List TxUnit)
  | [] => none
  | u :: t =>
    match joinGroup s words t with
    | some t' => some (u :: t')
    | none =>
      if u.source = s ∧ u.lane.isNone ∧ u.buf < 64 ∧ t.all (fun v => v.source != s) then
        some ({ u with words := u.words ++ words, buf := u.buf + 1 } :: t)
      else none

/-- A hub record goes to stream 4, or is lost in a full buffer (R376, R377). -/
def Hub.stream4 (h : Hub) (s : Nat) (words : List Nat) : Hub :=
  let x := h.leaf s
  if 1024 < h.stream4Words s + words.length then (h.inc (LEAF_LOST s)).setLeaf s { x with lost := true }
  else
    let words := words.set 1 (setBits (words.getD 1 0) 17 17 (b2n x.lost))
    let h := h.setLeaf s { x with lost := false }
    match joinGroup s words (h.txOf 10) with
    | some l => h.setTx 10 l
    | none => h.send 10 { stream := 4, source := s, words := words, age := h.clk.tick, buf := 1 }

/-- The window of an event holds time stamp `ts` (R215). -/
def Slot.leafWindow (x : Slot) (ts : Nat) : Bool :=
  let b := x.time / 2 ^ 16
  let pre := bits x.leafWin 11 8
  let post := bits x.leafWin 3 0
  decide (aheadMod (2 ^ 48) (ts + pre) b ≤ pre + post)

/-- Copies a record of spoke s into the open leaf fragment of slot x, if its window holds it (R377). -/
def Slot.copyRecord (x : Slot) (s ts : Nat) (words : List Nat) : Slot × Bool :=
  if x.leaf.getD s .none == .wait && !bit x.leafOut s && x.leafWindow ts then
    let old := SMap.get (fun _ => ([] : List Nat)) x.leafBody s
    ({ x with leafBody := SMap.set (fun _ => []) x.leafBody s (old ++ words) }, true)
  else (x, false)

/-- Copies a record into every allocated event whose window holds it; answers whether one did. -/
def Hub.copyToSlots (h : Hub) (s ts : Nat) (words : List Nat) : Hub × Bool :=
  (List.range 128).foldl (fun (p : Hub × Bool) k =>
    match p.1.slot k with
    | none => p
    | some x =>
      let (y, took) := x.copyRecord s ts words
      if took then (p.1.setSlot k (some y), true) else p) (h, false)

/-- Copies the held records of spoke s into a new slot. -/
def takeHeld (s : Nat) : List HubRec → Slot → Slot × List HubRec
  | [], x => (x, [])
  | r :: t, x =>
    let (x, took) := x.copyRecord s r.ts r.words
    let (x, t) := takeHeld s t x
    (x, { r with copied := r.copied || took } :: t)

/-- The events allocated in this BX take their copies from the hold stores (R377). -/
def Hub.leafCopyNew (h : Hub) : Hub :=
  h.forAll (List.range 128) fun h k =>
    match h.slot k with
    | none => h
    | some x =>
      if x.leafTaken then h
      else
        let h := h.setSlot k (some { x with leafTaken := true })
        h.forAll (List.range 16) fun h s =>
          match h.slot k with
          | none => h
          | some x =>
            let l := h.leaf s
            let (x, hold) := takeHeld s l.hold x
            (h.setSlot k (some x)).setLeaf s { l with hold := hold }

/-- A complete record of spoke s: header, hit words, and the upstream frame in which its header completed
(R373 to R377). The events that included the spoke at their allocation copy it whatever EVT_LEAF_INCL is now (R201);
with the bit 0 it goes to stream 4 as well (DEDUCED, log entry 57). -/
def Hub.leafRecord (h : Hub) (s hdr : Nat) (hits : List Nat) (n : Nat) : Hub :=
  let x := h.leaf s
  let shape := h.rd (LEAF_SHAPE s).addr
  let back := (n + 2 ^ 16 - bits hdr 31 16) % 2 ^ 16
  if !h.leafPresent s then h.recordDrop s 5
  else if h.on (LEAF_STATUS_SYNCING s) then h.recordDrop s 6
  else if !bit (h.rd (LEAF_CAPS s).addr) 4 ∨ hits.length ≠ bits hdr 7 0 then h.recordDrop s 4
  else if x.slipped ∨ bits shape 23 16 < back then h.recordDrop s 2
  else if hits.any fun w => bits shape 14 0 ≤ bits w 31 18 then h.recordDrop s 3
  else
    -- the whole number of the frame the header completed in: the newest with its low 16 bits
    let up := x.up.getD 0
    let full := up - (up % 2 ^ 16 + 2 ^ 16 - n % 2 ^ 16) % 2 ^ 16
    let ts := h.leafStamp s (full - back)
    let w1 := s * 2 ^ 28 + bits hdr 15 12 * 2 ^ 24 + bits hdr 11 8 * 2 ^ 20
      + b2n (!h.on TIME_STATUS_BX_VALID) * 2 ^ 16 + bits hdr 7 0
    let words := ts % 2 ^ 32 :: w1 :: hits
    let h := h.inc (LEAF_REC_COUNT s)
    let (h, took) := h.copyToSlots s ts words
    if !bit (h.get EVT_LEAF_INCL_INCL) s then
      if h.on (LEAF_CTRL_STREAM_EN s) then h.stream4 s words else h
    else
      let x := h.leaf s
      h.setLeaf s { x with hold := x.hold ++ [⟨ts, words, took⟩] }

/-- Records whose time TS + TRG_LATENCY + 16 has come leave the hold store of spoke s (R377). -/
def Hub.leafHoldExpire (h : Hub) (s : Nat) : Hub :=
  let x := h.leaf s
  let due (r : HubRec) : Bool :=
    decide (aheadMod (2 ^ 48) h.clk.frame (r.ts + h.get TRG_LATENCY_LAT + 16) < 2 ^ 47)
  let out := x.hold.filter due
  let h := h.setLeaf s { x with hold := x.hold.filter fun r => !due r }
  if h.on (LEAF_CTRL_STREAM_EN s) then
    (out.filter fun r => !r.copied).foldl (fun h r => h.stream4 s r.words) h
  else h

/-- The stream of spoke s has passed BX x (R378). -/
def Hub.leafPassed (h : Hub) (s x : Nat) : Bool :=
  !h.leafPresent s || (match (h.leaf s).passedTo with
    | some p => p != x && decide (aheadMod (2 ^ 48) p x < 2 ^ 47)
    | none => false)

/-- The leaf fragment of slot k for spoke s is completed (R215, R378). -/
def Hub.leafFragment (h : Hub) (k s : Nat) : Hub :=
  match h.slot k with
  | none => h
  | some x =>
    let b := x.time / 2 ^ 16
    if x.leaf.getD s .none ≠ .wait then h
    else if bit x.leafOut s then
      let h := h.setSlot k (some (x.setLeaf s .built))
      h.sendEvent 8 {
        stream := 1, source := 7, words := x.leafHeader 8, slot := some k, age := x.age, buf := s }
    else if h.leafPassed s ((b + bits x.leafWin 3 0 + 1) % 2 ^ 48) then
      let body := SMap.get (fun _ => ([] : List Nat)) x.leafBody s
      let out := !h.leafPresent s
      let h := h.setSlot k (some (x.setLeaf s .built))
      h.sendEvent 8 {
        stream := 1, source := 7, words := x.leafHeader (b2n out * 8) ++ (s * 2 ^ 28 + body.length) :: body
        slot := some k, age := x.age, buf := s }
    else h

/-! ## Isolation (R380) -/

/-- A 1 ms window ends: spokes whose faults exceeded LIMIT are isolated (R380). -/
def Hub.leafIsolation (h : Hub) : Hub :=
  h.forAll (List.range 16) fun h s =>
    let x := h.leaf s
    let limit := h.get (LEAF_ISO_LIMIT_LIMIT s)
    let h := h.setLeaf s { x with faults := 0 }
    if limit ≠ 0 ∧ limit < x.faults then
      let h := ((h.put (SPK_CTRL_EN s) 0).put (SPK_STATUS_STATE s) 0).leafAbsent s
      let h := h.set1 (LEAF_STATUS_ISOLATED s)
      h.raise 0x0D (whereUnit 6 s) (h.rd (LEAF_STATUS s).addr)
    else h

end Sys2Proof.Machine
end

