-- ==== Sys2Proof/Machine/HingeOps.lean ====
section
/-! DEFINITION. The spare and the hinge: moves (R100, R101), dwells and diagnosis (R102 to R106), handovers (R107 to
R111), uses and their order (R112 to R114), cover state (R116 to R119) and the health of cells (R83 to R85). -/

namespace Sys2Proof.Machine

/-! ## Codes (R110, R113, R126) -/

def pOpen : Nat := 0
def pDischarge : Nat := 1
def pSettling : Nat := 2
def pSettled : Nat := 3
def pServing : Nat := 4

/-- Rank of a use: SHADOW, CALIBRATE, RETIRE, COVER (R21). -/
def useRank (use : Nat) : Nat :=
  if use = useCover then 4 else if use = useRetire then 3 else if use = useCalibrate then 2 else 1

def Hub.hUse (h : Hub) (j : Nat) : Nat := h.get (HNG_STATUS_USE j)
def Hub.hPhase (h : Hub) (j : Nat) : Nat := h.get (HNG_STATUS_PHASE j)
def Hub.hRoute (h : Hub) (j : Nat) : Nat := h.get (HNG_STATUS_ROUTE j)

/-- The spare can take a use: it is GOOD or WATCH (R116, R118). -/
def Hub.spareUsable (h : Hub) (j : Nat) : Bool := h.health j 16 < 2

/-- The spare stands SETTLED on input c. -/
def Hub.settledOn (h : Hub) (j c : Nat) : Bool := h.hPhase j == pSettled && h.hRoute j == c

/-- The spare stands on input c or is on its way there. -/
def Hub.headsFor (h : Hub) (j c : Nat) : Bool :=
  (2 ≤ h.hPhase j && h.hRoute j == c) || (h.hPhase j == pDischarge && (h.blk j).moveTo == c)

/-- Cell c of block j qualifies for the rotation (R102). -/
def Hub.qualifies (h : Hub) (j c : Nat) : Bool :=
  c < 16 && bit (h.get (HNG_ROT_MASK_MASK j)) c && ctrlEn (h.cell (cellId j c)).ctrl &&
  !(h.chan (chanOf j c)).spare && h.health j c != 3

/-- The next cell of the rotation after `c`, wrapping after cell 15 (R102). -/
def Hub.nextCell (h : Hub) (j c : Nat) : Option Nat :=
  ((List.range 16).map fun k => (c + 1 + k) % 16).find? (h.qualifies j)

/-! ## Cover state (R116, R122) -/

/-- Keeps NO_SPARE, DROPPED and DEGRADED; a setting of DEGRADED raises an alarm (R116, R122). -/
def Hub.refreshBlk (h : Hub) (j : Nat) : Hub :=
  let h := h.put (BLK_STATUS_NO_SPARE j) (b2n (2 ≤ h.health j 16))
  let h := h.put (BLK_STATUS_DROPPED j) (b2n (h.on (BLK_CTRL_DROP j) || h.on (BLK_STATUS_SELF_FAIL j)))
  let deg := h.get (BLK_STATUS_UNCOVERED j) != 0
  if deg ∧ !h.on (BLK_STATUS_DEGRADED j) then
    let h := h.put (BLK_STATUS_DEGRADED j) 1
    h.raise 0x04 (whereBlk j) (h.rd (BLK_STATUS j).addr)
  else h.put (BLK_STATUS_DEGRADED j) (b2n deg)

/-- Sets or clears UNCOVERED of a cell (R116). -/
def Hub.setUncovered (h : Hub) (j c : Nat) (on : Bool) : Hub :=
  (h.put (BLK_STATUS_UNCOVERED j) (setBits (h.get (BLK_STATUS_UNCOVERED j)) c c (b2n on))).refreshBlk j

/-! ## Waiting requests (R113, R128) -/

/-- Keeps HNG_PENDING at the waiting requests (R128). -/
def Hub.setWaiting (h : Hub) (j : Nat) (l : List UseReq) : Hub :=
  let h := h.setBlk j { h.blk j with waiting := l }
  let h := h.put (HNG_PENDING_CELLS j) (maskOf 16 fun c => l.any fun r => r.cell == c)
  h.put (HNG_PENDING_RANK j) ((l.map fun r => useRank r.use).foldl max 0)

/-- A request waits; for its cell it replaces one of equal or lower rank and gives way to a higher one (R113). -/
def Hub.enqueue (h : Hub) (j c use : Nat) : Hub :=
  let l := (h.blk j).waiting
  if l.any fun r => r.cell == c && useRank use < useRank r.use then h
  else h.setWaiting j ((l.filter fun r => r.cell != c) ++ [⟨c, use, h.clk.tick⟩])

/-- Whether waiting request `b` is served before `a`: rank, then age, then the rotating pointer (R13, R113). -/
def reqBefore (ptr : Nat) (a b : UseReq) : Bool :=
  if useRank a.use ≠ useRank b.use then useRank a.use < useRank b.use
  else arbBefore 16 ptr (b.age, b.cell) (a.age, a.cell)

/-- A waiting request that can be served now: a CALIBRATE waits for a covered or RETIRED cell (R114, R294), a SHADOW
for one that qualifies (R112). -/
def Hub.servable (h : Hub) (j : Nat) (r : UseReq) : Bool :=
  if r.use = useShadow then h.qualifies j r.cell
  else if r.use = useCalibrate then h.health j r.cell != 3 && !(h.chan (chanOf j r.cell)).spare
  else true

/-- The waiting request to serve next (R113). -/
def Hub.topRequest (h : Hub) (j : Nat) : Option UseReq :=
  ((h.blk j).waiting.filter (h.servable j)).foldl (fun a r =>
    match a with
    | none => some r
    | some q => if reqBefore (h.blk j).ptr q r then some r else some q) none

/-! ## Dwells (R103, R104) -/

/-- A dwell on cell c starts with the next sample (R102, R123). -/
def Hub.startDwell (h : Hub) (j c : Nat) : Hub :=
  let n := h.get (HNG_CFG_DWELL j)
  h.setBlk j { h.blk j with dwell := some { cell := c, left := n, len := n, limit := h.get (HNG_CFG_MISS_LIMIT j) } }

/-- A dwell ends with a verdict: it ran its length and compared at least half its samples (R103). -/
def Dwell.verdict (d : Dwell) : Bool := d.left == 0 && d.len ≤ 2 * d.compared

/-- The over count exceeds the limit (R103). -/
def Dwell.mismatch (d : Dwell) : Bool := d.verdict && d.limit < d.beyond

/-- MEAN_DIFF of a dwell (R542). -/
def Dwell.meanDiff (d : Dwell) : Nat :=
  if d.compared = 0 then 0 else unsgn 16 (clampInt (-32768) 32767 (roundDiv d.diff d.compared))

/-- HNG_SHADOW_RESULT of a dwell (R542). -/
def Dwell.result (d : Dwell) : Nat :=
  d.cell * 2 ^ 28 + b2n (!d.verdict) * 2 ^ 25 + b2n d.mismatch * 2 ^ 24 + min 255 d.beyond * 2 ^ 16 + d.meanDiff

/-- A dwell ends: result, count, and on a mismatch the cell's counter and WATCH (R104). -/
def Hub.closeDwell (h : Hub) (j : Nat) : Hub :=
  match (h.blk j).dwell with
  | none => h
  | some d =>
    let b := h.blk j
    let h := h.setBlk j { b with
      dwell := none
      rotAt := d.cell
      matched := setBits b.matched d.cell d.cell (b2n (d.verdict && !d.mismatch)) }
    let h := (h.wr (HNG_SHADOW_RESULT j).addr d.result).inc (HNG_DWELL_COUNT j)
    if d.mismatch then
      (h.inc (CELL_SHADOW_MISMATCH j d.cell)).healthWatch j d.cell (CELL_HEALTH_CAUSE_SHADOW j d.cell)
    else h

/-! ## Moves (R100) -/

/-- The hinge opens: PHASE OPEN, ROUTE 0. -/
def Hub.openHinge (h : Hub) (j : Nat) : Hub :=
  ((h.put (HNG_STATUS_PHASE j) pOpen).put (HNG_STATUS_ROUTE j) 0).setBlk j { h.blk j with step := 0 }

/-- The spare may shadow cell c: it qualifies, and SHADOW_EN = 1 or a SHADOW request directed the spare (R102, R112). -/
def Hub.mayShadow (h : Hub) (j c : Nat) : Bool :=
  (h.on (HNG_CFG_SHADOW_EN j) || (h.blk j).directed) && h.qualifies j c

/-- The spare moves to input c; on the input it stands on, nothing moves (R100, R114). A move asked for while another is
in progress starts with step 2, whose 4 samples begin anew (DESIGN CHOICE, log entry 48). -/
def Hub.startMove (h : Hub) (j c : Nat) : Hub :=
  if h.headsFor j c then h
  else
    let h := (h.put (HNG_STATUS_PHASE j) pDischarge).put (HNG_STATUS_ROUTE j) 0
    h.setBlk j { h.blk j with step := 0, moveTo := c }

/-- The spare goes to cell c and dwells there, at once when it stands there SETTLED. -/
def Hub.dwellOn (h : Hub) (j c : Nat) : Hub :=
  let h := h.startMove j c
  if h.settledOn j c then h.startDwell j c else h

/-- The rotation continues after cell c, or the hinge opens and USE reads NONE (R102). -/
def Hub.rotate (h : Hub) (j c : Nat) : Hub :=
  let h := h.setBlk j { h.blk j with directed := false }
  let next := if h.on (HNG_CFG_SHADOW_EN j) then h.nextCell j c else none
  match next with
  | some d => (h.put (HNG_STATUS_USE j) useShadow).dwellOn j d
  | none => (h.openHinge j).put (HNG_STATUS_USE j) useNone

/-- An internal commit of the block (R112, R113, R117). -/
def Hub.internalCommit (h : Hub) (j c : Nat) (back : Bool) : Hub :=
  (h.setBlk j { h.blk j with commit := some ⟨back, c, true⟩ }).put (HNG_STATUS_COMMIT_PENDING j) 1

/-- The spare is SETTLED on the cell of its use: an automatic COVER commits (R112). -/
def Hub.autoCommit (h : Hub) (j c : Nat) : Hub :=
  if h.hUse j = useCover ∧ h.on (HNG_CFG_AUTO_COVER j) ∧ (h.blk j).commit.isNone then h.internalCommit j c false else h

/-- A use of the spare on cell c starts (R112, R114). -/
def Hub.startUse (h : Hub) (j c use : Nat) : Hub :=
  let h := (h.put (HNG_STATUS_USE j) use).setBlk j { h.blk j with
    useCell := c, ending := none, directed := use == useShadow }
  if use = useShadow then h.dwellOn j c
  else
    let h := h.startMove j c
    if h.settledOn j c then h.autoCommit j c else h

/-- A diagnosis ends without a verdict (R106). -/
def Hub.dropDiag (h : Hub) (j : Nat) : Hub :=
  (h.setBlk j { h.blk j with diag := none }).put (HNG_STATUS_DIAG j) 0

/-- The spare is free: the next waiting request is served, else shadowing goes on after cell c (R111, R113). -/
def Hub.spareFree (h : Hub) (j c : Nat) (stay : Bool) : Hub :=
  if !h.spareUsable j then h
  else
    match h.topRequest j with
    | some r =>
      let h := h.setWaiting j ((h.blk j).waiting.filter fun q => q.cell != r.cell)
      let h := h.setBlk j { h.blk j with ptr := (r.cell + 1) % 16 }
      h.startUse j r.cell r.use
    | none =>
      if stay ∧ h.on (HNG_CFG_SHADOW_EN j) ∧ h.qualifies j c then
        (h.put (HNG_STATUS_USE j) useShadow).dwellOn j c
      else h.rotate j c

/-- The spare cannot go on: USE reads FAULTY and the hinge opens (R105, R117). -/
def Hub.spareFaulty (h : Hub) (j : Nat) : Hub :=
  let h := ((h.closeDwell j).dropDiag j).openHinge j
  let use := h.hUse j
  let h := if useCover ≤ use ∧ use ≤ useCalibrate ∧ (h.blk j).useCell < 16 then h.enqueue j (h.blk j).useCell use else h
  (h.put (HNG_STATUS_USE j) useFaulty).refreshBlk j

/-! ## Requests (R112 to R114) -/

/-- The current use runs to its safe point (R113): a calibration is ended there. -/
def Hub.beginEnding (h : Hub) (j : Nat) : Hub :=
  let use := h.hUse j
  let h := if (h.calBlk j).run.isSome then h.calEnd j whyEnded else h
  -- the use itself ends at the safe point, the spare's own calibration included
  let h := h.put (HNG_STATUS_USE j) use
  h.setBlk j { h.blk j with ending := some h.clk.tick }

/-- A request that the current use does not give way to, or must end first (R113). -/
def Hub.requestOther (h : Hub) (j c use : Nat) : Hub :=
  let cur := h.hUse j
  let b := h.blk j
  if !h.spareUsable j ∨ !h.servable j ⟨c, use, 0⟩ ∨ useRank use ≤ useRank cur ∧ cur ≠ useNone ∧ !(cur = useShadow ∧ b.diag.isNone) then
    h.enqueue j c use
  else if b.ending.isSome ∨ b.commit.isSome then h.enqueue j c use
  else if cur = useShadow ∨ cur = useNone then
    (((h.closeDwell j).dropDiag j).startUse j c use)
  else if b.serving.isSome ∨ (h.calBlk j).run.isSome then (h.enqueue j c use).beginEnding j
  else h.startUse j c use

/-- A COVER, RETIRE or CALIBRATE of cell c is requested (R112 to R114). -/
def Hub.request (h : Hub) (j c use : Nat) : Hub :=
  let cur := h.hUse j
  let b := h.blk j
  if b.serving = some c then
    if use = cur then h
    else if use = useRetire ∧ cur = useCover ∧ h.health j c ≠ 2 then
      -- the RETIRE takes over the spare, and the cell enters RETIRED (R112, R114)
      ((h.put (HNG_STATUS_USE j) useRetire).healthTo j c 3).refreshBlk j
    else if use = useCover ∧ cur = useRetire then h.put (HNG_STATUS_USE j) useCover
    else if use = useCover ∧ cur = useCalibrate ∧ (h.calBlk j).run.isNone ∧ b.commit.isNone then
      h.put (HNG_STATUS_USE j) useCover
    else h.requestOther j c use
  else if useCover ≤ cur ∧ cur ≤ useCalibrate ∧ b.serving.isNone ∧ b.commit.isNone ∧ b.ending.isNone ∧ h.headsFor j c ∧
      b.useCell = c then
    if useRank cur < useRank use then h.startUse j c use
    else if use = cur then h else h.enqueue j c use
  else h.requestOther j c use

/-- HNG_CFG has changed: SHADOW_EN = 0 ends a shadowing that a request directed, and a spare that shadows nothing reads
NONE (R102, R103, R112). -/
def Hub.shadowCfg (h : Hub) (j : Nat) : Hub :=
  if h.on (HNG_CFG_SHADOW_EN j) then h
  else
    let h := h.setBlk j { h.blk j with directed := false }
    if h.hUse j = useShadow ∧ h.hPhase j = pOpen ∧ h.spareUsable j then h.put (HNG_STATUS_USE j) useNone else h

/-- HNG_MOVE was refused (R129). -/
def Hub.moveIllegal (h : Hub) (j : Nat) : Hub := h.set1 (HNG_STATUS_MOVE_ILLEGAL j)

/-- HNG_MOVE with USE = SHADOW and a cell (R112). -/
def Hub.moveShadow (h : Hub) (j c : Nat) : Hub :=
  let b := h.blk j
  let use := h.hUse j
  if !h.qualifies j c then h.moveIllegal j
  else if (use = useShadow ∨ use = useNone) ∧ b.diag.isNone ∧ b.ending.isNone ∧ h.spareUsable j then
    (h.closeDwell j).startUse j c useShadow
  else h.enqueue j c useShadow

/-- HNG_MOVE with USE = COVER, RETIRE or CALIBRATE and a TARGET (R112, R129). -/
def Hub.moveUse (h : Hub) (j t use : Nat) : Hub := if t < 16 then h.request j t use else h.moveIllegal j

/-- What the spare is doing without serving is given up: a calibration, a commit, a use that is being ended. -/
def Hub.spareDrop (h : Hub) (j : Nat) : Hub :=
  let h := if (h.calBlk j).run.isSome then h.calEnd j whyEnded else h
  (h.setBlk j { h.blk j with ending := none, commit := none }).put (HNG_STATUS_COMMIT_PENDING j) 0

/-- HNG_MOVE RETIRE with TARGET 16 (R118). -/
def Hub.spareRetire (h : Hub) (j : Nat) : Hub :=
  if (h.blk j).serving.isSome then h.moveIllegal j
  else
    let h := ((h.spareDrop j).spareFaulty j).put (HNG_STATUS_USE j) useNone
    (h.healthTo j 16 3).refreshBlk j

/-- HNG_MOVE SHADOW with TARGET 16 (R118). -/
def Hub.spareRestore (h : Hub) (j : Nat) : Hub :=
  if h.health j 16 ≠ 3 then h.moveIllegal j
  else
    let h := ((h.healthTo j 16 0).refreshBlk j).put (HNG_STATUS_USE j) useShadow
    h.spareFree j (h.blk j).rotAt false

/-! ## SUSPECT (R84, R85, R112, R116, R117) -/

/-- The spare is committed (R116). -/
def Hub.spareCommitted (h : Hub) (j : Nat) : Bool := h.hUse j == useCover || 2 ≤ h.health j 16

/-- Live cell c has become SUSPECT (R112, R116). -/
def Hub.cellSuspect (h : Hub) (j c : Nat) : Hub :=
  if (h.chan (chanOf j c)).spare then h
  else
    let h := if h.spareCommitted j then h.setUncovered j c true else h
    if h.on (HNG_CFG_AUTO_COVER j) then h.request j c useCover else h

/-- The spare has become SUSPECT outside a diagnosis; a calibration it serves ends with its use (R117). -/
def Hub.spareSuspect (h : Hub) (j : Nat) : Hub :=
  let h := h.refreshBlk j
  match (h.blk j).serving with
  | some c =>
    if h.cellLive (cellId j c) ∧ h.health j c < 2 then
      let h := if (h.calBlk j).run.isSome then h.calEnd j whyEnded else h
      if (h.blk j).commit.isSome then h else h.internalCommit j c true
    else h.setUncovered j c true
  | none =>
    let h := h.spareDrop j
    let c := (h.blk j).useCell
    let cover := h.hUse j == useCover && c < 16
    let h := h.spareFaulty j
    if cover ∧ h.health j c = 2 then h.setUncovered j c true else h

/-- An event that makes a GOOD or WATCH cell SUSPECT; it sets its CAUSE bit in any state (R84). -/
def Hub.healthSuspect (h : Hub) (j c : Nat) (cause : RF) : Hub :=
  let h := h.set1 cause
  if h.health j c < 2 then
    let h := h.healthTo j c 2
    if c = 16 then h.spareSuspect j else h.cellSuspect j c
  else h

/-- The comparison of the sample taken last does not count: one of its words carries Q (R103). -/
def Dwell.skipLast (d : Dwell) : Dwell :=
  match d.last with
  | none => d
  | some (out, diff) =>
    { d with compared := d.compared - 1, beyond := d.beyond - b2n out, diff := d.diff - diff, last := none }

/-- A dwell that compares cell c, or any dwell where c is the spare, skips the sample taken last. -/
def Hub.skipCompare (h : Hub) (j c : Nat) : Hub :=
  let b := h.blk j
  h.setBlk j { b with dwell := b.dwell.map fun d => if c = 16 ∨ c = d.cell then d.skipLast else d }

/-- A redundancy error in the conversion a cell made last (R83, R84). -/
def Hub.redundError (h : Hub) (j c : Nat) : Hub :=
  let h := h.skipCompare j c
  let id := cellId j c
  let x := h.cell id
  let conv := match x.conv with
    | a :: t => { a with causes := a.causes ||| 2 ^ qRedund } :: t
    | [] => []
  let n := x.redundWin + 1
  let h := (h.setCell id { x with conv := conv, redundWin := n }).inc (CELL_REDUND_COUNT j c)
  let limit := h.get (CELL_HLTH_CFG_REDUND_LIMIT j c)
  if limit ≠ 0 ∧ n = limit then h.healthSuspect j c (CELL_HEALTH_CAUSE_REDUND j c) else h

/-- A 1 ms health window of a cell ends; RATE_HI = 0xFFFF disables the high check (R84, R87, R95). -/
def Hub.healthWindow (h : Hub) (j c : Nat) : Hub :=
  let id := cellId j c
  let x := h.cell id
  let top := h.get (CELL_HLTH_CFG_RATE_HI j c)
  let bad := (top != 0xFFFF && top < x.hits) || x.hits < h.get (CELL_HLTH_CFG_RATE_LO j c)
  let run := if bad then x.rateRun + 1 else 0
  let h := h.wr (CELL_DISC_RATE j c).addr (min (2 ^ 32 - 1) x.hits)
  let h := h.setCell id { x with hits := 0, redundWin := 0, rateRun := run }
  if 3 ≤ run then h.healthWatch j c (CELL_HEALTH_CAUSE_RATE j c) else h

/-- CELL_HEALTH.CLEAR (R85, R94, R116, R118, R295). -/
def Hub.healthClear (h : Hub) (j c : Nat) : Hub :=
  let st := h.health j c
  if st = 1 ∨ st = 2 then
    let h := (h.healthTo j c 0).calUnblock j c
    if c = 16 then
      if st = 2 then
        match (h.blk j).serving with
        | some k => (h.refreshBlk j).setUncovered j k false
        | none => ((h.refreshBlk j).put (HNG_STATUS_USE j) useShadow).spareFree j (h.blk j).rotAt false
      else h
    else if (h.chan (chanOf j c)).spare then h else h.setUncovered j c false
  else h

/-! ## Diagnosis (R105) -/

/-- The reference cell of a diagnosis of cell c (R105). -/
def Hub.referenceCell (h : Hub) (j c : Nat) : Option Nat :=
  ((List.range 15).map fun k => (c + 15 - k) % 16).find? fun d =>
    h.qualifies j d && bit (h.blk j).matched d && h.health j d == 0

/-- The verdict of a diagnosis is written and reported (R105). -/
def Hub.verdict (h : Hub) (j c v : Nat) : Hub :=
  let h := (h.dropDiag j).setBlk j { (h.dropDiag j).blk j with rotAt := c }
  let h := h.wr (HNG_DIAG j).addr (c * 2 ^ 28 + v)
  h.raise 0x03 (whereCell j c) (c * 2 ^ 28 + v)

/-- The diagnosis of cell c is over and the spare goes on (R105, R112). -/
def Hub.diagDone (h : Hub) (j c v : Nat) : Hub := (h.verdict j c v).spareFree j c false

/-- A dwell of a diagnosis has ended (R105). -/
def Hub.diagStep (h : Hub) (j c stage : Nat) (d : Dwell) : Hub :=
  if !d.verdict then h.diagDone j c 0
  else if stage = 1 then
    if !d.mismatch then h.diagDone j c 1
    else
      match h.referenceCell j c with
      | none => h.diagDone j c 0
      | some r => (h.setBlk j { h.blk j with diag := some (c, 2) }).dwellOn j r
  else if d.mismatch then
    let h := h.verdict j c 3
    let h := h.set1 (CELL_HEALTH_CAUSE_SHADOW j 16)
    (if h.health j 16 < 2 then h.healthTo j 16 2 else h).spareFaulty j
  else
    let h := h.verdict j c 2
    let h := h.healthSuspect j c (CELL_HEALTH_CAUSE_SHADOW j c)
    -- without an automatic cover the spare goes on shadowing
    if h.hUse j = useShadow ∧ (h.blk j).dwell.isNone then h.spareFree j c false else h

/-- A dwell in the rotation or beside a serving spare has ended (R102, R104, R117). -/
def Hub.dwellNext (h : Hub) (j : Nat) (d : Dwell) : Hub :=
  match (h.blk j).serving with
  | some c => if ctrlEn (h.cell (cellId j c)).ctrl then h.startDwell j c else h
  | none =>
    match (h.blk j).diag with
    | some (c, stage) => h.diagStep j c stage d
    | none =>
      if d.mismatch then
        let h := (h.setBlk j { h.blk j with diag := some (d.cell, 1) }).put (HNG_STATUS_DIAG j) 1
        h.startDwell j d.cell
      else h.rotate j d.cell

/-- The dwell's end has come: its samples are taken, SHADOW_EN is cleared or the cell leaves the rotation (R103). -/
def Hub.dwellOver (h : Hub) (j : Nat) (d : Dwell) : Bool :=
  match (h.blk j).serving with
  | some c => d.left == 0 || !ctrlEn (h.cell (cellId j c)).ctrl
  | none => d.left == 0 || !h.mayShadow j d.cell

/-- A dwell ends (R103 to R105). -/
def Hub.dwellEnd (h : Hub) (j : Nat) : Hub :=
  match (h.blk j).dwell with
  | none => h
  | some d => if h.dwellOver j d then (h.closeDwell j).dwellNext j d else h

/-! ## Steps of a move (R100, R101) -/

/-- After 4 samples of discharge the hinge closes and the spare loads the cell's settings (R70, R100), with the armed
state of the cell's discriminator (DESIGN CHOICE, log entry 47). -/
def Hub.dischargeDone (h : Hub) (j : Nat) : Hub :=
  let b := h.blk j
  if h.hPhase j = pDischarge ∧ 4 ≤ b.step then
    let h := (h.put (HNG_STATUS_PHASE j) pSettling).put (HNG_STATUS_ROUTE j) b.moveTo
    let h := h.setBlk j { b with step := 0 }
    let cov := h.cell (cellId j b.moveTo)
    let sp := h.cell (cellId j 16)
    h.setCell (cellId j 16) { sp with
      ctrl := borrowCtrl sp.ctrl cov.ctrl, disc := cov.disc, armed := cov.armed, blankTick := none }
  else h

/-- After 8 samples of settling the spare is SETTLED (R100, R102, R112). -/
def Hub.hingeSettled (h : Hub) (j : Nat) : Hub :=
  if h.hPhase j = pSettling ∧ 8 ≤ (h.blk j).step then
    let h := h.put (HNG_STATUS_PHASE j) pSettled
    let c := h.hRoute j
    if h.hUse j = useShadow then
      if h.mayShadow j c then h.startDwell j c
      else
        match (h.blk j).diag with
        | some (k, _) => h.diagDone j k 0
        | none => h.rotate j c
    else h.autoCommit j c
  else h

/-! ## Commits (R110) -/

/-- A commit is refused (R110). -/
def Hub.commitRefused (h : Hub) (j why : Nat) : Hub :=
  (h.set1 (HNG_STATUS_COMMIT_REFUSED j)).put (HNG_STATUS_REFUSE_WHY j) why

/-- A commit is accepted. -/
def Hub.commitTaken (h : Hub) (j c : Nat) (back : Bool) : Hub :=
  (h.setBlk j { h.blk j with commit := some ⟨back, c, false⟩ }).put (HNG_STATUS_COMMIT_PENDING j) 1

/-- HNG_COMMIT with DIR = TO_SPARE (R110). -/
def Hub.commitToSpare (h : Hub) (j c : Nat) : Hub :=
  let b := h.blk j
  let use := h.hUse j
  if b.commit.isSome then h.commitRefused j 3
  else if use = useShadow ∨ use = useNone ∨ use = useFaulty then h.commitRefused j 4
  else if b.serving.isSome ∧ b.serving ≠ some c then h.commitRefused j 5
  else if !h.settledOn j c then h.commitRefused j 1
  else h.commitTaken j c false

/-- HNG_COMMIT with DIR = BACK (R110). -/
def Hub.commitBack (h : Hub) (j c : Nat) : Hub :=
  if (h.blk j).commit.isSome then h.commitRefused j 3
  else if (h.blk j).serving ≠ some c then h.commitRefused j 4
  else if h.health j c = 2 then h.commitRefused j 6
  else if !h.cellLive (cellId j c) ∨ h.cellSettling j c then h.commitRefused j 2
  else h.commitTaken j c true

/-! ## Handover (R107 to R111) -/

/-- The handover is counted and reported (R17, R111). -/
def Hub.handoverReport (h : Hub) (j : Nat) (m : Commit) (label : Nat) : Hub :=
  let tw := timeWord label
  let h := (h.w64 (HNG_LAST_COMMIT j) tw).inc (HNG_HANDOVER_COUNT j)
  h.pushRecord (2 ^ 24 + j) [0x20000000, tw % 2 ^ 32, tw / 2 ^ 32,
    b2n m.internal * 2 ^ 17 + b2n m.back * 2 ^ 16 + whereCell j m.cell, h.get (HNG_HANDOVER_COUNT j)]

/-- The channel's source changes with the next sample (R107, R108). -/
def Hub.setSource (h : Hub) (j c : Nat) (spare : Bool) : Hub :=
  let n := chanOf j c
  let h := h.setChan n { h.chan n with spare := spare, bound := some (h.clk.tick + 1) }
  let h := (h.put (CELL_STATUS_COVERED j c) (b2n spare)).put (CELL_STATUS_SERVING j c) (b2n !spare)
  let h := h.put (CELL_STATUS_SERVING j 16) (b2n spare)
  h.setBlk j { h.blk j with serving := if spare then some c else none }

/-- A request of higher rank that came while the handover to the spare was pending ends the use that now serves cell c,
or takes it over where it is the COVER of c (R21, R113, R114). -/
def Hub.outrank (h : Hub) (j c : Nat) : Hub :=
  match h.topRequest j with
  | none => h
  | some r =>
    if useRank r.use ≤ useRank (h.hUse j) then h
    else if r.cell = c ∧ r.use = useCover then
      (h.setWaiting j ((h.blk j).waiting.filter fun q => q.cell != c)).put (HNG_STATUS_USE j) useCover
    else h.beginEnding j

/-- The handover TO_SPARE takes effect (R107, R112, R113, R116, R117). -/
def Hub.handToSpare (h : Hub) (j c : Nat) : Hub :=
  let h := ((h.setSource j c true).put (HNG_STATUS_PHASE j) pServing).setUncovered j c false
  let h := if h.hUse j = useRetire then h.healthTo j c 3 else h
  let h := if ctrlEn (h.cell (cellId j c)).ctrl then h.startDwell j c else h
  h.outrank j c

/-- A handover BACK that returns the cell to service, or leaves a retired cell uncovered (R113, R119, R548). -/
def Hub.backHealth (h : Hub) (j c : Nat) (internal : Bool) : Hub :=
  if h.health j c ≠ 3 then h.setUncovered j c false
  else if internal then (h.setUncovered j c true).enqueue j c useRetire
  else (h.healthTo j c 0).setUncovered j c false

/-- The handover BACK takes effect (R111, R113, R117, R119). -/
def Hub.handBack (h : Hub) (j c : Nat) (internal : Bool) : Hub :=
  let h := ((h.closeDwell j).setSource j c false).put (HNG_STATUS_PHASE j) pSettled
  let h := h.setBlk j { h.blk j with ending := none }
  let h := h.backHealth j c internal
  if h.spareUsable j then (h.put (HNG_STATUS_USE j) useShadow).spareFree j c true
  else (h.put (HNG_STATUS_USE j) useShadow).spareFaulty j

/-- A handover takes effect with the next sample, the first of a BX (R107). -/
def Hub.handover (h : Hub) (j : Nat) : Hub :=
  match (h.blk j).commit with
  | none => h
  | some m =>
    let l := (h.label + 1) % labelSpan
    if l % 2 = 1 then h
    else
      let h := (h.setBlk j { h.blk j with commit := none }).put (HNG_STATUS_COMMIT_PENDING j) 0
      let h := h.handoverReport j m l
      if m.back then h.handBack j m.cell m.internal else h.handToSpare j m.cell

/-! ## Safe point (R113, R114) -/

/-- The use being ended has reached its safe point (R113, R114, R296). -/
def Hub.safePoint (h : Hub) (j : Nat) : Hub :=
  let b := h.blk j
  match b.ending with
  | none => h
  | some t =>
    match b.serving with
    | none =>
      if b.commit.isSome then h
      else (h.setBlk j { b with ending := none }).spareFree j b.rotAt false
    | some c =>
      if b.commit.isSome ∨ (h.hUse j = useCalibrate ∧ h.clk.tick < t + 8) then h
      else
        match h.topRequest j with
        | some r =>
          if r.cell = c ∧ r.use = useCover then
            let h := h.setWaiting j (b.waiting.filter fun q => q.cell != c)
            (h.put (HNG_STATUS_USE j) useCover).setBlk j { h.blk j with ending := none, useCell := c }
          else h.internalCommit j c true
        | none => h.internalCommit j c true

/-! ## Each sample (R100 to R103, R117) -/

/-- Amplitude and Q of the conversion a cell makes in the sample period in progress. -/
def Hub.convNow (h : Hub) (id : Nat) : Option (Nat × Bool) :=
  let x := h.cell id
  match x.conv with
  | [] => none
  | v :: _ => if ctrlEn v.ctrl then some (amp4 v, v.causes != 0 || v.moving) else some (524288, true)

/-- One sample of a dwell (R103), whose comparison a redundancy error in it can still undo; a cell under calibration is off its input and is not compared (R286). -/
def Hub.dwellSample (h : Hub) (j : Nat) (d : Dwell) : Dwell :=
  let d' := { d with left := d.left - 1, last := none }
  if d.left = 0 then d
  else
    match h.convNow (cellId j 16), h.convNow (cellId j d.cell) with
    | some (a, qa), some (b, qb) =>
      if qa || qb || h.cellSettling j d.cell || h.on (CELL_CAL_STATUS_BUSY j d.cell) then d'
      else
        let diff := (a : Int) - b
        let out := decide (h.get (HNG_TOL_TOL j) < diff.natAbs)
        { d' with
          compared := d.compared + 1
          beyond := d.beyond + b2n out
          diff := d.diff + diff
          last := some (out, diff) }
    | _, _ => d'

/-- A spare with no use but shadowing is on an open hinge, or on its way: shadowing starts when a cell qualifies; the
hinge opens and USE reads NONE when none does or SHADOW_EN = 0, and a diagnosis on its way ends undecided (R102,
R105). -/
def Hub.shadowIdle (h : Hub) (j : Nat) : Hub :=
  let b := h.blk j
  let next := if h.on (HNG_CFG_SHADOW_EN j) then h.nextCell j b.rotAt else none
  if h.hPhase j = pOpen then
    match next with
    | some c => (h.put (HNG_STATUS_USE j) useShadow).startMove j c
    | none => h.put (HNG_STATUS_USE j) useNone
  else if next.isNone ∧ !h.mayShadow j b.moveTo ∧ (h.hPhase j = pDischarge ∨ h.hPhase j = pSettling) then
    match b.diag with
    | some (k, _) => h.diagDone j k 0
    | none => h.rotate j b.rotAt
  else h

/-- The hinge and the dwell of block j take one sample; a free spare serves a waiting request (R100, R102, R113). -/
def Hub.hingeSample (h : Hub) (j : Nat) : Hub :=
  let b := h.blk j
  let ph := h.hPhase j
  let b := if ph = pDischarge ∨ ph = pSettling then { b with step := b.step + 1 } else b
  let b := if ph = pSettled ∨ ph = pServing then { b with dwell := b.dwell.map (h.dwellSample j) } else b
  let h := h.setBlk j b
  let use := h.hUse j
  let idle := (use = useShadow ∨ use = useNone) ∧ b.ending.isNone ∧ h.spareUsable j ∧ b.serving.isNone
  if idle ∧ b.diag.isNone ∧ b.commit.isNone ∧ (h.topRequest j).isSome then (h.closeDwell j).spareFree j b.rotAt false
  else if idle ∧ b.commit.isNone then h.shadowIdle j
  else if b.serving.isSome ∧ b.dwell.isNone then
    match b.serving with
    | some c => if ctrlEn (h.cell (cellId j c)).ctrl then h.startDwell j c else h
    | none => h
  else h

/-- The block self-check fails (R122). -/
def Hub.selfFail (h : Hub) (j : Nat) : Hub := (h.set1 (BLK_STATUS_SELF_FAIL j)).refreshBlk j

/-! ## The start of a calibration (R287, R294, R296) -/

/-- The next calibration of a block's queue (R294). -/
def Hub.calBefore (h : Hub) (j : Nat) (a b : CalReq) : Bool :=
  let excess := fun (c : Nat) => absDiff (sgn 16 (h.rgnTemp j)) (sgn 16 (h.get (CELL_CAL_TEMP_LAST j c)))
  let time := fun (c : Nat) => h.r64 (CELL_CAL_TIME j c)
  if a.rank ≠ b.rank then a.rank < b.rank
  else if a.rank < 2 then true
  else if excess a.cell ≠ excess b.cell then excess b.cell < excess a.cell
  else if time a.cell ≠ time b.cell then time a.cell < time b.cell
  else a.cell < b.cell

/-- An entry of the queue that may run now: a cell that is covered or RETIRED, or has EN = 0, waits (R294), but for the
one that a CALIBRATE covers for it; with AUTO_EN = 0 only host requests run (R293). -/
def Hub.calEligible (h : Hub) (j : Nat) (r : CalReq) : Bool :=
  let c := r.cell
  let covered := c != 16 && (h.chan (chanOf j c)).spare && !((h.blk j).serving == some c && h.hUse j == useCalibrate)
  (h.on CAL_CTRL_AUTO_EN || r.host) && ctrlEn (h.cell (cellId j c)).ctrl && h.health j c != 3 && !covered

/-- The calibration that runs next (R294). -/
def Hub.calNext (h : Hub) (j : Nat) : Option CalReq :=
  ((h.calBlk j).queue.filter (h.calEligible j)).foldl (fun a r =>
    match a with
    | none => some r
    | some b => if h.calBefore j b r then some b else some r) none

/-- The spare is where cell c needs it: serving its channel under CALIBRATE, or free for its own (R287, R296). -/
def Hub.calReady (h : Hub) (j c : Nat) : Bool :=
  let use := h.hUse j
  if c = 16 then (h.blk j).serving.isNone && (use == useShadow || use == useNone)
  else (h.blk j).serving == some c && use == useCalibrate

/-- The keeper starts the engine of block j on cell c, the next of its queue (R285, R287, R294, R296). The spare's own
calibration ends a dwell and a diagnosis that run, and opens the hinge (R104, R106, R296). -/
def Hub.calStart (h : Hub) (j c : Nat) : Hub :=
  match h.calNext j with
  | none => h
  | some r =>
    if h.on KPR_STATUS_KEEPERLESS ∨ (h.calBlk j).run.isSome ∨ h.on CAL_STATUS_REF_BAD ∨ r.cell ≠ c ∨ !h.calReady j c then h
    else
      let h := h.setCalQueue j ((h.calBlk j).queue.filter (·.cell != c))
      let h := h.setCalib j (some {
        cell := c, oldHg := h.rd (CELL_TRIM_HG j c).addr, oldLg := h.rd (CELL_TRIM_LG j c).addr
        refUv := h.rd CAL_REF_UV.addr, tol := h.rd CAL_TOL.addr, host := r.host, sweep := r.sweep })
      let h := (h.put (CAL_BLK_STATUS_BUSY j) 1).put (CAL_BLK_STATUS_CELL j) c
      let h := (h.put (CELL_CAL_STATUS_BUSY j c) 1).calPhase j c phSwitchIn
      let h := (h.put (CELL_CAL_STATUS_ATTEMPT j c) 0).put (CELL_CAL_STATUS_VERDICT j c) 0
      let h := h.put (CELL_CAL_STATUS_WHY j c) 0
      if c = 16 then (((h.closeDwell j).dropDiag j).openHinge j).put (HNG_STATUS_USE j) useCalibrate else h

end Sys2Proof.Machine
end

