-- ==== Sys2Proof/Machine/LaneOps.lean ====
section
/-! DEFINITION. Serial lanes (11): training, loss, loopbacks, the spare uplink and the retransmit buffers. Lanes 0 to
11 are the uplinks, 12 and 13 the downlinks A and B, and 14 + s spoke s. -/

namespace Sys2Proof.Machine

/-! ## The spare uplink: computed status (R317, R320) -/

/-- The lane named by UL_SPARE.LANE. -/
def Hub.spareLane (h : Hub) : Nat := h.get UL_SPARE_LANE

/-- The ASSIGN bits of the lane-map places a lane stands in, and its OVERFLOW bits (R395). -/
def Hub.assignOf (h : Hub) (l : Nat) : Nat := ((h.ul l).places.map fun p => bits (h.laneWord p) 13 0).foldl (· ||| ·) 0
def Hub.overflowOf (h : Hub) (l : Nat) : Nat := ((h.ul l).places.map fun p => bits (h.laneWord p) 29 16).foldl (· ||| ·) 0

/-- The lane carries lane-map assignments (R317). -/
def Hub.ulActive (h : Hub) (l : Nat) : Bool := h.ls l == 7 && (h.assignOf l != 0 || (h.ul l).moving)

/-- No spare can take over (R320). -/
def Hub.noSpare (h : Hub) : Bool :=
  let sp := h.spareLane
  !h.on UL_SPARE_EN || h.ls sp != 7 || !(h.ul sp).places.isEmpty || (h.ul sp).moving

/-- Frames of lane l that the host has not acknowledged. -/
def Hub.unacked (h : Hub) (l : Nat) : Nat := aheadMod (2 ^ 32) (h.ul l).next (h.rd (UL_ACKED l).addr)

/-- The status bits that follow from the state of the uplinks (R316, R320, R326). -/
def Hub.refreshUls (h : Hub) : Hub :=
  let sp := h.spareLane
  let h := h.forAll (List.range 12) fun h l =>
    let h := h.put (UL_STATUS_SPARE l) (b2n (h.on UL_SPARE_EN && l == sp && !(h.ul l).moving))
    let h := h.put (UL_STATUS_ASSIGNED l) (b2n (h.ulActive l))
    h.put (UL_STATUS_ACK_LATE l) (b2n (h.ls l == 7 && decide (1024 < h.unacked l)))
  h.put UL_COMMON_STATUS_NO_SPARE (b2n h.noSpare)

/-! ## Training (R310 to R315) -/

/-- A lane that the power state leaves unpowered stays DISABLED whatever its EN: uplinks outside STBY_LANES and the
spokes in BOOT and STANDBY (R494). -/
def Hub.laneHeld (h : Hub) (l : Nat) : Bool :=
  let low := h.pwr.state == .boot || h.pwr.state == .standby
  (low && ((l < 12 && !bit (h.get PWR_CFG_STBY_LANES) l) || 14 ≤ l)) || h.pwr.state == .off || h.pwr.state == .gazebo

/-- A training fails: the lane enters DOWN with the cause named (R312, R313). -/
def Hub.trainFail (h : Hub) (l cause : Nat) : Hub :=
  let h := (h.setLs l 1).put (lCause l) cause
  (h.put (lRun l) (satInc 11 (h.get (lRun l)))).incSat (lTotal l)

/-- A lane trains: it takes up its CFG register, a transmitter starts at negative running disparity and a receiver
has none before the comma (R306, R309, R310). An uplink without LANE_LOCK stays DOWN (R307, R317), a lane whose LOOP
is set enters LOOP (R322), and a receive lane with no signal fails at once (R312). -/
def Hub.startTrain (h : Hub) (l : Nat) : Hub :=
  if !h.on (lEn l) ∨ h.laneHeld l then h.setLs l 0
  else
    let h := h.setLane l { h.lane l with cfg := h.rd (lCfg l).addr, tx := false, rx := none }
    if l < 12 ∧ !h.on CLK_STATUS_LANE_LOCK then (h.setLs l 1).put (lCause l) 8
    else if h.get (lLoop l) ≠ 0 then h.setLs l 8
    else if l < 12 then h.setLs l 6
    else if (h.lane l).signal then h.setLs l 2
    else h.trainFail l 2

/-- The retransmit buffer of a lane that goes down: the frames it still owes the host (R317, R320). -/
def Hub.owedFrames (h : Hub) (l : Nat) : List (List Nat) := ((h.ul l).frames.take (h.unacked l)).reverse

/-- Frames that can no longer be replayed are counted with an alarm (R319). -/
def Hub.replayLoss (h : Hub) (l n : Nat) : Hub :=
  if n = 0 then h
  else
    let h := (h.wr UL_REPLAY_LOST.addr ((h.rd UL_REPLAY_LOST.addr + n) % 2 ^ 32)).set1 UL_COMMON_STATUS_REPLAY_LOSS
    h.raise 0x0A (whereUnit 4 l) n

/-- What is left of a replay that is cut short: the frames it had still to send, but for a RESEND, whose frames the
lane counts as its own (R319). -/
def Replay.rest (r : Replay) : List OwedRun := if r.resend then [] else [⟨r.lane, r.first, r.frames, 0⟩]

/-- The frames of lane l that the host has not acknowledged: those still held, and how many are not (R316, R319). -/
def Hub.ownRun (h : Hub) (l : Nat) : List OwedRun :=
  let n := h.unacked l
  let frames := h.owedFrames l
  let lost := n - frames.length
  if n = 0 then [] else [⟨l, (h.rd (UL_ACKED l).addr + lost) % 2 ^ 32, frames, lost⟩]

/-- An uplink leaves UP: what a replay had still to send, and the frames not acknowledged, are kept for their replay
(R317, R319, R320). -/
def Hub.ulDown (h : Hub) (l : Nat) : Hub :=
  let u := h.ul l
  let cut := (u.replay.map Replay.rest).getD []
  h.setUl l { u with replay := none, service := [], owed := cut ++ u.owed ++ h.ownRun l }

/-- A lane leaves UP by a command; an uplink, which then carries nothing for the host, replays nothing (R321). -/
def Hub.ulForget (h : Hub) (l : Nat) : Hub := if l < 12 then h.setUl l { h.ul l with owed := [] } else h

/-- What follows when a lane leaves UP or enters LOOP, by lane type (R27, R28, R314, R367). -/
def Hub.leftUp (h : Hub) (l : Nat) : Hub :=
  if l < 12 then h.ulDown l
  else if l < 14 then
    let h := h.setDlGood (l - 12) false
    if l - 12 = h.selDl then h.dlFault.checkFreeRun else h.checkFreeRun
  else h.leafAbsent (l - 14)

/-- An active uplink is lost while a spare is there to stand in for it (R317, R318, R326). -/
def Hub.ulLoss (h : Hub) (l : Nat) : Hub :=
  if l < 12 ∧ h.ulActive l ∧ !h.noSpare then h.setUl l { h.ul l with lost := true } else h

/-- A lane in UP goes to DOWN with the cause named, and trains at once (R313, R314, R317). -/
def Hub.laneLoss (h : Hub) (l cause : Nat) : Hub :=
  let h := ((h.ulLoss l).setLs l 1).put (lCause l) cause
  ((h.leftUp l).startTrain l).refreshUls

/-- Lane l announces and starts the replay of a run of frames; those no longer held are counted (R318, R319, R349). -/
def Hub.startReplay (h : Hub) (l : Nat) (r : OwedRun) : Hub :=
  let u := h.ul l
  let n := r.frames.length
  let h := h.setUl l { u with
    service := [2, r.lane, r.first, n] :: u.service
    replay := if n = 0 then none else some { lane := r.lane, first := r.first, frames := r.frames, live := true } }
  let h := h.wr (UL_REPLAY_COUNT r.lane).addr ((h.rd (UL_REPLAY_COUNT r.lane).addr + n) % 2 ^ 32)
  h.replayLoss r.lane r.lost

/-- Lane l starts the first replay of a list, passing those of which no frame is held, and owes the rest. -/
def Hub.startOwed (h : Hub) (l : Nat) : List OwedRun → Hub
  | [] => h.setUl l { h.ul l with owed := [] }
  | r :: t =>
    if r.frames.isEmpty then (h.replayLoss r.lane r.lost).startOwed l t
    else (h.setUl l { h.ul l with owed := t }).startReplay l r

/-- The next replay that lane l owes starts, once none runs on it (R317, R320, R349). -/
def Hub.nextReplay (h : Hub) (l : Nat) : Hub :=
  if (h.ul l).replay.isSome then h else h.startOwed l (h.ul l).owed

/-- A lane reaches UP (R311, R313, R315, R316, R320). -/
def Hub.laneUp (h : Hub) (l : Nat) : Hub :=
  let h := (h.setLs l 7).put (lRun l) 0
  let h :=
    if l < 12 then
      let h := (h.setUl l { h.ul l with next := 0, frames := [], seqs := [], lost := false }).nextReplay l
      let h := h.wr (UL_ACKED l).addr 0
      if h.on UL_SPARE_EN ∧ h.spareLane ≠ l ∧ (h.ul l).places.isEmpty ∧ !(h.ul h.spareLane).places.isEmpty then
        (h.put UL_SPARE_LANE l).set1 UL_COMMON_STATUS_SPARE_MOVED
      else h
    else if l < 14 then if l - 12 = h.selDl then h.rttRestart else h
    else h.leafUp (l - 14)
  h.refreshUls

/-- A downlink is UP. -/
def Hub.dlUp (h : Hub) : Bool := h.ls 12 == 7 || h.ls 13 == 7

/-- A lane in IDENT completes its identity exchange, an uplink only while a downlink is UP (R315). -/
def Hub.identDone (h : Hub) (l : Nat) : Hub := if h.ls l = 6 ∧ (12 ≤ l ∨ h.dlUp) then h.laneUp l else h

/-- The backoff wait of a lane in DOWN ends (R313). -/
def Hub.backoffEnd (h : Hub) (l : Nat) : Hub := if h.ls l = 1 then (h.startTrain l).refreshUls else h

/-- A receive lane sees signal detect rise; a wait in DOWN ends at once (R313). -/
def Hub.signalRise (h : Hub) (l : Nat) : Hub :=
  let h := h.setLane l { h.lane l with signal := true }
  if h.ls l = 1 then h.startTrain l else h

/-- The steps of a receive lane's training (R311). -/
def Hub.trainStep (h : Hub) (l from_ : Nat) : Hub := if h.ls l = from_ then h.setLs l (from_ + 1) else h

/-- The hub's identity items of a spoke (R365). -/
def Hub.hubIdent (h : Hub) (s : Nat) : Hub :=
  h.sendItem s [5 * 2 ^ 28 + 3, 2 ^ 24 + h.get DL_GROUPS_HUB_ADDR * 16 + s, h.rd ID_PART.addr, h.rd ID_UNIQUE.addr]

/-- The step with the widest horizontal opening, the lower of two equal ones (R309). -/
def widestStep (eyes : List Nat) : Nat :=
  (List.range eyes.length).foldl (fun k i => if eyes.getD k 0 < eyes.getD i 0 then i else k) 0

/-- The EQ state ends with the fixed step, or the best of the steps whose openings were measured; the lane enters
IDENT, where a spoke gets HUB_IDENT (R309, R366). -/
def Hub.eqDone (h : Hub) (l : Nat) (eyes : List Nat) : Hub :=
  if h.ls l = 5 then
    let cfg := (h.lane l).cfg
    let h := (h.put (lEqStep l) (if bit cfg 8 then bits cfg 4 0 else widestStep eyes)).setLs l 6
    let h := if l < 14 then { h with lom := { h.lom with ident := SMap.erase (l - 12) h.lom.ident } } else h
    if 14 ≤ l then h.hubIdent (l - 14) else h
  else h

/-- HUB_IDENT again, every 256 µs in IDENT (R366). -/
def Hub.hubIdentResend (h : Hub) (s : Nat) : Hub := if h.ls (14 + s) = 6 then h.hubIdent s else h

/-- UP was not reached within 2 ms (R312). -/
def Hub.trainTimeout (h : Hub) (l : Nat) : Hub :=
  if 2 ≤ h.ls l ∧ h.ls l ≤ 6 then h.trainFail l 1 else h

/-- A receive lane loses signal (`los`) or clock-recovery lock (R312, R314, R324). -/
def Hub.signalLoss (h : Hub) (l : Nat) (los : Bool) : Hub :=
  let cause := if los then 2 else 3
  let h := if los then h.setLane l { h.lane l with signal := false } else h
  if h.ls l = 7 then h.laneLoss l cause
  else if 2 ≤ h.ls l ∧ h.ls l ≤ 6 then h.trainFail l cause
  else if h.ls l = 8 then h.loopSilent l
  else h

/-- Four frames in a row without the comma (R314). -/
def Hub.frameLockLoss (h : Hub) (l : Nat) : Hub := if h.ls l = 7 then h.laneLoss l 3 else h

/-- The eye monitor (R309). -/
def Hub.eyeUpdate (h : Hub) (l eye : Nat) : Hub := if h.ls l = 7 then h.put (lEye l) eye else h

/-! ## Enable, retrain, loopback (R321 to R326) -/

/-- EN is set: a DISABLED lane enters DOWN and trains at once (R311); the lane of an open planned move stays powered
after it (R321). -/
def Hub.laneEnable (h : Hub) (l : Nat) : Hub :=
  let h := h.put (lEn l) 1
  let h := if l < 12 then h.setUl l { h.ul l with off := false } else h
  if h.ls l = 0 then ((h.setLs l 1).startTrain l).refreshUls else h

/-- Units in progress on lane l. -/
def Hub.openUnits (h : Hub) (l : Nat) : Bool :=
  (List.range 14).any fun k => (h.txOf k).any fun u => u.lane == some l && !u.ended

/-- A planned move of lane l's new units onto the old spare (R321). -/
def Hub.plannedMove (h : Hub) (l : Nat) (off : Bool) : Hub :=
  let sp := h.spareLane
  if sp = l then h
  else
    let u := h.ul l
    let h := h.setUl sp { h.ul sp with places := (h.ul sp).places ++ u.places }
    let h := h.setUl l { h.ul l with places := [], moving := true, off := off }
    (h.put UL_SPARE_LANE l).refreshUls

/-- Lane l powers down; an uplink's frames are not replayed (R321). -/
def Hub.laneOff (h : Hub) (l : Nat) : Hub :=
  let up := h.ls l == 7
  let h := h.setLs l 0
  (if up then (h.leftUp l).ulForget l else h).refreshUls

/-- Lane l has frames still to replay. -/
def Hub.replaysOn (h : Hub) (l : Nat) : Bool := (h.ul l).replay.isSome || !(h.ul l).owed.isEmpty

/-- The moved lane has no unit in progress: it is the spare, or powers down, with no replay left to send (R321). -/
def Hub.plannedMoveDone (h : Hub) (l : Nat) : Hub :=
  let u := h.ul l
  if u.moving ∧ !h.openUnits l ∧ !(u.off && h.replaysOn l) then
    let h := h.setUl l { u with moving := false, off := false }
    if u.off then h.laneOff l else h.refreshUls
  else h

/-- EN is cleared (R321, R28). An active uplink first makes a planned move, which needs a spare (R328). -/
def Hub.laneDisable (h : Hub) (l : Nat) : Hub :=
  if l < 12 ∧ h.ulActive l then
    if h.noSpare then h.set1 (lCfgIllegal l)
    else (h.put (lEn l) 0).plannedMove l true
  else (h.put (lEn l) 0).laneOff l

/-- CTRL.RETRAIN; on an active uplink a loss of the lane with CAUSE HOST (R247, R326). -/
def Hub.laneRetrain (h : Hub) (l : Nat) : Hub :=
  let h := h.put (lRun l) 0
  let h := if 12 ≤ l ∧ l < 14 ∧ l - 12 = h.selDl then h.rttRestart else h
  if h.ls l = 7 then h.laneLoss l 9
  else if h.ls l = 0 ∨ h.ls l = 8 then h
  else (h.startTrain l).refreshUls

/-- Spoke s enters far-end loopback: a leaf that declared FAR_LOOP is commanded into loop mode, and the pattern
starts 16 BX after the item (R364). -/
def Hub.farEnter (h : Hub) (s : Nat) : Hub :=
  if bit (h.rd (LEAF_CAPS s).addr) 1 then
    (h.setLane (14 + s) { h.lane (14 + s) with lead := 15 }).sendItem s [6 * 2 ^ 28 + 1, 1]
  else h.setLane (14 + s) { h.lane (14 + s) with lead := 0 }

/-- Spoke s leaves far-end loopback: four frames carry the loop exit (R364). -/
def Hub.farExit (h : Hub) (s : Nat) : Hub := h.setLeaf s { h.leaf s with exits := 4 }

/-- Lane l enters LOOP, or stays in it with another mode (R322). A lane that is DISABLED, or an uplink without
LANE_LOCK, stays as it is (R307). -/
def Hub.loopEnter (h : Hub) (l : Nat) (was mode : Nat) : Hub :=
  if h.ls l = 0 ∨ (l < 12 ∧ !h.on CLK_STATUS_LANE_LOCK) then h
  else
    let up := h.ls l == 7
    let h := h.setLs l 8
    let h := if up then (h.leftUp l).ulForget l else h
    let h := if 14 ≤ l ∧ mode = 3 ∧ was ≠ 3 then h.farEnter (l - 14) else h
    let h := if 14 ≤ l ∧ mode ≠ 3 ∧ was = 3 then h.farExit (l - 14) else h
    h.refreshUls

/-- A loopback is refused on an active uplink and on the selected downlink (R324). -/
def Hub.loopBarred (h : Hub) (l : Nat) : Bool :=
  (l < 12 && h.ulActive l) || (12 ≤ l && l < 14 && l - 12 == h.selDl)

/-- A write of CTRL.LOOP (R322 to R324). -/
def Hub.laneLoop (h : Hub) (l mode : Nat) : Hub :=
  if mode ≠ 0 ∧ h.loopBarred l then h.set1 (lLoopRefused l)
  else
    let was := h.get (lLoop l)
    let h := (h.put (lLoop l) mode).loopClear l
    if mode ≠ 0 then h.loopEnter l was mode
    else if h.ls l = 8 then
      let h := if 14 ≤ l ∧ was = 3 then h.farExit (l - 14) else h
      let h := (h.setLs l 1).put (lRun l) 0
      (h.startTrain l).refreshUls
    else h

/-! ## Uplink faults and the spare (R317 to R321) -/

/-- The driver monitor sees an open or short: the lane is lost, and its training fails at once (R312, R317). -/
def Hub.ulTxFault (h : Hub) (l : Nat) : Hub :=
  if h.ls l = 7 then ((h.laneLoss l 5).trainFail l 5).refreshUls
  else if h.ls l = 6 then (h.trainFail l 5).refreshUls
  else h

/-- The lane is lost with the cause named: FAR_BAD or ACK_LOST (R317). -/
def Hub.ulLost (h : Hub) (l cause : Nat) : Hub := if h.ls l = 7 then h.laneLoss l cause else h

/-- Units that had started on lane l continue on lane sp (R318). -/
def moveUnits (l sp : Nat) (us : List TxUnit) : List TxUnit :=
  us.map fun u => if u.lane = some l ∧ !u.ended then { u with lane := some sp } else u

/-- What the spare replays for a lane it stands in for; a lane that owes nothing is announced with no frames, from
the number acknowledged (R318). -/
def Hub.takeoverRuns (h : Hub) (l : Nat) : List OwedRun :=
  if (h.ul l).owed.isEmpty then [⟨l, h.rd (UL_ACKED l).addr, [], 0⟩] else (h.ul l).owed

/-- The spare takes the place of lost lane l and replays its unacknowledged frames (R318, R319). -/
def Hub.spareTakeover (h : Hub) (l : Nat) : Hub :=
  let sp := h.spareLane
  let u := h.ul l
  if !u.lost ∨ h.noSpare then h
  else
    let runs := h.takeoverRuns l
    let h := h.setUl sp { h.ul sp with places := u.places, owed := runs.drop 1 ++ (h.ul sp).owed }
    let h := h.setUl l { u with places := [], owed := [], lost := false }
    let h := h.forAll (List.range 14) fun h k => h.setTx k (moveUnits l sp (h.txOf k))
    let h := (h.startReplay sp (runs.headD ⟨l, 0, [], 0⟩)).nextReplay sp
    let h := (h.inc UL_TAKEOVER_COUNT).w64 UL_LAST_TAKEOVER (timeWord h.label)
    (h.refreshUls).raise 0x09 (whereUnit 4 l) sp

/-- A replay runs on some lane. -/
def Hub.replayRuns (h : Hub) : Bool := (List.range 12).any fun l => (h.ul l).replay.isSome

/-- UL_SPARE.LANE names lane l: a planned move while the spare is in use, else no more than the name (R318, R321). -/
def Hub.spareWrite (h : Hub) (l : Nat) : Hub :=
  if l = h.spareLane then h
  else if !h.on UL_SPARE_EN then (h.put UL_SPARE_LANE l).refreshUls
  else
    let h := h.plannedMove l false
    if h.openUnits l then h else h.plannedMoveDone l

/-- A write of UL_SPARE.EN: with 0 the named lane takes its own lane-map assignments (R318, R327). -/
def Hub.spareEnable (h : Hub) (en : Bool) : Hub :=
  let sp := h.spareLane
  let u := h.ul sp
  let others := u.places.filter (· != sp)
  ((h.put UL_SPARE_EN (b2n en)).setUl sp { u with places := if en then others else sp :: others }).refreshUls

/-- Every uplink goes to DOWN with cause REF (R307, R317). -/
def Hub.uplinksDown (h : Hub) : Hub :=
  let h := h.forAll (List.range 12) fun h l =>
    if h.ls l = 0 then h
    else
      let up := h.ls l == 7
      let h := (h.setLs l 1).put (lCause l) 8
      if up then h.ulDown l else h
  h.refreshUls

/-- LANE_LOCK is lost (R317). -/
def Hub.lanePllLoss (h : Hub) : Hub := (h.put CLK_STATUS_LANE_LOCK 0).uplinksDown

/-- LANE_LOCK returns: the uplinks train with RUN cleared (R307). -/
def Hub.lanePllLock (h : Hub) : Hub :=
  let h := (h.put CLK_STATUS_LANE_LOCK 1).put UL_COMMON_CTRL_RELOCK 0
  let h := h.forAll (List.range 12) fun h l => if h.ls l = 0 then h else (h.put (lRun l) 0).startTrain l
  h.refreshUls

/-- UL_COMMON_CTRL.RELOCK (R307). -/
def Hub.ulRelock (h : Hub) : Hub :=
  if h.inRun then h.set1 UL_COMMON_STATUS_RUN_LOCKED
  else { h with ulRate := h.get UL_COMMON_CFG_RATE }.put UL_COMMON_CTRL_RELOCK 1 |>.lanePllLoss

/-- The oscillator is lost: the LANE PLL loses its reference (R19, R33). -/
def Hub.refLostAll (h : Hub) : Hub := h.refLost.lanePllLoss

/-! ## Identity (R315, R346, R366) -/

/-- An identity acknowledgement of lane l arrives in the control stream of the selected downlink: it completes that
lane's training, or fails the one training in IDENT when it names another lane (R315). -/
def Hub.ulIdentAck (h : Hub) (l : Nat) : Hub :=
  if !h.dlUp then h
  else if h.ls l = 6 then h.laneUp l
  else
    match (List.range 12).filter fun k => h.ls k == 6 with
    | [k] => h.trainFail k 4
    | _ => h

/-- A host identity record on downlink d (R315, R346). -/
def Hub.hostIdent (h : Hub) (d id sentOn : Nat) : Hub :=
  let h := h.wr (DL_HOST_ID d).addr id
  if h.ls (12 + d) ≠ 6 then h
  else if sentOn = d then h.laneUp (12 + d)
  else h.trainFail (12 + d) 4

/-- A LEAF_IDENT item of spoke s, seven words (R365, R366). -/
def Hub.leafIdent (h : Hub) (s : Nat) (w : List Nat) : Hub :=
  if h.ls (14 + s) ≠ 6 then h
  else
    let w1 := w.getD 0 0
    let w5 := w.getD 4 0
    let turn := w.getD 5 0
    let lag := bits w5 23 16
    let ends := bits w5 14 0
    if bits w1 3 0 ≠ s then h.trainFail (14 + s) 4
    else if bits w1 31 24 ≠ 1 ∨ ends = 0 ∨ 16384 < ends ∨ lag = 0 ∨ turn < 1000 ∨ 25000 < turn then
      h.set1 (LEAF_STATUS_IDENT_BAD s)
    else
      let h := ((h.wr (LEAF_ID0 s).addr w1).wr (LEAF_ID1 s).addr (w.getD 1 0))
      let h := (h.wr (LEAF_SERIAL s).addr (w.getD 2 0)).wr ((LEAF_SERIAL s).addr + 4) (w.getD 3 0)
      let h := (h.wr (LEAF_SHAPE s).addr w5).wr (LEAF_TURN s).addr turn
      (h.wr (LEAF_CAPS s).addr (w.getD 6 0)).laneUp (14 + s)

end Sys2Proof.Machine
end

