-- ==== Sys2Proof/Machine/WriteRules.lean ====
section
/-! DEFINITION. Which values a write may carry: every rule of the register chapters that makes a value, or a
combination of values, illegal or locked, the fields it leaves unwritten and the status bit it sets. -/

namespace Sys2Proof.Machine

/-- The bits of a field as a mask. -/
def fieldMask (hi lo : Nat) : Nat := 2 ^ (hi + 1) - 2 ^ lo

/-- `a` without the bits of `m`. -/
def clearMask (a m : Nat) : Nat := a - (a &&& m)

/-- `old` with the bits of `m` taken from `v`. -/
def mergeMask (old v m : Nat) : Nat := clearMask old m + (v &&& m)

/-- A refusal of the bits of `mask` with status bit `flag`, when `c` holds. -/
def refuse (c : Bool) (mask : Nat) (flag : RF) : List (Nat × RF) := if c then [(mask, flag)] else []

/-- `n` lies outside `lo` … `hi`. -/
def outside (lo hi n : Nat) : Bool := n < lo || hi < n

/-- The bits of a register that a write can set: reserved bits that only some elements of a row have are left out
(R252, R279). -/
def rwMask (l : Loc) : Nat :=
  let m := (regDesc l.name).rw
  match l.name with
  | .TDC_CFG => if l.k = 0 then m else clearMask m 2
  | .MON_WIN_CFG => if l.i < 8 then m else clearMask m (2 ^ 29)
  | _ => m

/-- A frame of R388 has this address word. -/
def frameAddrOk (a : Nat) : Bool :=
  let t := bits a 31 28
  let r := bits a 23 20
  let b := bits a 19 16
  let c := bits a 15 11
  let p := bits a 7 0
  bits a 27 24 == 0 && bits a 10 8 == 0 &&
    (if t = 1 then r == 0 && b == 0 && c == 0 && p < 2
     else if t = 2 then r < 6 && b == 0 && c == 0 && p == 0
     else if t = 3 then r < 6 && b < 4 && c == 0 && p == 0
     else if t = 4 then r < 6 && b < 4 && c < 17 && p == 0
     else if t = 5 then r == 0 && b == 0 && c == 0 && p < 8
     else if t = 6 ∨ t = 7 then r == 0 && b == 0 && c == 0 && p == 0
     else false)

/-- A MULT term needs THR in 1 … 384 (R198). -/
def multBroken (term thr : Nat) : Bool :=
  bits term 31 29 == 1 && (sgn 24 thr < 1 || 384 < sgn 24 thr)

/-- The two rules of TRG_C_CFG (R198). -/
def condCfgBroken (v : Nat) : Bool :=
  (bit v 30 && bit v 29) || (bit v 31 && countWhere 4 (bit v) < bits v 25 24 + 1)

/-- The write rules of the monitor chapter (R283); EXC_CFG reports in EXC_STATUS, the rest in MON_STATUS. -/
def Hub.monRefusals (h : Hub) (l : Loc) (v : Nat) : List (Nat × RF) :=
  let all := (regDesc l.name).rw
  let mon := MON_STATUS_CFG_ILLEGAL
  let oddOfPair (ch : Nat) : Bool := ch % 2 == 1 && chDiff (h.rd (MON_CH_CFG (ch - 1)).addr)
  match l.name with
  | .MON_CH_CFG =>
    let odd := l.i % 2 == 1
    refuse (odd && chDiff v) (fieldMask 30 30) mon ++
    refuse (!odd && chDiff v && chEn (h.rd (MON_CH_CFG (l.i + 1)).addr)) all mon ++
    refuse (odd && chEn v && chDiff (h.rd (MON_CH_CFG (l.i - 1)).addr)) all mon ++
    refuse (8 < chAvg v) (fieldMask 23 20) mon
  | .MON_SEQ_CFG => refuse (outside 10 1000000 (bits v 19 0)) (fieldMask 19 0) mon
  | .MON_GZB_CFG =>
    refuse (outside 1 1000 (bits v 25 16)) (fieldMask 25 16) mon ++
    refuse (outside 10 1000 (bits v 9 0)) (fieldMask 9 0) mon
  | .MON_WIN_CFG => refuse (oddOfPair (bits v 21 16)) all mon
  | .MON_URGENT => refuse (oddOfPair (bits v 5 0)) all mon
  | .MON_WIN_THR =>
    let cfg := h.rd (MON_CH_CFG (h.get (MON_WIN_CFG_CH l.i))).addr
    refuse (monCode cfg (bits v 27 16) < monCode cfg (bits v 11 0)) all mon
  | .EXC_CFG =>
    let level := bits v 11 0
    let badLevel := (excMode v == 1 && outside 1 200 level) || (excMode v == 2 && outside 500 2500 level)
    refuse (excMode v == 3) (fieldMask 31 30) (EXC_STATUS_CFG_ILLEGAL l.i) ++
    refuse badLevel all (EXC_STATUS_CFG_ILLEGAL l.i)
  | _ => []

/-- The write rules of the trigger chapter: illegal values (R198, R546). -/
def Hub.trgIllegal (h : Hub) (l : Loc) (v : Nat) : List (Nat × RF) :=
  let ill := TRG_STATUS_CFG_ILLEGAL
  let all := (regDesc l.name).rw
  match l.name with
  | .TRG_LATENCY =>
    let lat := bits v 9 0
    refuse (outside 32 768 lat || !(h.whole + 72 ≤ 2 * lat)) all ill
  | .TRG_WINDOW => refuse (63 < bits v 13 8 + bits v 5 0) all ill
  | .TRG_TB => refuse (bits v 7 0 < 4) (fieldMask 7 0) ill
  | .TRG_C_CFG => refuse (condCfgBroken v) all ill
  | .TRG_C_TERM =>
    let badType := 4 < bits v 31 29
    let term := if badType then setBits v 31 29 (h.get (TRG_C_TERM_TYPE l.i l.k)) else v
    refuse badType (fieldMask 31 29) ill ++ refuse (multBroken term (h.get (TRG_C_THR_THR l.i l.k))) all ill
  | .TRG_C_THR => refuse (multBroken (h.rd (TRG_C_TERM l.i l.k).addr) (bits v 23 0)) all ill
  | _ => []

/-- The fields locked in RUN (R169). -/
def runLockedMask (n : RegName) : Nat :=
  match n with
  | .TRG_LATENCY => fieldMask 9 0
  | .TRG_WINDOW => fieldMask 13 8 + fieldMask 5 0
  | .TRG_TB => fieldMask 13 8 + fieldMask 7 0
  | .TRG_CFG => fieldMask 0 0
  | _ => 0

/-- The mask of every refused bit. -/
def refusedMask (l : List (Nat × RF)) : Nat := l.foldl (fun a r => a ||| r.1) 0

/-- In RUN a write that would change a locked field leaves all locked fields of its register unchanged (R169). -/
def Hub.runLocked (h : Hub) (l : Loc) (key v : Nat) (illegal : List (Nat × RF)) : List (Nat × RF) :=
  let m := runLockedMask l.name
  let open_ := clearMask m (refusedMask illegal)
  refuse (h.inRun && (v &&& open_) != (h.rd key &&& open_)) m TRG_STATUS_RUN_LOCKED

/-- The write rules of the other chapters. -/
def Hub.otherRefusals (h : Hub) (l : Loc) (v : Nat) : List (Nat × RF) :=
  let all := (regDesc l.name).rw
  match l.name with
  | .CLK_REF_CFG =>
    refuse (outside 24000 48000 (bits v 31 16)) (fieldMask 31 16) CLK_STATUS_CFG_ILLEGAL ++
    refuse (outside 10000 50000 (bits v 15 0)) (fieldMask 15 0) CLK_STATUS_CFG_ILLEGAL
  | .ORG_CTRL => refuse (outside 450 850 (bits v 9 0)) (fieldMask 9 0) ORG_STATUS_SET_ILLEGAL
  | .CELL_CTRL =>
    refuse (bits v 5 4 == 3) (fieldMask 5 4) (CELL_STATUS_CFG_ILLEGAL l.i l.k) ++
    refuse (outside 8 40 (bits v 13 8)) (fieldMask 13 8) (CELL_STATUS_CFG_ILLEGAL l.i l.k)
  | .CELL_GAIN_RATIO => refuse (outside 0x0C0000 0x140000 (bits v 23 0)) all (CELL_STATUS_CFG_ILLEGAL l.i l.k)
  | .CELL_HLTH_CFG => refuse (bits v 31 16 < bits v 15 8) all (CELL_STATUS_CFG_ILLEGAL l.i l.k)
  | .HNG_CFG => refuse (bits v 15 0 < 256) (fieldMask 15 0) (HNG_STATUS_CFG_ILLEGAL l.i)
  | .CELL_FLT_EST =>
    let n := bits v 21 16
    refuse (!(n == 0 || 32 ≤ n)) (fieldMask 21 16) (CELL_FLT_STATUS_CFG_ILLEGAL l.i l.k) ++
    refuse (5 < bits v 26 24) (fieldMask 26 24) (CELL_FLT_STATUS_CFG_ILLEGAL l.i l.k)
  | .CELL_FLT_REC =>
    let n := bits v 21 16
    refuse (!(n == 0 || (17 ≤ n && n ≤ 28))) (fieldMask 21 16) (CELL_FLT_STATUS_CFG_ILLEGAL l.i l.k) ++
    refuse (5 < bits v 26 24) (fieldMask 26 24) (CELL_FLT_STATUS_CFG_ILLEGAL l.i l.k)
  | .CREC_CFG =>
    refuse (bits v 9 8 == 3) (fieldMask 9 8) CREC_STATUS_CFG_ILLEGAL ++
    refuse (outside 4 12 (bits v 3 0)) (fieldMask 3 0) CREC_STATUS_CFG_ILLEGAL
  | .EVT_LAG_LIMIT => refuse (bits v 6 0 == 0) all EVT_STATUS_CFG_ILLEGAL
  | .EVT_SLOT_TIMEOUT => refuse (outside 10 10000 (bits v 13 0)) all EVT_STATUS_CFG_ILLEGAL
  | .FORM_CFG => refuse (bits v 21 16 == 0) (fieldMask 21 16) EVT_STATUS_CFG_ILLEGAL
  | .IVL_CFG =>
    refuse (9 < bits v 4 1) (fieldMask 4 1) (IVL_STATUS_CFG_ILLEGAL l.i) ++
    refuse (9 < bits v 12 9) (fieldMask 12 9) (IVL_STATUS_CFG_ILLEGAL l.i)
  | .IVL_RTT_CFG =>
    refuse (8 < bits v 11 8) (fieldMask 11 8) IVL_RTT_STATUS_CFG_ILLEGAL ++
    refuse (11 < bits v 3 0) (fieldMask 3 0) IVL_RTT_STATUS_CFG_ILLEGAL
  | .IVL_RTT_PERIOD => refuse (outside 4 1000 (bits v 9 0)) all IVL_RTT_STATUS_CFG_ILLEGAL
  | .FRQ_CFG =>
    refuse (12 ≤ bits v 4 0 && bits v 4 0 ≤ 15) (fieldMask 4 0) FRQ_STATUS_CFG_ILLEGAL ++
    refuse (8 < bits v 11 8) (fieldMask 11 8) FRQ_STATUS_CFG_ILLEGAL
  | .FRQ_GATE => refuse (outside 1 1000000 (bits v 19 0)) all FRQ_STATUS_CFG_ILLEGAL
  | .CAL_REF_UV => refuse (outside 990000 1010000 v) all CAL_STATUS_CFG_ILLEGAL
  | .CAL_SCHED => refuse (outside 10 2000 (bits v 15 0)) (fieldMask 15 0) CAL_STATUS_CFG_ILLEGAL
  | .CAL_TOL =>
    refuse (bits v 31 24 == 0) (fieldMask 31 24) CAL_STATUS_CFG_ILLEGAL ++
    refuse (bits v 23 16 == 0) (fieldMask 23 16) CAL_STATUS_CFG_ILLEGAL ++
    refuse (bits v 15 0 == 0) (fieldMask 15 0) CAL_STATUS_CFG_ILLEGAL
  | .CAL_MON_PERIOD => refuse (outside 10 60000 (bits v 15 0)) all CAL_STATUS_CFG_ILLEGAL
  | .CAL_PULSE_CFG => refuse (bits v 23 16 == 0) (fieldMask 23 16) CAL_STATUS_CFG_ILLEGAL
  | .UL_CFG => refuse (32 < bits v 8 4 + bits v 3 0) all (UL_STATUS_CFG_ILLEGAL l.i)
  | .UL_COMMON_CFG => refuse (bits v 1 0 == 3) all UL_COMMON_STATUS_CFG_ILLEGAL
  | .LEAF_CTL_TIMEOUT => refuse (outside 30 10000 (bits v 15 0)) all LEAF_BCAST_CTRL_CFG_ILLEGAL
  | .CFG_READ_SEL => refuse (!frameAddrOk (clearMask v (fieldMask 27 24))) all CFG_STATUS_CFG_ILLEGAL
  | .PORT_CFG => refuse (outside 4 32 (bits v 5 0)) all PORT_STATUS_CFG_ILLEGAL
  | .FLASH_CFG => refuse (bits v 3 0 < 2) all FLASH_STATUS_CFG_ILLEGAL
  | .KPR_UPD_LEN =>
    let s := h.get KPR_UPD_STATUS_STATE
    refuse (outside 4096 4194304 v || v % 4 != 0) all KPR_UPD_STATUS_CFG_ILLEGAL ++
    refuse (!(s == 0 || s == 8 || s == 9)) all KPR_UPD_STATUS_STEP_REFUSED
  | _ => []

/-- Everything a write of `v` to the register at `key` breaks: the bits left unwritten and the status bits set. -/
def Hub.refusals (h : Hub) (l : Loc) (key v : Nat) : List (Nat × RF) :=
  let trg := h.trgIllegal l v
  trg ++ h.runLocked l key v trg ++ h.monRefusals l v ++ h.otherRefusals l v

/-- Sets the status bits of a list of refusals. -/
def Hub.setFlags (h : Hub) (l : List (Nat × RF)) : Hub := l.foldl (fun h r => h.set1 r.2) h

/-- Writes the RW fields of a register that the rules of its chapter let through, clears the W1C bits written as 1,
and sets the status bits of the refusals (R5, R6). -/
def Hub.writeFields (h : Hub) (l : Loc) (key v : Nat) : Hub :=
  let rs := h.refusals l key v
  let old := h.rd key
  let new := mergeMask old v (clearMask (rwMask l) (refusedMask rs))
  (h.wr key (clearMask new (v &&& (regDesc l.name).w1c))).setFlags rs

end Sys2Proof.Machine
end

