-- ==== Sys2Proof/Machine/CfgOps.lean ====
section
/-! DEFINITION. The configuration bit-stream (14): the contents of frames, the loader with its checks, verification,
apply requests and their decision, the apply itself, the scrubber and frame reads. -/

namespace Sys2Proof.Machine

def noFrame : Nat → List Nat := fun _ => []

/-! ## What a frame holds (R392 to R397) -/

/-- One payload word of a frame: bits of a register, PLAN of a block, the LANE_MAP word of a lane, or the SPOKE_MAP
word of a spoke. -/
inductive FrameWord where
  | reg (r : RF) (mask : Nat)
  | plan (j : Nat)
  | lane (l : Nat)
  | spoke (s : Nat)
  deriving DecidableEq, Repr

/-- All writable bits of a register. -/
def wholeReg (r : RF) : FrameWord :=
  match locate r.addr with
  | some l => .reg r (rwMask l)
  | none => .reg r 0

/-- Word `w` − 1 of trellis condition k: TRG_C_CFG, then TERM and THR of terms 0 to 3 (R392). -/
def condWord (k i : Nat) : FrameWord :=
  if i = 0 then wholeReg (TRG_C_CFG k)
  else if i % 2 = 1 then wholeReg (TRG_C_TERM k (i / 2)) else wholeReg (TRG_C_THR k (i / 2 - 1))

/-- Payload word `w` of CHIP page 0 (R392). -/
def chipWord (w : Nat) : Option FrameWord :=
  if w = 1 then some (.reg CLK_CTRL 0x70)
  else if w = 2 then some (wholeReg ORG_CTRL)
  else if w = 3 then some (wholeReg CREC_CFG)
  else if 4 ≤ w ∧ w ≤ 15 then some (wholeReg (CREC_CH_MASK (w - 4)))
  else if w = 16 then some (wholeReg FORM_CFG)
  else if w = 17 then some (wholeReg EVT_LAG_LIMIT)
  else if w = 18 then some (wholeReg EVT_SLOT_TIMEOUT)
  else if w = 19 then some (wholeReg DL_FC_EN)
  else if w = 20 then some (.reg DL_GROUPS 0xFF)
  else if w = 21 then some (.reg CAL_CTRL (2 ^ 31))
  else none

/-- Payload word `w` of CELL frame (j, c) (R394); the spare has words 1 to 4 only. -/
def cellFrameWord (j c w : Nat) : Option FrameWord :=
  if w = 1 then some (wholeReg (CELL_CTRL j c))
  else if w = 2 then some (wholeReg (CELL_DISC j c))
  else if w = 3 then some (wholeReg (CELL_HLTH_CFG j c))
  else if w = 4 then some (wholeReg (TDC_CFG j c))
  else if c = 16 then none
  else if w = 5 then some (wholeReg (CELL_DLY j c))
  else if w = 6 then some (wholeReg (CELL_FLT_PED j c))
  else if w = 7 then some (.reg (CELL_FLT_EST j c) (fieldMask 26 24 + fieldMask 21 16))
  else if w = 8 then some (.reg (CELL_FLT_REC j c) (fieldMask 26 24 + fieldMask 21 16))
  else if w = 9 then some (wholeReg (CELL_TRG j c))
  else if w = 10 then some (wholeReg (CELL_FORM j c))
  else if w = 11 then some (wholeReg (CELL_ZS j c))
  else none

/-- Payload word `w` of TRELLIS page p (R392). -/
def trellisWord (p w : Nat) : Option FrameWord :=
  if p = 0 then
    if w = 1 then some (wholeReg TRG_CFG)
    else if w = 2 then some (wholeReg TRG_LATENCY)
    else if w = 3 then some (wholeReg TRG_WINDOW)
    else if w = 4 then some (wholeReg TRG_TB)
    else if 5 ≤ w ∧ w ≤ 22 then some (condWord ((w - 5) / 9) ((w - 5) % 9))
    else none
  else if p < 4 then
    if 1 ≤ w ∧ w ≤ 18 then some (condWord (2 * p + (w - 1) / 9) ((w - 1) % 9)) else none
  else if 1 ≤ w ∧ w ≤ 24 then
    some (wholeReg (TRG_CHMASK (2 * (p - 4) + (w - 1) / 12) ((w - 1) % 12)))
  else none

/-- Payload word `w` of the frame with address word `a`; none: the word must be 0. -/
def frameWord (a w : Nat) : Option FrameWord :=
  let t := bits a 31 28
  let j := 4 * bits a 23 20 + bits a 19 16
  let p := bits a 7 0
  if t = 1 then
    if p = 0 then chipWord w
    else if w = 1 then some (wholeReg CLK_REF_CFG)
    else if w = 2 then some (wholeReg UL_COMMON_CFG)
    else none
  else if t = 2 then if w = 1 then some (.reg (RGN_CTRL (bits a 23 20)) 3) else none
  else if t = 3 then
    if w = 1 then some (.reg (BLK_CTRL j) 1)
    else if w = 2 then some (wholeReg (HNG_CFG j))
    else if w = 3 then some (wholeReg (HNG_TOL j))
    else if w = 4 then some (wholeReg (HNG_ROT_MASK j))
    else if w = 5 then some (.plan j)
    else none
  else if t = 4 then cellFrameWord j (bits a 15 11) w
  else if t = 5 then trellisWord p w
  else if t = 6 then if 1 ≤ w ∧ w ≤ 12 then some (.lane (w - 1)) else none
  else if t = 7 then
    if 1 ≤ w ∧ w ≤ 16 then some (.spoke (w - 1))
    else if w = 17 then some (wholeReg EVT_LEAF_WIN)
    else none
  else none

/-- The PLAN word of a block's active frame; none retired until an apply names a cell. -/
def Hub.planOf (h : Hub) (j : Nat) : Nat := SMap.get (fun _ => 31) h.cfg.plan j

/-- The SPOKE_MAP word of spoke s as the registers hold it (R397). -/
def Hub.spokeWord (h : Hub) (s : Nat) : Nat :=
  h.get (SPK_CTRL_EN s) * 2 ^ 31 + b2n (bit (h.rd EVT_LEAF_INCL.addr) s) * 2 ^ 30 +
    b2n (bit (h.rd IVL_RTT_SPK.addr) s) * 2 ^ 29 + h.get (LEAF_CTRL_STREAM_EN s) * 2 ^ 23 +
    h.get (LEAF_CTRL_FWD_REC s) * 2 ^ 22 + h.get (LEAF_CTRL_FWD_CAL s) * 2 ^ 21 + h.get (LEAF_ISO_LIMIT_LIMIT s)

/-- Payload word `w` of the active frame `a`. -/
def Hub.activeWord (h : Hub) (a w : Nat) : Nat :=
  match frameWord a w with
  | none => 0
  | some (.reg r m) => h.rd r.addr &&& m
  | some (.plan j) => h.planOf j
  | some (.lane l) => h.laneWord l
  | some (.spoke s) => h.spokeWord s

/-- FCRC of a frame's words 0 to 30 (R386, R388). -/
def frameCrc (words : List Nat) : Nat := crc32 (wordsBytes (words.take 31))

/-- The active frame `a` as stored, with its FCRC (R398). -/
def Hub.activeFrame (h : Hub) (a : Nat) : List Nat :=
  let body := a :: (List.range 30).map fun i => h.activeWord a (i + 1)
  body ++ [frameCrc body]

/-- The copy of configuration memory that owns a frame: none for the chip copy, else its region (R388). -/
def frameCopy (a : Nat) : Option Nat :=
  if 2 ≤ bits a 31 28 ∧ bits a 31 28 ≤ 4 then some (bits a 23 20) else none

/-! ## Content (R391) -/

/-- The value of one register in a frame is legal by itself; the rules that join registers are checked at
verification (R391, R403). -/
def Hub.regContentOk (h : Hub) (r : RF) (mask v : Nat) : Bool :=
  clearMask v mask == 0 &&
    match locate r.addr with
    | none => false
    | some l =>
      match l.name with
      | .TRG_LATENCY => !outside 32 768 (bits v 9 0)
      | .TRG_C_TERM => bits v 31 29 ≤ 4
      | .TRG_C_THR => true
      | _ => (h.trgIllegal l v ++ h.otherRefusals l v).isEmpty

/-- A payload word breaks no rule of R391. -/
def Hub.wordContentOk (h : Hub) (a w v : Nat) : Bool :=
  match frameWord a w with
  | none => v == 0
  | some (.reg r m) => h.regContentOk r m v
  | some (.plan _) => v < 16 || v == 31
  | some (.lane _) => clearMask v 0x7E3FFF == 0
  | some (.spoke _) => clearMask v 0xE0E0FFFF == 0

/-- The first payload word of a frame that breaks R391. -/
def Hub.contentFault (h : Hub) (words : List Nat) : Option Nat :=
  ((List.range 30).map (· + 1)).find? fun w => !h.wordContentOk (words.getD 0 0) w (words.getD w 0)

/-! ## Counts and states -/

/-- CFG_LOADED_FRAMES, RGN_LOADED_FRAMES and RGN_CFG_STATUS.LOADED follow the loaded frames (R409, R412). -/
def Hub.refreshLoaded (h : Hub) : Hub :=
  let h := h.wr CFG_LOADED_FRAMES.addr h.cfg.loaded.length
  h.forAll (List.range 6) fun h r =>
    let n := (h.cfg.loaded.filter fun p => frameCopy p.1 == some r).length
    (h.put (RGN_LOADED_FRAMES_COUNT r) n).put (RGN_CFG_STATUS_LOADED r) (b2n (n != 0))

/-- The load fails: every frame of it is discarded (R401). -/
def Hub.loadFail (h : Hub) (why : Nat) : Hub :=
  let h := { h with cfg := { h.cfg with words := [], work := [] } }
  (h.put CFG_STATUS_STATE 4).put CFG_STATUS_FAIL_WHY why

/-- The load fails on word `w` of frame `a`. -/
def Hub.loadFailAt (h : Hub) (why a w : Nat) : Hub :=
  ((h.loadFail why).wr CFG_ERR_FRAME.addr a).wr CFG_ERR_WORD.addr w

/-- A load is in LOADING or VERIFYING. -/
def Hub.loadOpen (h : Hub) : Bool := h.get CFG_STATUS_STATE == 1 || h.get CFG_STATUS_STATE == 2

/-- The owner's session ends or no longer holds SHAPE (R402). -/
def Hub.cfgSessionEnd (h : Hub) (path : Nat) : Hub :=
  if h.loadOpen ∧ h.cfg.path = path then h.loadFail 12 else h

/-- A keeper takeover occurs (R402). -/
def Hub.cfgTakeover (h : Hub) : Hub := if h.loadOpen ∧ h.get CFG_STATUS_OWNER = 2 then h.loadFail 13 else h

/-- No word has arrived for 1 s (R402). -/
def Hub.cfgStall (h : Hub) : Hub := if h.get CFG_STATUS_STATE = 1 then h.loadFail 14 else h

/-- The master that acts: 0 downlink, 1 serial port, 2 keeper A, 3 keeper B, as OWNER names it and as the session
path it uses (R401, R413). -/
def ownerOf (m : Nat) : Nat := min m 2
def pathOf (m : Nat) : Nat := if m = 0 then 2 else if m = 1 then 1 else 3

/-- CFG_CTRL.BEGIN (R401). -/
def Hub.cfgBegin (h : Hub) (m : Nat) : Hub :=
  let h := { h with cfg := { h.cfg with words := [], total := 0, work := [], loaded := [], path := pathOf m } }
  let h := (h.refreshLoaded.wr CFG_LOAD_COUNT.addr 0).put CFG_STATUS_OWNER (ownerOf m)
  (h.put CFG_STATUS_STATE 1).put CFG_STATUS_FAIL_WHY 0

/-- CFG_CTRL.CANCEL (R407). -/
def Hub.cfgCancel (h : Hub) : Hub := h.put CFG_STATUS_ARMED 0

/-- CFG_CTRL.DISCARD (R401, R407). -/
def Hub.cfgDiscard (h : Hub) : Hub :=
  if h.get CFG_STATUS_STATE = 0 then h
  else
    let h := { h with cfg := { h.cfg with words := [], work := [], loaded := [] } }
    (h.refreshLoaded.put CFG_STATUS_STATE 0).cfgCancel

/-! ## Loading (R387 to R391, R401) -/

/-- The header check that word `n` completes, by its FAIL_WHY (R387). `ws` holds the words taken, newest first. -/
def Hub.headerFault (h : Hub) (n v : Nat) (ws : List Nat) : Option Nat :=
  if n = 0 then if v = 0x56584346 then none else some 1
  else if n = 1 then
    let f := h.rd ID_CFG_FORMAT.addr
    if v / 2 ^ 16 = f / 2 ^ 16 ∧ v % 2 ^ 16 ≤ f % 2 ^ 16 then none else some 2
  else if n = 2 then if v = h.rd ID_PART.addr then none else some 3
  else if n = 3 then if v = h.rd ID_REV.addr then none else some 4
  else if n = 5 then
    let req := ws.getD 1 0 + 2 ^ 32 * v
    if clearMask req (h.r64 (bank h.cfg.path FEAT_ACCEPT)) = 0 then none else some 5
  else if n = 6 then if v / 2 ^ 16 = 0 ∧ 1 ≤ v ∧ v ≤ 450 then none else some 6
  else if n = 7 then if crc32 (wordsBytes (ws.drop 1).reverse) = v then none else some 6
  else none

/-- The last frame address of the load, if a frame has been taken (R389). -/
def Hub.lastFrame (h : Hub) : Option Nat := (h.cfg.work.getLast?).map (·.1)

/-- Word `i` of a frame has been taken; its address, FCRC and content are checked (R388, R389, R391). -/
def Hub.takeFrameWord (h : Hub) (i v : Nat) : Hub :=
  if i = 0 then
    let rising := match h.lastFrame with
      | none => true
      | some a => a < v
    if frameAddrOk v && rising then h else h.loadFailAt 7 v 0
  else if i = 31 then
    let words := (h.cfg.words.take 32).reverse
    let a := words.getD 0 0
    if frameCrc words ≠ v then h.loadFailAt 8 a 31
    else
      match h.contentFault words with
      | some w => h.loadFailAt 9 a w
      | none => { h with cfg := { h.cfg with work := SMap.set noFrame h.cfg.work a words } }
  else h

/-- The tag of the trailer under the load key of the loading session (R390, R421). -/
def Hub.loadTagOk (h : Hub) : Bool :=
  let ws := h.cfg.words
  let key := (SMap.get (fun _ => ({} : Ses)) h.sess h.cfg.path).loadKey
  let body := (ws.drop 8).reverse
  !key.isEmpty && wordsBytes (ws.take 8).reverse == hmac key (wordsBytes body)

/-- Word `i` of the trailer has been taken (R390). -/
def Hub.takeTrailerWord (h : Hub) (i v : Nat) : Hub :=
  if i = 0 then if v = 0x56585452 then h else h.loadFail 11
  else if i = 1 then
    let open_ := h.get (bank h.cfg.path SES_STATUS_STATE) == 2
    if open_ ∧ v = h.get (bank h.cfg.path SES_STATUS_SLOT) then h else h.loadFail 11
  else if i = 9 then if h.loadTagOk then h.put CFG_STATUS_STATE 2 else h.loadFail 11
  else h

/-- A word written to CFG_LOAD_DATA by master `m` (R401). -/
def Hub.cfgLoadData (h : Hub) (m v : Nat) : Hub :=
  if h.get CFG_STATUS_STATE ≠ 1 ∨ h.get CFG_STATUS_OWNER ≠ ownerOf m then h.set1 CFG_STATUS_LOAD_REFUSED
  else
    let n := h.rd CFG_LOAD_COUNT.addr
    let h := (h.wr CFG_LOAD_COUNT.addr (n + 1))
    let h := { h with cfg := { h.cfg with words := v :: h.cfg.words } }
    if n < 8 then
      match h.headerFault n v h.cfg.words with
      | some why => h.loadFail why
      | none => if n = 6 then { h with cfg := { h.cfg with total := v } } else h
    else if n < 8 + 32 * h.cfg.total then h.takeFrameWord ((n - 8) % 32) v
    else h.takeTrailerWord (n - 8 - 32 * h.cfg.total) v

/-! ## Verification (R403) -/

/-- Payload word `w` of frame `a` as it will stand after the apply. -/
def Hub.futureWord (h : Hub) (a w : Nat) : Nat :=
  match SMap.get noFrame h.cfg.work a with
  | [] => h.activeWord a w
  | ws => ws.getD w 0

/-- The frame and first word of condition k (R392). -/
def condPlace (k : Nat) : Nat × Nat :=
  (0x50000000 + k / 2, (if k < 2 then 5 else 1) + 9 * (k % 2))

/-- The first frame and word that break a joining rule: R198 with R52, then the lane rule of R395. -/
def Hub.crossFault (h : Hub) : Option (Nat × Nat) :=
  let lat := h.futureWord 0x50000000 2
  let mult := ((List.range 32).filter fun i =>
    let (a, w) := condPlace (i / 4)
    multBroken (h.futureWord a (w + 1 + 2 * (i % 4))) (h.futureWord a (w + 2 + 2 * (i % 4)))).head?
  let sp := h.get UL_SPARE_LANE
  let assigned (i : Nat) : Bool :=
    (List.range 12).any fun l => l != sp && bit (h.futureWord 0x60000000 (l + 1)) i
  if !(h.whole + 72 ≤ 2 * lat) then some (0x50000000, 2)
  else match mult with
    | some i => let (a, w) := condPlace (i / 4); some (a, w + 2 + 2 * (i % 4))
    | none => if (List.range 14).all assigned then none else some (0x60000000, 1)

/-- A set of frames holds a clock page that changes UL_COMMON_CFG.RATE. -/
def Hub.changesRate (h : Hub) (frames : SMap (List Nat)) : Bool :=
  match SMap.get noFrame frames 0x10000001 with
  | [] => false
  | ws => ws.getD 2 0 % 4 != h.get UL_COMMON_CFG_RATE

/-- Verification completes; `differs`: a replica read back differs from the bit-stream (R403). -/
def Hub.verifyDone (h : Hub) (differs : Bool) : Hub :=
  if h.get CFG_STATUS_STATE ≠ 2 then h
  else
    match h.crossFault with
    | some (a, w) => h.loadFailAt 10 a w
    | none =>
      if h.inRun ∧ h.changesRate h.cfg.work then h.loadFailAt 15 0x10000001 2
      else if differs then h.loadFail 8
      else
        let h := { h with cfg := { h.cfg with loaded := h.cfg.work, work := [], words := [] } }
        h.refreshLoaded.put CFG_STATUS_STATE 3

/-! ## Requests and decisions (R404, R406 to R408) -/

/-- A refused apply (R404, R406). -/
def Hub.applyMissed (h : Hub) (why : Nat) : Hub :=
  let h := ((h.set1 CFG_STATUS_APPLY_MISSED).put CFG_STATUS_MISS_WHY why).inc CFG_MISSED_COUNT
  h.raise 0x10 0 (h.rd CFG_STATUS.addr)

/-- The decision on an apply at BX `a` (R404, R406). -/
def Hub.cfgDecide (h : Hub) (a : Nat) : Hub :=
  let st := h.get CFG_STATUS_STATE
  if st = 3 then
    if h.inRun ∧ h.changesRate h.cfg.loaded then h.applyMissed 2
    else
      let h := { h with cfg := { h.cfg with due := some ⟨a, h.cfg.loaded⟩, loaded := [] } }
      let h := ((h.refreshLoaded.put CFG_STATUS_STATE 0).set1 CFG_STATUS_APPLY_DONE).inc CFG_APPLY_COUNT
      h.w64 CFG_LAST_APPLY (a * 2 ^ 16)
  else if st = 0 then h.inc CFG_NOP_COUNT
  else h.applyMissed 1

/-- CFG_CTRL.ARM (R407). -/
def Hub.cfgArm (h : Hub) : Hub :=
  let a := h.r64 CFG_APPLY_BX / 2 ^ 16
  let ahead := aheadMod (2 ^ 48) a h.clk.frame
  if 2 ≤ ahead ∧ ahead < 2 ^ 47 then
    { h with cfg := { h.cfg with armedBx := a } }.put CFG_STATUS_ARMED 1
  else h.set1 CFG_STATUS_ARM_LATE

/-- CFG_CTRL.APPLY_NOW (R404, R407). -/
def Hub.cfgApplyNow (h : Hub) : Hub :=
  if h.inRun then h.set1 CFG_STATUS_RUN_LOCKED else h.cfgDecide ((h.clk.frame + 1) % 2 ^ 48)

/-- An armed apply is decided in the last cycle of BX A − 1 (R404). -/
def Hub.cfgArmDecision (h : Hub) : Hub :=
  let a := h.cfg.armedBx
  if h.on CFG_STATUS_ARMED ∧ h.nextFrame = a then
    let h := { h.cfgCancel with cfg := { h.cfg with armDone := some a } }
    h.cfgDecide a
  else h

/-- The APPLY fast command decides an apply at F (R404); with an armed apply of the same BX it is one apply, and an
arm for a later BX gives way (R408). -/
def Hub.cfgApplyFast (h : Hub) : Hub :=
  let f := h.nextFrame
  if h.cfg.armDone = some f then h
  else
    let h := if h.on CFG_STATUS_ARMED ∧ h.cfg.armedBx ≠ f then h.set1 CFG_STATUS_ARM_CANCELLED else h
    h.cfgCancel.cfgDecide f

/-- A BX_SET changed the count: the arm stays on its number, and is cancelled if that is then less than 2 BX ahead
(R407). -/
def Hub.cfgBxSet (h : Hub) : Hub :=
  let ahead := aheadMod (2 ^ 48) h.cfg.armedBx h.nextFrame
  if h.on CFG_STATUS_ARMED ∧ !(2 ≤ ahead ∧ ahead < 2 ^ 47) then h.cfgCancel.set1 CFG_STATUS_ARM_CANCELLED else h

/-- CFG_CTRL as a whole (R410). -/
def Hub.cfgCtrlWrite (h : Hub) (m v : Nat) : Hub :=
  let h := if bit v 0 then h.cfgBegin m else if bit v 1 then h.cfgDiscard else h
  let h := if bit v 2 ∧ bit v 3 then h
    else if bit v 2 then h.cfgArm
    else if bit v 3 then h.cfgCancel
    else h
  if bit v 4 then h.cfgApplyNow else h

/-! ## The apply (R405) -/

/-- CELL_CTRL, CELL_DISC, TDC_CFG, CELL_DLY or a response of cell c has its value applied in BX `a`: the change takes
effect with the next sample, or from the label of that BX (R76, R77, R81, R82, R132, R149, R238). -/
def Hub.takeCellWord (h : Hub) (n : RegName) (j c a : Nat) (level : Int) : Hub :=
  match n with
  | .CELL_CTRL => (h.takeFrontEnd j c).takeEnable j c
  | .CELL_DISC => (h.takeDiscEnable j c level).takeDiscSettings j c level
  | .TDC_CFG => let h := h.takeTdcEnable j c; if c = 0 then h.cdOff j else h
  | .CELL_DLY => h.takeDelay j c
  | .CELL_FLT_EST =>
    if h.get (CELL_FLT_EST_NEXT j c) = h.get (CELL_FLT_EST_CUR j c) then h
    else h.setDue .est (chanOf j c) (some (2 * a))
  | .CELL_FLT_REC =>
    if h.get (CELL_FLT_REC_NEXT j c) = h.get (CELL_FLT_REC_CUR j c) then h
    else h.setDue .rec_ (chanOf j c) (some (2 * a))
  | _ => h

/-- What a register change of the chip, region and block frames starts (R146, R405, R406). -/
def Hub.takeChipWord (h : Hub) (l : Loc) (old new a : Nat) : Hub :=
  match l.name with
  | .CLK_CTRL => if bits old 5 4 = bits new 5 4 then h else h.takePolicy
  | .CLK_REF_CFG => if bits old 15 0 = bits new 15 0 then h else h.relock
  | .UL_COMMON_CFG => if old % 4 = new % 4 then h else h.ulRelock
  | .ORG_CTRL => if old = new then h else (h.orgCtrlWrite (bits new 16 16) (bits new 9 0)).skewsCold
  | .CREC_CFG =>
    if bits old 9 8 = bits new 9 8 ∧ bits old 3 0 = bits new 3 0 then h
    else { h with crec := { h.crec with sched := h.crec.sched ++ [(some (2 * a), reApply)] } }
  | .TRG_LATENCY => h.refreshLatency
  | .EVT_LAG_LIMIT => h.refreshLags
  | .RGN_CTRL => (h.takeOut l.i).refreshLags
  | .BLK_CTRL => h.refreshBlk l.i
  | .HNG_CFG => h.shadowCfg l.i
  | _ => h

/-- The signal level of cell `id` where one is given, else that of an idle input (R68, R80). -/
def levelOf (levels : List (Nat × Int)) (id : Nat) : Int := ((levels.find? fun p => p.1 == id).map (·.2)).getD 8192

/-- A register whose change by APPLY acts from the sample labelled with the apply BX (R47, R76, R77, R81, R82, R132). -/
def bySample (n : RegName) : Bool :=
  match n with
  | .CELL_CTRL | .CELL_DISC | .CELL_DLY => true
  | _ => false

/-- The first sample labelled with the apply BX is WHOLE samples away: its cell words wait for it (R47, R405). -/
def Hub.cellWordSoon (h : Hub) (key a : Nat) (l : Loc) (level : Int) : Hub :=
  if bySample l.name ∧ h.whole ≠ 0 then
    { h with cfg := { h.cfg with late := h.cfg.late ++ [(h.clk.tick + 1 + h.whole, key, a, level)] } }
  else h.takeCellWord l.name l.i l.k a level

/-- The applied cell words that take effect with the next sample. -/
def Hub.lateWords (h : Hub) : Hub :=
  if h.cfg.late.isEmpty then h
  else
    let due := h.cfg.late.filter fun p => p.1 ≤ h.clk.tick + 1
    let h := { h with cfg := { h.cfg with late := h.cfg.late.filter fun p => !decide (p.1 ≤ h.clk.tick + 1) } }
    due.foldl (fun h p =>
      match locate p.2.1 with
      | none => h
      | some l => h.takeCellWord l.name l.i l.k p.2.2.1 p.2.2.2) h

/-- One register word of an applied frame. `levels` gives the signal levels that the discriminators see, as high-gain
codes, by cell id (R81). -/
def Hub.applyReg (h : Hub) (r : RF) (mask v a : Nat) (levels : List (Nat × Int)) : Hub :=
  let old := h.rd r.addr
  let new := mergeMask old v mask
  match locate r.addr with
  | none => h
  | some l =>
    let h := h.wr r.addr new
    match l.name with
    | .CELL_CTRL | .CELL_DISC | .TDC_CFG | .CELL_DLY | .CELL_FLT_EST | .CELL_FLT_REC =>
      h.cellWordSoon r.addr a l (levelOf levels (cellId l.i l.k))
    | _ => h.takeChipWord l old new a

/-- Replaces bit `i` of a register. -/
def Hub.putBit (h : Hub) (r : RF) (i : Nat) (b : Bool) : Hub := h.put { r with hi := i, lo := i } (b2n b)

/-- The bits of a SPOKE_MAP word below EN reach their registers (R397). -/
def Hub.putSpoke (h : Hub) (s v : Nat) : Hub :=
  let h := (h.putBit EVT_LEAF_INCL s (bit v 30)).putBit IVL_RTT_SPK s (bit v 29)
  let h := ((h.put (LEAF_CTRL_STREAM_EN s) (bits v 23 23)).put (LEAF_CTRL_FWD_REC s) (bits v 22 22)).put
    (LEAF_CTRL_FWD_CAL s) (bits v 21 21)
  h.put (LEAF_ISO_LIMIT_LIMIT s) (bits v 15 0)

/-- One word of the SPOKE_MAP frame (R397, R405). -/
def Hub.applySpoke (h : Hub) (s v : Nat) : Hub :=
  let was := h.on (SPK_CTRL_EN s)
  let h := h.putSpoke s v
  if was = bit v 31 then h
  else if bit v 31 then h.laneEnable (14 + s) else h.laneDisable (14 + s)

/-- One payload word of an applied frame (R405). -/
def Hub.applyWord (h : Hub) (a w v bx : Nat) (levels : List (Nat × Int)) : Hub :=
  match frameWord a w with
  | none => h
  | some (.reg r m) => h.applyReg r m v bx levels
  | some (.plan j) =>
    let was := h.planOf j
    let h := { h with cfg := { h.cfg with plan := SMap.set (fun _ => 31) h.cfg.plan j v } }
    if v = was ∨ v = 31 then h else h.moveUse j v useRetire
  | some (.lane l) => { h with laneMap := SMap.set laneMapReset h.laneMap l v }
  | some (.spoke s) => h.applySpoke s v

/-- CFG_BAD of a copy follows its uncorrectable frames (R400). -/
def Hub.refreshBad (h : Hub) : Hub :=
  let h := h.put CFG_STATUS_CFG_BAD (b2n (h.cfg.bad.any fun a => frameCopy a == none))
  h.forAll (List.range 6) fun h r =>
    h.put (RGN_CFG_STATUS_CFG_BAD r) (b2n (h.cfg.bad.any fun a => frameCopy a == some r))

/-- A frame has been rewritten, by an apply or a register write (R400). -/
def Hub.frameRewritten (h : Hub) (p : Nat → Bool) : Hub :=
  if h.cfg.bad.isEmpty then h
  else { h with cfg := { h.cfg with bad := h.cfg.bad.filter fun a => !p (clearMask a (2 ^ 24)) } }.refreshBad

/-- The register at `key` has been written: the frame that holds it has been rewritten (R398, R400). -/
def Hub.cfgTouched (h : Hub) (key : Nat) : Hub :=
  h.frameRewritten fun a => (List.range 30).any fun i =>
    match frameWord a (i + 1) with
    | some (.reg r _) => r.addr == key
    | some (.spoke s) =>
      key == (SPK_CTRL s).addr || key == EVT_LEAF_INCL.addr || key == IVL_RTT_SPK.addr ||
        key == (LEAF_CTRL s).addr || key == (LEAF_ISO_LIMIT s).addr
    | _ => false

/-- The first cycle of A: every frame of the decided apply becomes active, in the order of address words (R405). -/
def Hub.applyEffect (h : Hub) (levels : List (Nat × Int)) : Hub :=
  match h.cfg.due with
  | none => h
  | some d =>
    let h := { h with cfg := { h.cfg with due := none } }
    let h := d.frames.foldl (fun h p =>
      (List.range 30).foldl (fun h i => h.applyWord p.1 (i + 1) (p.2.getD (i + 1) 0) d.bx levels) h) h
    (h.frameRewritten fun a => SMap.get noFrame d.frames a != []).refreshUls

/-! ## Scrub and reads (R399, R400, R411) -/

/-- The counts of a copy (R399, R400). -/
def scrubCorr (a : Nat) : RF :=
  match frameCopy a with
  | none => CFG_SCRUB_CORR
  | some r => RGN_SCRUB_CORR_COUNT r

def scrubUncorr (a : Nat) : RF :=
  match frameCopy a with
  | none => CFG_SCRUB_UNCORR
  | some r => RGN_SCRUB_UNCORR_COUNT r

/-- Word `w` of the active frame `a` takes the voted value `v`; the hub keeps it in use (R400). -/
def Hub.upsetWord (h : Hub) (a w v : Nat) : Hub :=
  match frameWord a w with
  | none => h
  | some (.reg r m) => h.wr r.addr (mergeMask (h.rd r.addr) v m)
  | some (.plan j) => { h with cfg := { h.cfg with plan := SMap.set (fun _ => 31) h.cfg.plan j v } }
  | some (.lane l) => { h with laneMap := SMap.set laneMapReset h.laneMap l v }
  | some (.spoke s) => (h.putSpoke s v).put (SPK_CTRL_EN s) (bits v 31 31)

/-- The scrubber finds frame `a` of a copy with replicas that differ, or with a voted FCRC that fails. `rewrote`: a
replica has been rewritten (R399). `upset` is none where the voted frame is good; else it lists the payload words
the voted frame has with their values (R400). A bad shadow frame is kept with bit 24 of its address set. -/
def Hub.cfgScrub (h : Hub) (a : Nat) (shadow rewrote : Bool) (upset : Option (List (Nat × Nat))) : Hub :=
  if !frameAddrOk a then h
  else
    let h := if rewrote then h.inc (scrubCorr a) else h
    match upset with
    | none => h
    | some ws =>
      let h := if shadow then h else ws.foldl (fun h p => h.upsetWord a p.1 p.2) h
      let b := if shadow then a + 2 ^ 24 else a
      let h := { h with cfg := { h.cfg with bad := if h.cfg.bad.contains b then h.cfg.bad else b :: h.cfg.bad } }
      let wher := match frameCopy a with
        | none => 0
        | some r => whereRgn r
      let h := (h.refreshBad.inc (scrubUncorr a)).raise 0x0F wher a
      if shadow ∧ SMap.get noFrame h.cfg.loaded a ≠ [] then
        ({ h with cfg := { h.cfg with loaded := [] } }.refreshLoaded).loadFail 8
      else h

/-- CFG_READ_DATA, word `w` of the frame CFG_READ_SEL names (R411). -/
def Hub.cfgReadData (h : Hub) (w : Nat) : Nat :=
  let sel := h.rd CFG_READ_SEL.addr
  let a := clearMask sel (2 ^ 24)
  if !frameAddrOk a then 0
  else
    let shadow := SMap.get noFrame h.cfg.loaded a
    if bit sel 24 ∧ shadow ≠ [] then shadow.getD w 0 else (h.activeFrame a).getD w 0

end Sys2Proof.Machine
end

