-- ==== Sys2Proof/Machine/LomOps.lean ====
section
/-! DEFINITION. Lomhan downlinks (12): frames, fast-command bytes and the control stream (R330 to R341), and the host's
items that serve the uplinks (R346, R347). -/

namespace Sys2Proof.Machine

/-! ## Frames (R330, R331) -/

/-- A downlink frame is good (R330, R331). -/
def dlFrameGood (f : List Nat) (codeErrs : Nat) : Bool :=
  codeErrs == 0 && f.getD 0 0 == k285 && decide (f.getD 1 0 < 256) &&
    ((f.drop 2).take 12).all (fun x => x < 256 || x == k282 || x == k283) &&
    decide (f.getD 14 0 < 256) && decide (f.getD 15 0 < 256) &&
    crc16 (((f.drop 1).take 13).map symByte) == f.getD 14 0 * 256 + f.getD 15 0

/-! ## Items (R338 to R341) -/

/-- The header of an item on the downlink is well formed (R338, R340, R341). -/
def dlHeaderOk (hdr : Nat) : Bool :=
  let kind := bits hdr 31 28
  let mode := bits hdr 27 26
  let len := bits hdr 7 0
  let range := match kind with
    | 1 => true
    | 2 => decide (1 ≤ len) && decide (len ≤ 12)
    | 3 => len == 1
    | 4 => len == 2
    | 5 => len == 2
    | 6 => len == 1
    | 7 => len == 1
    | _ => false
  mode != 3 && (mode != 0 || bits hdr 25 24 == 0) && (kind == 1 || mode == 0) && range

/-- The item addresses this hub (R341). -/
def Hub.addressed (h : Hub) (mode target : Nat) : Bool :=
  match mode with
  | 0 => target == h.get DL_GROUPS_HUB_ADDR
  | 1 => (h.get DL_GROUPS_GROUPS &&& target) != 0
  | 2 => true
  | _ => false

/-- A request is outstanding from its last word on; at 96 it is refused with FULL (R343). -/
def Hub.dlRequest (h : Hub) (mode tag : Nat) (act : Hub → Hub) : Hub :=
  let n := h.rd DL_OUTSTANDING.addr
  if 96 ≤ n then h.replyFull mode tag else act (h.wr DL_OUTSTANDING.addr (n + 1))

/-- A malformed request executes nothing (R342, R343). -/
def Hub.replyMalformed (h : Hub) (mode tag : Nat) : Hub :=
  h.pushReply { mode := mode, tag := tag, refused := some 27 }

/-- The control symbols of a frame are lost: an item in assembly is discarded (R338, R339). -/
def Hub.ctlLost (h : Hub) : Hub :=
  let had := h.lom.item.isSome
  let h := { h with lom := { h.lom with item := none } }
  if had then h.ctlDiscard else h

/-! ## Fast commands (R334 to R337) -/

/-- A fast command that is not enabled, or a reserved CODE, does nothing and is counted (R335). -/
def Hub.fcIgnored (h : Hub) : Hub := (h.inc DL_FC_IGNORED).set1 DL_CTL_STATUS_FC_IGNORED

/-- Acts if the command's DL_FC_EN bit is set, else counts (R335). -/
def Hub.fcGate (h : Hub) (en : RF) (act : Hub → Hub) : Hub := if h.on en then act h else h.fcIgnored

/-- HARD_RESET is armed (R335). -/
def Hub.hrstArmed (h : Hub) : Bool := h.on DL_HRST_ARM_ARM

/-- A fast-command byte lost on both downlinks (R337). -/
def Hub.fcLost (h : Hub) : Hub :=
  let h := (h.inc DL_FC_LOST).set1 DL_CTL_STATUS_FC_LOST
  (h.raise 0x0B 0 (h.nextFrame % 2 ^ 32)).ctlLost

/-- Records the frame of downlink d, none where it delivers none: counters, the run of bad frames and the OK bit
(R27, R30, R330). -/
def Hub.dlRecord (h : Hub) (d : Nat) (f : Option (List Nat × Nat)) : Hub :=
  let st := h.ls (12 + d)
  match f with
  | none => if st = 8 then h.loopOutside (12 + d) (List.replicate 16 badSymbol) else h.setDlGood d false
  | some (syms, errs) =>
    if st = 8 then h.loopOutside (12 + d) syms
    else if st ≠ 6 ∧ st ≠ 7 then h
    else
      let good := dlFrameGood syms errs
      let h := if good then h else h.inc (DL_FRAME_BAD d)
      if st = 6 then h
      else
        let h := h.add (DL_CODE_ERR d) errs
        let run (n : Nat) := if good then 0 else n + 1
        let clk := if d = 0 then { h.clk with badRunA := run h.clk.badRunA } else { h.clk with badRunB := run h.clk.badRunB }
        { h with clk := clk }.setDlGood d (good && (d == h.selDl || !h.clk.offsetBad))

/-- DL_HRST_ARM.ARM (R335). -/
def Hub.hrstArm (h : Hub) : Hub := h.put DL_HRST_ARM_ARM 1

/-- 1 s after arming (R335). -/
def Hub.hrstExpire (h : Hub) : Hub := h.put DL_HRST_ARM_ARM 0

/-! ## Items that serve the uplinks (R316, R346, R347) -/

/-- One word of an UL_ACK item (R346). -/
def Hub.ulAck (h : Hub) (l count : Nat) : Hub :=
  if 11 < l ∨ h.ls l ≠ 7 then h
  else
    let acked := h.rd (UL_ACKED l).addr
    let step := (count + 2 ^ 16 - acked % 2 ^ 16) % 2 ^ 16
    if step ≤ h.unacked l then
      let h := h.wr (UL_ACKED l).addr ((acked + step) % 2 ^ 32)
      h.put (UL_STATUS_ACK_LATE l) (b2n (decide (1024 < h.unacked l)))
    else h

/-- A LANE_BAD item (R317, R346). -/
def Hub.laneBad (h : Hub) (l : Nat) : Hub := if 11 < l then h else h.ulLost l 6

/-- A RESEND item (R347, R349). Frames already acknowledged are not resent; frames no longer held are lost. -/
def Hub.resend (h : Hub) (l first : Nat) : Hub :=
  if 11 < l ∨ h.ls l ≠ 7 ∨ (h.ul l).replay.isSome then h.inc UL_RESEND_REFUSED
  else
    let u := h.ul l
    let h := h.inc UL_RESEND_COUNT
    let total := min (h.unacked l) (aheadMod (2 ^ 32) u.next first)
    let frames := (u.frames.take total).reverse
    let n := frames.length
    let h :=
      if n = 0 then h
      else h.setUl l { u with
        service := [2, l, (u.next + 2 ^ 32 - n) % 2 ^ 32, n] :: u.service
        replay := some { lane := l, first := (u.next + 2 ^ 32 - n) % 2 ^ 32, frames := frames, live := true, resend := true } }
    let h := h.wr (UL_REPLAY_COUNT l).addr ((h.rd (UL_REPLAY_COUNT l).addr + n) % 2 ^ 32)
    h.replayLoss l (total - n)

end Sys2Proof.Machine
end

