-- ==== Sys2Proof/Machine/SessionOps.lean ====
section
/-! DEFINITION. Sessions (15): key slots, nonces, opening and closing a session, feature acceptance. A path is 1 the
serial port, 2 downlink control, 3 flash-boot (R413). -/

namespace Sys2Proof.Machine

def Hub.ses (h : Hub) (p : Nat) : Ses := SMap.get (fun _ => ({} : Ses)) h.sess p
def Hub.setSes (h : Hub) (p : Nat) (x : Ses) : Hub :=
  { h with sess := SMap.set (fun _ => ({} : Ses)) h.sess p x }

/-- A blank key slot. -/
def blankKey (_ : Nat) : List Nat := List.replicate 32 0

/-- The key of slot n (R415). -/
def Hub.slotKey (h : Hub) (n : Nat) : List Nat := SMap.get blankKey h.keys n

/-- A register in one-time-programmable memory takes a value that survives every reset (R415). -/
def Hub.burn (h : Hub) (key v : Nat) : Hub := { h with fuse := SMap.set resetValue h.fuse key v }.wr key v

/-- The session of a path is open. -/
def Hub.sesOpen (h : Hub) (p : Nat) : Bool := h.get (bank p SES_STATUS_STATE) == 2

/-- The set of features a path has accepted; CORE alone without a session (R426). -/
def Hub.accepted (h : Hub) (p : Nat) : Nat := h.r64 (bank p FEAT_ACCEPT)

/-- The words of the nonce registers of a path. -/
def Hub.nonceWords (h : Hub) (p : Nat) : List Nat := (List.range 4).map fun k => h.rd (bank p (SES_NONCE k)).addr

/-- Writes SES_NONCE. -/
def Hub.putNonce (h : Hub) (p : Nat) (ws : List Nat) : Hub :=
  h.forAll (List.range 4) fun h k => h.wr (bank p (SES_NONCE k)).addr (ws.getD k 0)

/-- The nonce of a path is discarded; `aged` says whether by age alone (R418). -/
def Hub.dropNonce (h : Hub) (p : Nat) (aged : Bool) : Hub :=
  let h := h.setSes p { h.ses p with nonce := false, aged := aged }
  let h := h.putNonce p []
  if h.get (bank p SES_STATUS_STATE) = 1 then h.put (bank p SES_STATUS_STATE) 0 else h

/-- A refused step of R419. -/
def Hub.sesRefuse (h : Hub) (p why : Nat) : Hub := (h.dropNonce p false).put (bank p SES_STATUS_WHY) why

/-- The 128 bits of a nonce as four words, word 0 the most significant (R430). -/
def nonceSplit (x : Nat) : List Nat := [x / 2 ^ 96 % 2 ^ 32, x / 2 ^ 64 % 2 ^ 32, x / 2 ^ 32 % 2 ^ 32, x % 2 ^ 32]

/-- Why a CHALLENGE for slot n is refused, as WHY codes it (R419). -/
def Hub.challengeWhy (h : Hub) (p n : Nat) : Option Nat :=
  if !h.on (SES_SLOT_LOCKED n) then some 3
  else if h.on (SES_SLOT_REVOKED n) then some 4
  else if h.clk.usec < (h.ses p).lockTo then some 5
  else none

/-- SES_CTRL.CHALLENGE for slot n (R419, R543). -/
def Hub.challenge (h : Hub) (p n : Nat) : Hub :=
  match h.challengeWhy p n with
  | some why => h.sesRefuse p why
  | none =>
    let h := h.putNonce p (nonceSplit (Config.nonce h.nonces).toNat)
    let h := { h with nonces := h.nonces + 1 }
    let h := h.setSes p { h.ses p with nonce := true, slot := n, aged := false }
    if h.sesOpen p then h else h.put (bank p SES_STATUS_STATE) 1

/-- What closing the open session of a path does (R422). -/
def Hub.sesEnd (h : Hub) (p : Nat) : Hub :=
  if h.sesOpen p then
    let h := h.cfgSessionEnd p
    let h := (h.w64 (bank p FEAT_ACCEPT) 1).put (bank p SES_STATUS_FEAT_FIXED) 0
    let h := ((h.put (bank p SES_STATUS_STATE) 0).put (bank p SES_STATUS_SLOT) 0).put (bank p SES_STATUS_WARDS) 0
    h.setSes p { h.ses p with loadKey := [] }
  else h

/-- The message M of R420. -/
def Hub.sesMessage (h : Hub) (p n : Nat) : List Nat :=
  wordsBytes (h.nonceWords p) ++ wordsBytes [h.rd (ID_UNIQUE.addr + 4), h.rd ID_UNIQUE.addr] ++ [p, n]

/-- The message B of R421. -/
def Hub.loadMessage (h : Hub) : List Nat :=
  [0x4C, 0x4F, 0x41, 0x44] ++ wordsBytes [h.rd ID_PART.addr, h.rd ID_REV.addr]

/-- A session opens on a path under slot n with a set of wards (R419, R421). -/
def Hub.sesStart (h : Hub) (p n wards : Nat) : Hub :=
  let h := h.sesEnd p
  let h := ((h.put (bank p SES_STATUS_STATE) 2).put (bank p SES_STATUS_SLOT) n).put (bank p SES_STATUS_WARDS) wards
  h.setSes p { h.ses p with loadKey := hmac (h.slotKey n) h.loadMessage }

/-- The tag the host has written. -/
def Hub.sesTag (h : Hub) (p : Nat) : List Nat :=
  wordsBytes ((List.range 8).map fun k => h.rd (bank p (SES_TAG k)).addr)

/-- SES_CTRL.RESPOND (R418, R419, R543). -/
def Hub.respond (h : Hub) (p : Nat) : Hub :=
  let x := h.ses p
  if !x.nonce then h.sesRefuse p (if x.aged then 2 else 7)
  else
    let n := x.slot
    if h.on (SES_SLOT_REVOKED n) then h.sesRefuse p 4
    else if h.sesTag p = hmac (h.slotKey n) (h.sesMessage p n) then
      let h := h.dropNonce p false
      let h := h.setSes p { h.ses p with badTags := 0 }
      h.sesStart p n (h.get (SES_SLOT_WARDS n))
    else
      let bad := x.badTags + 1
      let h := h.sesRefuse p 1
      h.setSes p { h.ses p with badTags := bad, lockTo := if 4 ≤ bad then h.clk.usec + 1000000 else x.lockTo }

/-- SES_CTRL.CLOSE (R418, R422). -/
def Hub.sesClose (h : Hub) (p : Nat) : Hub := (h.dropNonce p false).sesEnd p

/-- 1 s has passed since the nonce was issued (R418). -/
def Hub.nonceExpire (h : Hub) (p : Nat) : Hub := if (h.ses p).nonce then h.dropNonce p true else h

/-- SES_IDLE_LIMIT seconds have passed without an access (R422). -/
def Hub.sesIdle (h : Hub) (p : Nat) : Hub :=
  if h.sesOpen p then (h.sesClose p).put (bank p SES_STATUS_WHY) 6 else h

/-- A write of SES_IDLE_LIMIT (R544). -/
def Hub.idleLimitWrite (h : Hub) (p v : Nat) : Hub :=
  if outside 1 3600 (bits v 11 0) then h.set1 (bank p SES_STATUS_CFG_ILLEGAL)
  else h.put (bank p SES_IDLE_LIMIT_S) (bits v 11 0)

/-- The keeper that owns the hasp: 0 A, 1 B (R459, R482). -/
def Hub.owner (h : Hub) : Option Nat :=
  if h.get HASP_STATUS_OWNER = 0 ∨ h.get HASP_STATUS_OWNER = 3 then none else some (h.get HASP_STATUS_OWNER - 1)

/-- ID_FW of keeper k. -/
def fwReg (k : Nat) : RF := if k = 0 then ID_FW_A else ID_FW_B

/-- Both firmware service bits as offered: the active keeper's image declares them, and so does the other's if it
runs one (R425). -/
def Hub.offeredServices (h : Hub) : Nat :=
  match h.owner with
  | none => 0
  | some k =>
    let a := h.rd (fwReg k).addr
    let b := h.rd (fwReg (1 - k)).addr
    if b = 0 then a % 4 else (a &&& b) % 4

/-- What KPR_UPD_CTRL reads: a step reads 1 while the update carries it out (R6, R478, R482). -/
def Hub.updSteps (h : Hub) : Nat :=
  if h.kpr.erasing then 1
  else
    match h.get KPR_UPD_STATUS_STATE with
    | 3 => 2
    | 5 => 4
    | 7 => 8
    | _ => 0

/-- FEAT_OFFER (R425). -/
def Hub.featOffer (h : Hub) : Nat := 0x3FF + 2 ^ 32 * h.offeredServices

/-! ### The flash-boot session (R414, R498) -/

/-- A copy of the boot header is valid (R498). -/
def copyValid (ws : List Nat) : Bool :=
  ws.length == 8 && ws.getD 0 0 == 0x56584248 && decide (ws.getD 6 0 < 4) && crc32 (wordsBytes (ws.take 7)) == ws.getD 7 0

/-- The copy in use: the valid one with the larger SEQ, and copy 0 of two equal ones (R498). -/
def Hub.bootCopy (h : Hub) : Option Nat :=
  let a := h.pwr.copies.getD 0 []
  let b := h.pwr.copies.getD 1 []
  if copyValid a ∧ (!copyValid b ∨ b.getD 1 0 ≤ a.getD 1 0) then some 0 else if copyValid b then some 1 else none

/-- The key slot that the boot header names (R414, R498). -/
def Hub.bootSlot (h : Hub) : Option Nat := h.bootCopy.map fun k => (h.pwr.copies.getD k []).getD 6 0

/-- In BOOT the session engine answers the challenge of path 3 itself: the session opens under the slot of the boot
header with OBSERVE and SHAPE, and accepts every feature offered (R414). -/
def Hub.bootSession (h : Hub) : Hub :=
  match h.bootSlot with
  | none => h.sesRefuse 3 3
  | some n =>
    match h.challengeWhy 3 n with
    | some why => h.sesRefuse 3 why
    | none =>
      let h := (h.dropNonce 3 false).sesStart 3 n 5
      (h.w64 (bank 3 FEAT_ACCEPT) h.featOffer).put (bank 3 SES_STATUS_FEAT_FIXED) 1

/-- SES_CTRL as a whole (R544). -/
def Hub.sesCtrlWrite (h : Hub) (p v : Nat) : Hub :=
  if bit v 2 then h.sesClose p
  else
    let h := if bit v 1 then h.respond p else h
    if !bit v 0 then h else if p = 3 ∧ h.pwr.state = .boot then h.bootSession else h.challenge p (bits v 5 4)

/-- A FEAT_ACCEPT pair (R426). -/
def Hub.featAccept (h : Hub) (p v : Nat) : Hub :=
  if h.on (bank p SES_STATUS_FEAT_FIXED) ∨ !bit v 0 ∨ clearMask v h.featOffer ≠ 0 then
    h.set1 (bank p SES_STATUS_ACCEPT_REFUSED)
  else (h.w64 (bank p FEAT_ACCEPT) v).put (bank p SES_STATUS_FEAT_FIXED) 1

/-- SES_KEY_DATA as 32 bytes. -/
def Hub.keyData (h : Hub) : List Nat := wordsBytes ((List.range 8).map fun k => h.rd (SES_KEY_DATA k).addr)

/-- SES_KEY_CTRL.PROGRAM (R416). -/
def Hub.keyProgram (h : Hub) (n wards : Nat) : Hub :=
  if h.on SES_KEY_CTRL_BUSY ∨ h.on (SES_SLOT_LOCKED n) ∨ h.keyData.all (· == 0) then h.set1 SES_KEY_CTRL_FAIL
  else
    let h := { h with keyJob := some ⟨n, wards, h.keyData⟩ }
    (h.put SES_KEY_CTRL_BUSY 1).put SES_KEY_CTRL_PROGRAM 1

/-- Programming and read-back have ended; `good`: the read-back matches (R416). -/
def Hub.keyDone (h : Hub) (good : Bool) : Hub :=
  match h.keyJob with
  | none => h
  | some job =>
    let h := { h with keyJob := none, keys := SMap.set blankKey h.keys job.slot job.key }
    let h := h.burn (SES_SLOT job.slot).addr (2 ^ 31 + b2n (!good || h.on (SES_SLOT_REVOKED job.slot)) * 2 ^ 30
      + job.wards)
    let h := (h.put SES_KEY_CTRL_BUSY 0).put SES_KEY_CTRL_PROGRAM 0
    let h := h.forAll (List.range 8) fun h k => h.wr (SES_KEY_DATA k).addr 0
    if good then h.set1 SES_KEY_CTRL_DONE else h.set1 SES_KEY_CTRL_FAIL

/-- SES_KEY_CTRL.REVOKE by a path's session (R416, R417). -/
def Hub.keyRevoke (h : Hub) (p n : Nat) : Hub :=
  if h.on SES_KEY_CTRL_BUSY ∨ (h.sesOpen p ∧ h.get (bank p SES_STATUS_SLOT) = n) then h.set1 SES_KEY_CTRL_FAIL
  else h.burn (SES_SLOT n).addr (setBits (h.rd (SES_SLOT n).addr) 30 30 1)

end Sys2Proof.Machine
end

