-- ==== Sys2Proof/Machine/PowerOps.lean ====
section
/-! DEFINITION. Power states, supplies, boot, the gazebo state, resets (19), and the test access port (20). -/

namespace Sys2Proof.Machine

/-- The hub serves commands: it is in one of BOOT, STANDBY, READY and RUN (R494). -/
def Hub.awake (h : Hub) : Bool := h.pwr.state != .off && h.pwr.state != .gazebo

/-! ## Chip reset (R505) -/

/-- Why a chip reset came, as PWR_STATUS.RESET_WHY codes it (R509). -/
def whyPower : Nat := 0
def whyPin : Nat := 1
def whySupply : Nat := 2
def whyHard : Nat := 3
def whyRegister : Nat := 4
def whyWake : Nat := 5

/-- A register of the gazebo domain, which survives a chip reset (R505): the GZB_ registers. -/
def gazeboKey (key : Nat) : Bool := 0x10100 ≤ key && key < 0x10300

/-- The lane `l` right after a reset: only the level of its signal detect stands. -/
def keptLane (x : Lane) : Lane := { signal := x.signal }

/-- A chip reset with its cause (R505): every register and every store returns to its reset value but the gazebo
domain, RESET_WHY and PWR_RESET_COUNT; fuses, OTP and levels outside the hub stand. The hub is in BOOT. -/
def Hub.chipReset (h : Hub) (why : Nat) : Hub :=
  let count := (h.rd PWR_RESET_COUNT.addr + 1) % 2 ^ 32
  let good := h.get PWR_STATUS_SUPPLY_GOOD
  let h' : Hub := { Hub.reset with
    regs := h.regs.filter fun p => gazeboKey p.1
    fuse := h.fuse
    keys := h.keys
    nonces := h.nonces
    access := h.access
    tap := h.tap
    clk := { Hub.reset.clk with
      ocxoWarm := h.clk.ocxoWarm, ocxoHz := h.clk.ocxoHz, offsetBad := h.clk.offsetBad }
    kpr := { Hub.reset.kpr with header := h.kpr.header }
    pwr := { Hub.reset.pwr with
      supplyBad := h.pwr.supplyBad, ioLost := h.pwr.ioLost, gzbStopped := h.pwr.gzbStopped } }
  let h' := h'.forAll (List.range 30) fun g l => g.setLane l (keptLane (h.lane l))
  let h' := ((h'.wr PWR_RESET_COUNT.addr count).put PWR_STATUS_RESET_WHY why).put GZB_CTRL_ENTER 0
  (h'.put PWR_STATUS_SUPPLY_GOOD good).setPState .boot

/-- HARD_RESET: a chip reset if armed, else counted as ignored (R335; where the byte is decoded, log entry 14). -/
def Hub.hardReset (h : Hub) : Hub :=
  if h.hrstArmed then h.chipReset whyHard
  else (h.inc DL_FC_IGNORED).set1 DL_CTL_STATUS_HRST_IGNORED

/-- A chip reset on a pin or a wake: where a supply is bad, the hub enters BOOT once all are good (R497, R516). -/
def Hub.resetHeld (h : Hub) (why : Nat) : Hub :=
  let bad := h.pwr.supplyBad
  let h := h.chipReset why
  if bad = 0 then h else h.setPState .off

/-- reset_n is held low (R503, R505): in GAZEBO also a wake. -/
def Hub.resetPinLow (h : Hub) : Hub :=
  match h.pwr.state with
  | .off => h
  | .gazebo =>
    let h := (h.w64 GZB_LAST_WAKE (h.r64 GZB_TIME)).put GZB_STATUS_WAKE_WHY 0
    let h := h.resetHeld whyPin
    { h with pwr := { h.pwr with woke := true } }
  | _ => h.chipReset whyPin

/-- The wake (R503, R504, R507). -/
def Hub.wakeNow (h : Hub) (why : Nat) : Hub :=
  let h := (h.w64 GZB_LAST_WAKE (h.r64 GZB_TIME)).put GZB_STATUS_WAKE_WHY why
  let h := if why = 1 ∨ why = 2 then h.set1 GZB_STATUS_WAKE_ALARM else h
  let h := if why = 6 then h.set1 GZB_STATUS_TIME_LOST else h
  let h := h.chipReset whyWake
  { h with pwr := { h.pwr with woke := true } }

/-- A wake source that has acted wakes the hub in GAZEBO, once every supply is good (R503, R516; log entry 72). -/
def Hub.wakeHeld (h : Hub) : Hub :=
  match h.pwr.wake with
  | none => h
  | some why => if h.pwr.state = .gazebo ∧ h.pwr.supplyBad = 0 then h.wakeNow why else h

/-! ## Supplies (R497) -/

/-- SUPPLY_GOOD follows the supplies (R509). -/
def Hub.setSupplies (h : Hub) (bad : Nat) : Hub :=
  let h := h.put PWR_STATUS_SUPPLY_GOOD (31 - bad % 32)
  { h with pwr := { h.pwr with supplyBad := bad % 32, ioLost := h.pwr.ioLost || bit bad 3 } }

/-- Supply k is bad (R497): outside GAZEBO a chip reset that lasts until all supplies are good again. In GAZEBO the
domain loses its power with vdd_io only. -/
def Hub.supplyBad (h : Hub) (k : Nat) : Hub :=
  let bad := h.pwr.supplyBad ||| 2 ^ k
  match h.pwr.state with
  | .off => h.setSupplies bad
  | .gazebo => if k = 3 then ((h.setSupplies bad).chipReset whyPower).setPState .off else h.setSupplies bad
  | _ => ((h.setSupplies bad).chipReset whySupply).setPState .off

/-- The gazebo domain powers up: gazebo time restarts from 0 and is lost (R497, R510). -/
def Hub.gazeboPowerUp (h : Hub) : Hub :=
  let h := { h with regs := h.regs.filter fun p => !gazeboKey p.1 }
  let h := (h.wr PWR_RESET_COUNT.addr 0).set1 GZB_STATUS_TIME_LOST
  { h with pwr := { h.pwr with ioLost := false } }

/-- All supplies are good with reset_n high: the hub enters BOOT (R494, R497). -/
def Hub.supplyGood (h : Hub) : Hub :=
  let h := h.setSupplies 0
  if h.pwr.state = .off then
    let h := if h.pwr.ioLost then h.gazeboPowerUp else h
    h.setPState .boot
  else h.wakeHeld

/-- Every 1 ms each supply's voltage is measured (R509). -/
def Hub.supplyMeasure (h : Hub) (mv : List Nat) : Hub :=
  h.forAll (List.range 5) fun h k => h.put (PWR_SUPPLY_MV k) (mv.getD k 0)

/-! ## States (R494 to R496) -/

/-- The lanes that only READY and RUN power: uplinks outside STBY_LANES and the spokes (R494). -/
def Hub.readyLanes (h : Hub) : List Nat :=
  (List.range 30).filter fun l => (l < 12 && !bit (h.get PWR_CFG_STBY_LANES) l) || 14 ≤ l

/-- What STANDBY powers at choice: monitors with excitation, and the heater (R494). -/
def Hub.standbyPower (h : Hub) : Hub := h.monPower.heatPower

/-- A write of PWR_CFG: in BOOT and STANDBY the uplinks that STBY_LANES adds train, and those it leaves out power down
(R494). -/
def Hub.pwrCfgWritten (h : Hub) (was : Nat) : Hub :=
  let h := h.standbyPower
  if h.pwr.state ≠ .boot ∧ h.pwr.state ≠ .standby then h
  else
    (h.forAll ((List.range 12).filter fun l => bit was l != bit (h.get PWR_CFG_STBY_LANES) l) fun h l =>
      if bit was l then h.laneOff l else if h.on (lEn l) then (h.setLs l 1).startTrain l else h).refreshUls

/-- Entry into READY from STANDBY (R494, R496): every cell powers up, the lanes train, and the first time the
sweep is queued. -/
def Hub.enterReady (h : Hub) : Hub :=
  let first := h.pwr.firstReady
  let h := ({ h with pwr := { h.pwr with firstReady := false } }.setPState .ready).standbyPower
  let h := h.forAll (List.range 408) fun h id =>
    h.setCell id { h.cell id with conv := [], enableTo := h.clk.tick + 1 + 64 }
  let h := h.forAll (List.range 384) fun h n => (h.setChan n { h.chan n with pipe := [], line := [] }).mark n qEnable 64
  let h := (h.forAll h.readyLanes fun h l => if h.on (lEn l) then (h.setLs l 1).startTrain l else h).refreshUls
  if first ∧ !h.on KPR_STATUS_KEEPERLESS then h.calSweep else h

/-- READY is left for STANDBY (R494, R496): calibrations end, cells, rings and lanes power down. -/
def Hub.leaveReady (h : Hub) : Hub :=
  let h := h.forAll (List.range 24) fun h j => if (h.calBlk j).run.isSome then h.calEnd j whyEnded else h
  let h := h.forAll (List.range 24) Hub.restartRings
  let h := h.forAll (List.range 384) fun h n => h.setHitStore n {}
  let h := (h.setPState .standby).standbyPower
  h.forAll h.readyLanes fun h l => h.laneOff l

/-- A transition the table of R494 lists for PWR_CTRL.GO. -/
def Hub.goListed (h : Hub) (t : Nat) : Bool :=
  match h.pwr.state with
  | .standby => t == 3 && h.pwr.entering.isNone
  | .ready => t == 2 || t == 4
  | .run => t == 3
  | _ => false

/-- The PLL serves READY (R496). -/
def Hub.goReady (h : Hub) (t : Nat) : Bool :=
  t != 3 || h.pwr.state != .standby || h.on CLK_STATUS_MACHINE_LOCK || h.on CLK_STATUS_HOLDOVER

/-- A transition is refused (R494, R495). -/
def Hub.gotoRefused (h : Hub) : Hub := h.set1 PWR_STATUS_GOTO_REFUSED

/-- GO no longer waits. -/
def Hub.goDone (h : Hub) : Hub := { h with pwr := { h.pwr with goTarget := none } }.put PWR_CTRL_GO 0

/-- PWR_CTRL.GO (R495, R496); while a GO waits, a further one is ignored (R6). -/
def Hub.pwrGo (h : Hub) (t : Nat) : Hub :=
  if h.on PWR_CTRL_GO then h
  else if h.goListed t ∧ h.goReady t then { h with pwr := { h.pwr with goTarget := some t } }.put PWR_CTRL_GO 1
  else h.gotoRefused

/-- An event slot is allocated. -/
def Hub.slotsHeld (h : Hub) : Bool := (List.range 128).any fun k => (h.slot k).isSome

/-- A requested transition takes effect at a BX boundary (R495, R496). -/
def Hub.pwrTransition (h : Hub) : Hub :=
  match h.pwr.goTarget with
  | none => h
  | some t =>
    if !h.goListed t ∨ !h.goReady t then h.goDone.gotoRefused
    else if t = 2 then if h.slotsHeld then h else h.goDone.leaveReady
    else if t = 3 then if h.pwr.state = .standby then h.goDone.enterReady else h.goDone.setPState .ready
    else h.goDone.setPState .run

/-- A GO that would take effect at the BX boundary of an acting fast command is refused (R495). -/
def Hub.goGivesWay (h : Hub) (same : Bool) : Hub :=
  match h.pwr.goTarget with
  | none => h
  | some t => if same ∧ !(t = 2 ∧ h.slotsHeld) then h.goDone.gotoRefused else h

/-- RUN_START (R334, R335, R495). -/
def Hub.runStart (h : Hub) : Hub :=
  match h.pwr.state with
  | .ready => (h.goGivesWay (h.clk.slot == 1)).setPState .run
  | .run => { h with pwr := { h.pwr with stopAt := none } }
  | _ => h.gotoRefused

/-- RUN_STOP: RUN ends after the last cycle of BX F (R334, R335, R495). -/
def Hub.runStop (h : Hub) : Hub :=
  match h.pwr.state with
  | .ready => h
  | .run =>
    let h := h.goGivesWay (h.clk.slot == 0)
    { h with pwr := { h.pwr with stopAt := some h.nextFrame } }
  | _ => h.gotoRefused

/-- RUN ends once the BX of a RUN_STOP has passed (R334). -/
def Hub.runStopTaken (h : Hub) : Hub :=
  match h.pwr.stopAt with
  | none => h
  | some f =>
    if h.clk.frame = f then h
    else
      let h := { h with pwr := { h.pwr with stopAt := none } }
      if h.pwr.state = .run then h.setPState .ready else h

/-! ## Boot (R499, R500) -/

/-- The records of the gazebo log enter the ALARM queue in order, as it has room for them (R502). -/
def Hub.logReplay : Nat → Hub → Hub
  | 0, h => h
  | n + 1, h =>
    let i := h.pwr.logNext
    if i < h.get GZB_LOG_COUNT_LEVEL ∧ (h.queue 6).words.length ≤ 27 then
      let w := h.rd (GZB_LOG_CAUSE i).addr
      let code := if bit w 0 then 0x18 else 0x17
      let unit := whereUnit (if bit w 0 then 7 else 8) (bits w 7 4)
      let h := h.raiseGzb (h.r64 (GZB_LOG_TIME i)) code unit w
      Hub.logReplay n { h with pwr := { h.pwr with logNext := i + 1 } }
    else h

/-- The hub enters STANDBY at the end of a boot (R494, R499, R500, R502). -/
def Hub.bootEnd (h : Hub) (why : Nat) : Hub :=
  let h := h.sesEnd 3
  let h := (h.put PWR_STATUS_BOOT_WHY why).wr PWR_BOOT_TIME.addr (h.pwr.bootUsec / 1000)
  let h := (h.setPState .standby).standbyPower
  let h := h.forAll ((List.range 12).filter h.laneHeld) fun h l => h.laneOff l
  let h := { h with pwr := { h.pwr with logNext := if h.pwr.woke then 0 else 16, woke := false } }
  Hub.logReplay 16 h

/-- Keeper k's image failed its signature check (R481, R500). -/
def Hub.imageBad (h : Hub) (k : Nat) : Bool := h.get (KPR_HEALTH_LAST_FAULT k) == 6

/-- The boot bit-stream was refused (R401, R500). -/
def Hub.bootRefused (h : Hub) : Bool := h.get CFG_STATUS_STATE == 4 && h.get CFG_STATUS_OWNER == 2

/-- The fault of the boot sequence, as BOOT_WHY codes it, 0 for none (R500); of several the one found first counts, and
`image` says which shows of an image that one keeper failed and a refused bit-stream (DESIGN CHOICE, log entry 71). -/
def Hub.bootFault (h : Hub) (image : Bool) : Nat :=
  if h.on FLASH_STATUS_ABSENT then 1
  else if h.bootCopy.isNone then 2
  else if h.imageBad 0 ∧ h.imageBad 1 then 3
  else
    let one := h.imageBad 0 || h.imageBad 1
    if h.bootRefused && !(one && image) then 4
    else if one then 3
    else 0

/-- The boot sequence ends: without a fault, or with the one it has found (R499, R500). -/
def Hub.bootComplete (h : Hub) (image : Bool) : Hub :=
  if h.pwr.state = .boot then h.bootEnd (h.bootFault image) else h

/-- Step 6 was not reached within 2,000 ms: the load is discarded (R500). -/
def Hub.bootTimeout (h : Hub) : Hub := if h.pwr.state = .boot then h.cfgDiscard.bootEnd 5 else h

/-- The alarm_n output is driven low (R497, R507). -/
def Hub.alarmLow (h : Hub) : Bool :=
  let why := h.get PWR_STATUS_RESET_WHY
  h.pwr.state != .off &&
    ((h.pwr.state == .boot && (why == whySupply || why == whyHard)) ||
      h.on KPR_STATUS_KEEPERLESS || h.on GZB_STATUS_WAKE_ALARM)

/-! ## Gazebo (R276, R501 to R504) -/

/-- Comparators 0 to 7 that stay powered in GAZEBO (R276). -/
def Hub.gzbComparators (h : Hub) : List Nat := (List.range 8).filter fun w => h.on (MON_WIN_CFG_EN w)

/-- A wake source is enabled (R501). -/
def Hub.wakeEnabled (h : Hub) : Bool :=
  h.rd GZB_WAKE_EN.addr != 0 || h.gzbComparators.any fun w => h.on (MON_WIN_CFG_WAKE w)

/-- The gazebo log is empty (R502). -/
def Hub.clearLog (h : Hub) : Hub :=
  let h := h.wr GZB_LOG_COUNT.addr 0
  h.forAll (List.range 16) fun h n => (h.w64 (GZB_LOG_TIME n) 0).wr (GZB_LOG_CAUSE n).addr 0

/-- GZB_CTRL.ENTER (R501): the entry begins, unless one runs (R6). -/
def Hub.gzbEnter (h : Hub) : Hub :=
  if h.on GZB_CTRL_ENTER then h
  else if h.pwr.state ≠ .standby ∨ !h.wakeEnabled then h.set1 GZB_STATUS_ENTER_REFUSED
  else { h with pwr := { h.pwr with entering := some h.clk.usec, wake := none } }.put GZB_CTRL_ENTER 1

/-- The hub is in GAZEBO: every part but the gazebo domain is without power (R501, R502). -/
def Hub.gzbEntered (h : Hub) : Hub :=
  let h := ((h.w64 GZB_LAST_ENTRY (h.r64 GZB_TIME)).clearLog).put GZB_CTRL_ENTER 0
  let h := { h with pwr := { h.pwr with gzbPulse := false, entering := none, wakeRuns := [0, 0], listenTo := [0, 0], logNext := 16 } }
  let h := h.forAll [12, 13] fun h l => h.setLane l { h.lane l with rx := none }
  ((h.setPState .gazebo).standbyPower).wakeHeld

/-- No reply waits to be sent (R501). -/
def Hub.repliesSent (h : Hub) : Bool := h.lom.replies.isEmpty && (h.queue 1).words.isEmpty && (h.txOf 12).isEmpty

/-- An entry into GAZEBO goes on: the reply of the request that wrote ENTER is sent first, and the entry is over 1 ms
after the write (R501; DESIGN CHOICE, log entry 73). -/
def Hub.gzbEntering (h : Hub) : Hub :=
  match h.pwr.entering with
  | none => h
  | some t => if h.repliesSent ∨ t + 999 ≤ h.clk.usec then h.gzbEntered else h

/-- Every PERIOD_MS the linked excitations are switched on (R276). -/
def Hub.gzbMonPulse (h : Hub) : Hub :=
  if h.pwr.state = .gazebo then { h with pwr := { h.pwr with gzbPulse := true } } else h

/-- A wake source has acted; the first one is recorded (R503). -/
def Hub.wakeBy (h : Hub) (why : Nat) : Hub :=
  if h.pwr.wake.isSome then h else { h with pwr := { h.pwr with wake := some why } }

/-- An alarm raised in GAZEBO enters the log (R502, R510): `kind` 0 a crossing, 1 a loss of compliance. -/
def Hub.gzbAlarm (h : Hub) (kind source : Nat) (wakes : Bool) : Hub :=
  let woke := wakes && h.pwr.wake.isNone
  let n := h.get GZB_LOG_COUNT_LEVEL
  let h :=
    if 16 ≤ n then h.incSat GZB_LOG_COUNT_OVF
    else
      let h := h.w64 (GZB_LOG_TIME n) (h.r64 GZB_TIME)
      (h.wr (GZB_LOG_CAUSE n).addr (source * 16 + b2n woke * 2 + kind)).put GZB_LOG_COUNT_LEVEL (n + 1)
  if wakes then h.wakeBy (kind + 1) else h

/-- The evaluation of comparator w in GAZEBO, its input at `code` (R275, R276). -/
def Hub.gzbComparator (h : Hub) (w code : Nat) : Hub :=
  let (h, crossed) := h.winCompare w code
  if crossed then h.gzbAlarm 0 w (h.on (MON_WIN_CFG_WAKE w)) else h

/-- The excitations that are pulsed: linked to the channels of the enabled comparators (R276). -/
def Hub.gzbExcitations (h : Hub) : List Nat :=
  (List.range 8).filter fun e =>
    excMode (h.exc e) != 0 && h.gzbComparators.any fun w => (h.linked e).contains (h.get (MON_WIN_CFG_CH w))

/-- The compliance check of excitation e in GAZEBO (R268, R276). A loss that was there before sets OPEN, and wakes,
as one found anew does; it counts and raises a record again only where it wakes. -/
def Hub.gzbCompliance (h : Hub) (e : Nat) (lost limit : Bool) : Hub :=
  if !lost then h.put (EXC_STATUS_LOSS e) 0
  else if limit ∧ excMode (h.exc e) ≠ 2 then h
  else
    let wakes := h.on MON_GZB_CFG_WAKE_OPEN
    let new := !h.on (EXC_STATUS_LOSS e)
    let h := h.set1 (EXC_STATUS_OPEN e)
    let h := if new then
        ((h.set1 (EXC_STATUS_LOSS e)).put (EXC_STATUS_WHY e) (if limit then 2 else 1)).inc (EXC_LOSS_COUNT e) else h
    if new ∨ wakes then h.gzbAlarm 1 e wakes else h

/-- ON_US after the pulse: comparators and compliance are evaluated, and the excitations switched off (R276). `codes`
gives the comparators' inputs, and the masks, by excitation, lost compliance and whether by LIMIT. -/
def Hub.gzbMonEvaluate (h : Hub) (codes : List Nat) (lost limit : Nat) : Hub :=
  if h.pwr.state ≠ .gazebo ∨ !h.pwr.gzbPulse then h
  else
    let h := h.forAll h.gzbComparators fun h w => h.gzbComparator w (codes.getD w 0)
    let h := h.forAll h.gzbExcitations fun h e => h.gzbCompliance e (bit lost e) (bit limit e)
    { h with pwr := { h.pwr with gzbPulse := false } }

/-- The gazebo oscillator stops (R19, R503). -/
def Hub.oscStops (h : Hub) : Hub := { h with pwr := { h.pwr with gzbStopped := true } }

/-- The wake sources of R503 that act by themselves, in the order of WAKE_WHY (R510). -/
def Hub.wakeSource (h : Hub) (why : Nat) : Hub :=
  match why with
  | 3 => if h.on GZB_WAKE_EN_PIN then h.wakeBy 3 else h
  | 5 => if h.on GZB_WAKE_EN_PORT then h.wakeBy 5 else h
  | 6 => h.oscStops.wakeBy 6
  | _ => h

/-- A wake source acts in GAZEBO, or during the entry, which is then completed first: the source that acted first is
recorded (R501, R503). -/
def Hub.gazeboWake (h : Hub) (why : Nat) : Hub :=
  if h.pwr.state = .gazebo ∨ h.pwr.entering.isSome then (h.wakeSource why).wakeHeld else h

/-- The wake pattern of downlink d begins afresh (R503). -/
def Hub.wakeBroken (h : Hub) (d : Nat) : Hub :=
  if h.pwr.state = .gazebo then { h with pwr := { h.pwr with wakeRuns := h.pwr.wakeRuns.set d 0 } } else h

/-- Where a signal is present, the receiver of downlink d is powered for 2 ms to listen for the wake pattern (R503). -/
def Hub.wakeListen (h : Hub) (d : Nat) : Hub :=
  if (h.lane (12 + d)).signal then
    let h := h.wakeBroken d
    { h with pwr := { h.pwr with listenTo := h.pwr.listenTo.set d (h.clk.usec + 2000) } }
  else h

/-- A good frame with CODE = WAKE on downlink d while its receiver listens (R503). -/
def Hub.wakeFrame (h : Hub) (d : Nat) : Hub :=
  if h.pwr.state = .gazebo ∧ h.clk.usec < h.pwr.listenTo.getD d 0 then
    let n := h.pwr.wakeRuns.getD d 0 + 1
    let h := { h with pwr := { h.pwr with wakeRuns := h.pwr.wakeRuns.set d n } }
    if 16 ≤ n ∧ h.on GZB_WAKE_EN_DL then h.wakeBy 4 else h
  else h

/-- The gazebo oscillator stops outside the gazebo state (R19). -/
def Hub.gzbStop (h : Hub) : Hub := if h.awake then h.oscStops.set1 CLK_STATUS_GZB_STOP else h

/-- The gazebo oscillator runs again (R503). -/
def Hub.gzbOscReturn (h : Hub) : Hub := { h with pwr := { h.pwr with gzbStopped := false } }

/-! ## Block, region and cell resets (R225, R505, R506) -/

/-- A use of the spare other than COVER ends at its safe point (R113, R505). -/
def Hub.resetUse (h : Hub) (j : Nat) : Hub :=
  let use := h.hUse j
  if use = useCover ∨ (h.blk j).ending.isSome then h
  else if (h.blk j).serving.isSome ∨ (h.calBlk j).run.isSome then h.beginEnding j
  else if !h.spareUsable j ∨ use = useNone then h
  else if use = useShadow then
    (((h.closeDwell j).dropDiag j).openHinge j).spareFree j (h.blk j).rotAt false
  else
    let h := (h.setBlk j { h.blk j with commit := none }).put (HNG_STATUS_COMMIT_PENDING j) 0
    (h.openHinge j).spareFree j (h.blk j).useCell false

/-- A block reset (R505). -/
def Hub.blockReset (h : Hub) (j : Nat) : Hub :=
  let h := h.restartRings j
  let h := h.forAll (List.range 16) fun h c => h.setHitStore (chanOf j c) {}
  let h := h.put (BLK_SNAP_STATUS_STATE j) 0
  let b := h.blk j
  let h := h.setBlk j { b with
    scrub := 0, ptr := 0, snapLabel := 0, snapTime := 0, snapFrom := 0, resume := true
    arbPtr := 0, reads := b.reads.filter (·.diag.isSome) }
  let h := h.forAll (List.range 16) fun h c =>
    let n := chanOf j c
    h.setChan n { h.chan n with ests := [] }
  h.resetUse j

/-- BLK_CTRL.RESET reads 1 for the 2 BX it takes, and a further 1 is ignored (R6, R505). -/
def Hub.blockResetGo (h : Hub) (j : Nat) : Hub :=
  if h.on (BLK_CTRL_RESET j) then h
  else
    let h := h.blockReset j
    (h.setBlk j { h.blk j with resetTo := h.clk.tick + 4 }).put (BLK_CTRL_RESET j) 1

/-- The resets of blocks and of a cell that have taken their 2 BX are over (R6, R505). -/
def Hub.resetsOver (h : Hub) : Hub :=
  let h := h.forAll (List.range 24) fun h j =>
    if h.on (BLK_CTRL_RESET j) ∧ (h.blk j).resetTo ≤ h.clk.tick then h.put (BLK_CTRL_RESET j) 0 else h
  if h.on PWR_CELL_RESET_GO ∧ h.pwr.cellTo ≤ h.clk.tick then h.put PWR_CELL_RESET_GO 0 else h

/-- A region reset takes effect once no started fragment of the region is unsent (R225, R505). -/
def Hub.regionResetEffect (h : Hub) (r : Nat) : Hub :=
  if !(h.rgn r).resetPending ∨ h.fragmentOpen r then h
  else
    let h := (h.setRgn r { h.rgn r with resetPending := false }).put (RGN_CTRL_RESET r) 0
    (h.regionDiscard r).forAll (List.range 4) fun h b => h.blockReset (4 * r + b)

/-- PWR_CELL_RESET.GO of cell c of block j (R505). -/
def Hub.cellReset (h : Hub) (j c : Nat) : Hub :=
  let id := cellId j c
  let x := h.cell id
  let h := h.setCell id { x with armed := true, blankTick := some (h.clk.tick + 1) }
  let t := h.tdc id
  let h := h.setTdc id { t with
    edge := none, period := none, measured := none, enFrom := if t.en then some (h.clk.tick + 1) else t.enFrom }
  let h := if c = 0 then h.cdDiscard j else h
  if ctrlEn x.ctrl then
    let h := h.setCell id { h.cell id with enableTo := h.clk.tick + 1 + 64 }
    match h.servedBy j c with
    | some n => h.mark n qEnable 64
    | none => h
  else h

/-- A write of PWR_CELL_RESET with GO = 1, which then reads 1 for 2 BX (R6, R505, R511). -/
def Hub.cellResetGo (h : Hub) (v : Nat) : Hub :=
  let r := bits v 12 10
  let c := bits v 5 1
  if 5 < r ∨ 16 < c then h.set1 GZB_STATUS_CFG_ILLEGAL
  else if h.on PWR_CELL_RESET_GO then h
  else
    let h := h.cellReset (4 * r + bits v 9 8) c
    { h with pwr := { h.pwr with cellTo := h.clk.tick + 4 } }.put PWR_CELL_RESET_GO 1

/-- A write of PWR_CTRL (R505, R509, R511). -/
def Hub.pwrCtrlWrite (h : Hub) (v : Nat) : Hub :=
  let t := bits v 2 0
  if (bit v 4 ∧ bits v 31 24 ≠ 0xA5) ∨ (bit v 3 ∧ (t < 2 ∨ 4 < t)) then h.set1 PWR_STATUS_CFG_ILLEGAL
  else if bit v 4 then h.chipReset whyRegister
  else if bit v 3 then h.pwrGo t
  else h

/-! ## Excitation checks (R267, R268) and clocks (R19) -/

/-- 10 µs after an excitation change (R267). -/
def Hub.excBlankEnd (h : Hub) (e : Nat) : Hub := h.put (EXC_STATUS_BLANK e) 0

/-- Compliance returns (R268). -/
def Hub.excReturn (h : Hub) (e : Nat) : Hub := h.put (EXC_STATUS_LOSS e) 0

/-- The CONTROL oscillator stops and its duplicate takes over (R19). -/
def Hub.ctlOscSwap (h : Hub) : Hub := h.set1 CLK_STATUS_CTL_OSC_SWAP

/-! ## The test access port (R528) -/

/-- An instruction that gives the balls to the test logic (R528). -/
def TapInstr.takesBalls : TapInstr → Bool
  | .extest | .extestPulse | .extestTrain | .clamp | .highz => true
  | .bypass | .samplePreload => false

/-- An instruction is loaded; leaving a test instruction resets the chip (R528). -/
def Hub.tapLoad (h : Hub) (i : TapInstr) : Hub :=
  let back := h.tap.instr.takesBalls && !i.takesBalls
  let tap := { h.tap with instr := i }
  let h := if back && h.pwr.state != .off then h.resetPinLow else h
  { h with tap := tap }

/-- SAMPLE/PRELOAD: the boundary register is loaded with the word shifted in (R528). -/
def Hub.tapPreload (h : Hub) (word : Nat) : Hub :=
  let h := h.tapLoad .samplePreload
  { h with tap := { h.tap with boundary := word % 2 ^ 74 } }

end Sys2Proof.Machine
end

