-- ==== Sys2Proof/Machine/BusOps.lean ====
section
/-! DEFINITION. The register space as a master sees it: where an address lies (R22 to R25), wards and features (R423
to R428), and reads with the master's shadow (R345, R444, R447). Masters: 0 downlink control, 1 serial port, 2 and 3
keepers A and B. -/

namespace Sys2Proof.Machine

/-! ## Places (R22 to R25) -/

/-- What lies at a bus address. -/
inductive Place where
  | reg (l : Loc)
  | leaf
  | flash (offset : Nat)
  | ring (j c p : Nat)
  | buffer
  | hole
  deriving DecidableEq, Repr

/-- The place of a byte address; bits 1:0 are ignored (R22). -/
def place (addr : Nat) : Place :=
  let a := addr - addr % 4
  match locate a with
  | some l => .reg l
  | none =>
    if 0x02000000 ≤ a ∧ a < 0x03000000 then .leaf
    else if 0x10000000 ≤ a ∧ a < 0x11000000 then .flash (a - 0x10000000)
    else if 0x20000000 ≤ a ∧ a < 0x20600000 then
      let o := a - 0x20000000
      let b := o % 0x100000 / 0x20000
      let c := o % 0x20000 / 0x1000
      if b < 4 ∧ c < 17 then .ring (4 * (o / 0x100000) + b) c (o % 0x1000 / 2) else .hole
    else if 0x20800000 ≤ a ∧ a < 0x20980000 then .buffer
    else .hole

/-- A register of the session bank of a path (R413). -/
def banked (n : RegName) : Bool :=
  match n with
  | .SES_CTRL | .SES_STATUS | .SES_IDLE_LIMIT | .SES_NONCE | .SES_TAG | .FEAT_ACCEPT => true
  | _ => false

/-- The key of a register for master m: its address, within the bank of the master's path. -/
def keyOf (m a : Nat) (l : Loc) : Nat := if banked l.name then a + pathOf m * 2 ^ 32 else a

/-! ## Features (R425, R427) -/

/-- The feature that presents an address. -/
def featureOf (addr : Nat) : Nat :=
  let a := addr - addr % 4
  if 0x90000 ≤ a ∧ a < 0xA0000 then 1
  else if 0xC0000 ≤ a ∧ a < 0xC1000 then 2
  else if 0xD0000 ≤ a ∧ a < 0xE0000 then 3
  else if 0xE0000 ≤ a ∧ a < 0xF0000 then 4
  else if 0xF0200 ≤ a ∧ a < 0xF0250 then 5
  else
    match place a with
    | .leaf => 1
    | .flash _ => 8
    | .ring _ _ _ => 7
    | .buffer => 7
    | .hole => 0
    | .reg l =>
      match l.name with
      | .BLK_SNAP_CFG | .BLK_SNAP_CTRL | .BLK_SNAP_STATUS | .BLK_SNAP_LABEL | .BLK_SNAP_LAST => 6
      | .BLK_DIAG_LABEL => 7
      | .DL_HRST_ARM => 9
      | .CAL_CTRL | .CAL_SCHED | .CAL_REQ => 32
      | .KPR_UPD_CTRL | .KPR_UPD_STATUS | .KPR_UPD_LEN | .KPR_UPD_DATA | .KPR_UPD_VERSION | .KPR_UPD_COUNT => 33
      | _ => 0

/-- A keeper is the master: its accesses are not gated by sessions (R414). -/
def isKeeper (m : Nat) : Bool := 2 ≤ m

/-- The address is implemented for this access, and its feature accepted (R427, R444). -/
def Hub.presented (h : Hub) (m addr : Nat) (write : Bool) : Bool :=
  let there := match place addr with
    | .reg _ => true
    | .leaf => h.leafHas addr
    | .flash o => !write && !h.on FLASH_STATUS_ABSENT && decide (o < h.rd FLASH_DENSITY.addr * 1024)
    | .ring _ _ _ => !write
    | .buffer => !write
    | .hole => false
  there && (isKeeper m || bit (h.accepted (pathOf m)) (featureOf addr))

/-! ## Wards (R423, R424) -/

/-- OBSERVE, RUN, SHAPE, TRIM, FIRMWARE and KEYS as a mask. -/
def wObserve : Nat := 1
def wRun : Nat := 2
def wShape : Nat := 4
def wTrim : Nat := 8
def wFirmware : Nat := 16
def wKeys : Nat := 32

/-- The wards a write of a region, block or cell register needs (R423). -/
def spaceWard (n : RegName) (addr : Nat) : Nat :=
  match n with
  | .CELL_FORM | .CELL_ZS => wShape
  | .CELL_TRG => wRun
  | .BLK_SNAP_CFG | .BLK_SNAP_CTRL | .BLK_SNAP_STATUS | .BLK_SNAP_LABEL | .BLK_SNAP_LAST | .BLK_DIAG_LABEL => wRun
  | _ => if addr % 0x100000 < 0x10000 then wRun else wTrim

/-- The wards a write of an address needs (R423). -/
def writeWards (addr : Nat) : Nat :=
  let a := addr - addr % 4
  match place a with
  | .leaf => wTrim
  | .flash _ => wRun
  | .ring _ _ _ => wRun
  | .buffer => wRun
  | .hole => 0
  | .reg l =>
    if 0x01000000 ≤ a then spaceWard l.name a
    else
      match a / 0x10000 with
      | 0 => if 0x310 ≤ a then wKeys else 0
      | 3 => wFirmware
      | 4 => wShape
      | 11 => wShape
      | 12 => wShape
      | 15 => wTrim
      | 9 => match l.name with
        | .LEAF_BCAST_CFG | .LEAF_BCAST_SEL | .LEAF_BCAST_VALUE => wRun + wTrim
        | _ => wRun
      | _ => wRun

/-- An address that a path reaches without a session (R424). -/
def openRange (addr : Nat) : Bool :=
  let a := addr - addr % 4
  a < 0x108 || (0x200 ≤ a && a < 0x310 && a != 0x208)

/-- An address that needs an open session but no ward (R424). -/
def sessionOnly (addr : Nat) : Bool :=
  let a := addr - addr % 4
  a == 0x108 || a == 0x10C || a == 0x208

/-- The path's session grants access to an address (R423, R424, R427). -/
def Hub.granted (h : Hub) (m addr : Nat) (write : Bool) : Bool :=
  if isKeeper m then h.owner == some (m - 2)
  else
    let p := pathOf m
    if openRange addr then true
    else if !h.sesOpen p then false
    else if sessionOnly addr ∨ !h.presented m addr write then true
    else
      let need := if write then writeWards addr else wObserve
      clearMask need (h.get (bank p SES_STATUS_WARDS)) == 0

/-! ## Reads (R6, R444, R447) -/

/-- The low or high half of a 64-bit value. -/
def half (v : Nat) (high : Bool) : Nat := if high then v / 2 ^ 32 % 2 ^ 32 else v % 2 ^ 32

/-- CELL_LAST (R97). -/
def Hub.cellLast (h : Hub) (id : Nat) : Nat :=
  match cellWord (h.cell id) with
  | none => 0
  | some w => sampleWord w.g w.q w.code * 2 ^ 32 + w.a4

/-- A region has overflow lanes in the lane map (R223). -/
def Hub.hasOverflow (h : Hub) (r : Nat) : Bool := (List.range 12).any fun l => bit (h.overflowOf l) (1 + r)

/-- RGN_STATUS with the fields that follow from the state: BUF_FULL, SHARING, OUT_EFF (R225, R229). -/
def Hub.rgnStatus (h : Hub) (r : Nat) : Nat :=
  let sharing := h.on (RGN_STATUS_LAG r) && h.on (RGN_CTRL_SHARE r) && h.hasOverflow r
  let out := match h.oldestWait r with
    | some (_, s) => bit s.out r
    | none => h.on (RGN_CTRL_OUT r)
  setBits (setBits (setBits (h.rd (RGN_STATUS r).addr) 4 4 (b2n (h.bufFull r))) 3 3 (b2n sharing)) 1 1 (b2n out)

/-- What the register at `key` reads: WO fields read 0, and fields that follow from the state are computed. -/
def Hub.readReg (h : Hub) (l : Loc) (key : Nat) : Nat :=
  match l.name with
  | .TIME_NOW => half h.now l.high
  | .CLK_AB_OFFSET =>
    -- while either downlink is not locked there is no offset (R58)
    if h.get (DL_STATUS_STATE 0) = 7 ∧ h.get (DL_STATUS_STATE 1) = 7 then h.rd key else 0x80000000
  | .CELL_STATUS =>
    let id := cellId l.i l.k
    setBits (setBits (h.rd key) 3 3 (b2n (h.cellSettling l.i l.k))) 0 0 (b2n (h.cellLive id))
  | .CELL_LAST => half (h.cellLast (cellId l.i l.k)) l.high
  | .RGN_STATUS => h.rgnStatus l.i
  | .RGN_FRAG_MAX => h.fragMax l.i
  | .FEAT_OFFER => half h.featOffer l.high
  | .CFG_READ_DATA => h.cfgReadData l.i
  | .KPR_UPD_CTRL => h.updSteps
  | n => clearMask (h.rd key) (regDesc n).wo

/-- The address of the flag word that a read of a 64-bit value latches with its high half (R242, R254). -/
def flagWord (l : Loc) : Option Nat :=
  match l.name with
  | .TDC_LAST => some (TDC_LAST_FLAGS l.i l.k).addr
  | .TDC_TIN_FIFO => some (TDC_TIN_FLAGS l.i).addr
  | _ => none

/-- A read of +0 loads the master's shadow with the +4 half and the flag word of the same instant (R447). -/
def Hub.loadShadow (h : Hub) (m a : Nat) (l : Loc) (high : Nat) : Hub :=
  h.setMaster m { h.master m with
    shadow := some (a + 4, high), flags := (flagWord l).map fun f => (f, h.rd f) }

/-- A read of the +0 half: its value, with the queue pop of TDC_TIN_FIFO (R242). -/
def Hub.readLow (h : Hub) (m a : Nat) (l : Loc) : Hub × Nat × Bool :=
  if l.name = .TDC_TIN_FIFO then
    let (h, tw, flags) := h.tinPop l.i
    let h := h.wr (TDC_TIN_FLAGS l.i).addr flags
    (h.loadShadow m a l (half tw true), half tw false, false)
  else
    let key := keyOf m a l
    let hi := h.readReg { l with high := true } (key + 4)
    (h.loadShadow m a l hi, h.readReg l key, false)

/-- A read of the +4 half: the shadow, or the live value with STALE (R447). -/
def Hub.readHigh (h : Hub) (m a : Nat) (l : Loc) : Hub × Nat × Bool :=
  match (h.master m).shadow with
  | some (s, v) => if s = a then (h, v, false) else (h, h.readReg l (keyOf m a l), true)
  | none => (h, h.readReg l (keyOf m a l), true)

/-- A read of a flag word: the shadow, or the live value with STALE; a read of TDC_LAST_FLAGS uses its shadow up
(R242, R254). -/
def Hub.readFlags (h : Hub) (m a : Nat) (l : Loc) : Hub × Nat × Bool :=
  match (h.master m).flags with
  | some (s, v) =>
    if s = a then
      (if l.name = .TDC_LAST_FLAGS then h.setMaster m { h.master m with flags := none } else h, v, false)
    else (h, h.rd a, true)
  | none => (h, h.rd a, true)

/-- A read of a register by a master: the value and STALE (R345, R447). -/
def Hub.readLoc (h : Hub) (m a : Nat) (l : Loc) : Hub × Nat × Bool :=
  if l.name = .TDC_LAST_FLAGS ∨ l.name = .TDC_TIN_FLAGS then h.readFlags m a l
  else if (regDesc l.name).wide then if l.high then h.readHigh m a l else h.readLow m a l
  else (h, h.readReg l (keyOf m a l), false)

end Sys2Proof.Machine
end

