-- ==== Sys2Proof/Machine/KeeperOps.lean ====
section
/-! DEFINITION. Keepers, the hasp and fail-over (17): states, claims and takeovers, heartbeat and keepalive, journal
and checkpoints, self-tests, reset and rejoin, the planned swap and the image update. -/

namespace Sys2Proof.Machine

/-! ## Keeper states -/

def kOff : Nat := 0
def kBooting : Nat := 1
def kSyncing : Nat := 2
def kStandby : Nat := 3
def kActive : Nat := 4
def kUnfit : Nat := 5
def kFenced : Nat := 6
def kHalted : Nat := 7

def Hub.keeper (h : Hub) (k : Nat) : Keeper := SMap.get (fun _ => ({} : Keeper)) h.kpr.keepers k
def Hub.setKeeper (h : Hub) (k : Nat) (x : Keeper) : Hub :=
  { h with kpr := { h.kpr with keepers := SMap.set (fun _ => ({} : Keeper)) h.kpr.keepers k x } }

def kState (k : Nat) : RF := if k = 0 then KPR_STATUS_STATE_A else KPR_STATUS_STATE_B
def kFencedBit (k : Nat) : RF := if k = 0 then HASP_STATUS_FENCED_A else HASP_STATUS_FENCED_B
def Hub.kSt (h : Hub) (k : Nat) : Nat := h.get (kState k)
def Hub.kFit (h : Hub) (k : Nat) : Bool := h.on (KPR_HEALTH_FIT k)

/-- WHERE of a keeper (R16). -/
def whereKeeper (k : Nat) : Nat := whereUnit 10 k

/-- The standby that may take over: STANDBY with FIT = 1 (R475). -/
def Hub.fitStandby (h : Hub) (k : Nat) : Bool := h.kSt k == kStandby && h.kFit k

/-- The keeper that is not active, when one is (R475). -/
def Hub.otherKeeper (h : Hub) : Option Nat := h.owner.map fun k => 1 - k

/-- NO_STANDBY reads 1 while no keeper beside the active one is STANDBY and FIT (R475). -/
def Hub.refreshStandby (h : Hub) : Hub :=
  let fit := match h.otherKeeper with
    | some k => h.fitStandby k
    | none => h.fitStandby 0 || h.fitStandby 1
  h.put KPR_STATUS_NO_STANDBY (b2n (!fit))

/-- The active keeper runs: it owns the hasp and reads ACTIVE. -/
def Hub.keeperRuns (h : Hub) : Bool :=
  match h.owner with
  | some k => h.kSt k == kActive
  | none => false

/-- Keeper k takes a state; FIT reads 1 in STANDBY only (R475). -/
def Hub.keeperTo (h : Hub) (k st : Nat) : Hub :=
  ((h.put (kState k) st).put (KPR_HEALTH_FIT k) (b2n (st == kStandby))).refreshStandby

/-! ## The image update, as other events end it (R478, R479) -/

/-- The update fails. -/
def Hub.updFail (h : Hub) (why : Nat) : Hub :=
  { (h.put KPR_UPD_STATUS_STATE 9).put KPR_UPD_STATUS_WHY why with kpr := { h.kpr with erasing := false } }

/-- Keeper k is reset: it clears its SRAM and counters and boots the image in `area` (R476). -/
def Hub.keeperClear (h : Hub) (k area : Nat) : Hub :=
  let h := ((h.wr (KPR_HEALTH k).addr 0).wr (KPR_MARCH_PASSES k).addr 0).wr (KPR_SRAM_CORR k).addr 0
  let h := ((h.wr (KPR_UPTIME k).addr 0).wr (fwReg k).addr 0).put (kFencedBit k) 0
  let h := (h.setKeeper k { area := area }).put (kState k) kBooting
  { h with kpr := { h.kpr with beatAbsent := setBits h.kpr.beatAbsent k k 0 } }.refreshStandby

/-- A failure of the standby while it proves a new image (R478, R479): it goes back to the image the header names. -/
def Hub.provingFails (h : Hub) (k : Nat) : Hub :=
  if h.get KPR_UPD_STATUS_STATE = 5 ∧ h.owner = some (1 - k) then (h.updFail 6).keeperClear k h.kpr.header
  else if h.get KPR_UPD_STATUS_STATE = 7 ∧ !h.kpr.swap ∧ h.owner = some (1 - k) then h.updFail 6
  else h

/-- A takeover interrupts the update (R479). -/
def Hub.updTakeover (h : Hub) : Hub :=
  let s := h.get KPR_UPD_STATUS_STATE
  if s = 1 ∨ s = 2 ∨ s = 3 ∨ s = 5 then h.updFail 8 else h

/-! ## Faults (R466, R474) -/

/-- A keeper fails: an active one halts itself, a standby becomes UNFIT (R466, R474). `why` is LAST_FAULT. -/
def Hub.keeperFault (h : Hub) (k why : Nat) : Hub :=
  let st := h.kSt k
  if st = kActive then (h.put (KPR_HEALTH_LAST_FAULT k) why).keeperTo k kHalted
  else if st = kStandby ∨ st = kSyncing then
    ((h.put (KPR_HEALTH_LAST_FAULT k) why).keeperTo k kUnfit).provingFails k
  else h

/-- Keeper k runs an image: it tests itself (R474). -/
def Hub.keeperUp (h : Hub) (k : Nat) : Bool :=
  h.kSt k == kSyncing || h.kSt k == kStandby || h.kSt k == kActive || h.kSt k == kUnfit

/-- KEEPER_HALT: an uncorrectable SRAM error, or a failed self-check (R466). -/
def Hub.keeperHalt (h : Hub) (k : Nat) (instr : Bool) : Hub :=
  if !h.keeperUp k then h
  else if instr then (h.incSat (KPR_HEALTH_INSTR_FAIL k)).keeperFault k 5 else h.keeperFault k 2

/-- The active keeper starts checkpoint g (R467, R468). -/
def Hub.checkpointStart (h : Hub) : Hub :=
  if h.keeperRuns then
    let g := (h.kpr.gen + 1) % 2 ^ 32
    { h with kpr := { h.kpr with gen := g, ckpt := some g, since := 0 } }
  else h

/-- Keeper k enters SYNCING and asks for a fresh checkpoint, at which journaling resumes if it had stopped (R470,
R476). -/
def Hub.keeperSync (h : Hub) (k : Nat) : Hub :=
  let h := h.setKeeper k { h.keeper k with synced := false }
  let h := h.keeperTo k kSyncing
  { h with kpr := { h.kpr with stopped := false } }.checkpointStart

/-- The instruction self-check of keeper k, which has corrected `corrected` SRAM errors since its last report (R474,
R476; log entry 74). -/
def Hub.instrCheck (h : Hub) (k : Nat) (pass : Bool) (corrected : Nat) : Hub :=
  let h := if h.keeperUp k then h.add (KPR_SRAM_CORR k) corrected else h
  if !pass then h.keeperHalt k true
  else if h.kSt k = kSyncing ∧ (h.keeper k).synced then h.keeperTo k kStandby
  else h

/-- The standby marches one block and publishes its health; `corrected` SRAM errors were corrected (R474). -/
def Hub.marchStep (h : Hub) (k : Nat) (bad : Bool) (corrected : Nat) : Hub :=
  if h.kSt k ≠ kStandby ∧ h.kSt k ≠ kUnfit then h
  else
    let h := h.add (KPR_SRAM_CORR k) corrected
    let x := h.keeper k
    let h := h.setKeeper k { x with block := (x.block + 1) % 512 }
    let h := if x.block = 511 then h.inc (KPR_MARCH_PASSES k) else h
    if bad then (h.incSat (KPR_HEALTH_MARCH_ERR k)).keeperFault k 3 else h

/-! ## The hasp (R460 to R465) -/

/-- Keeper k becomes the owner and the active keeper. -/
def Hub.takeHasp (h : Hub) (k : Nat) : Hub :=
  let h := (h.put HASP_STATUS_OWNER (k + 1)).put KPR_STATUS_KEEPERLESS 0
  ({ h with kpr := { h.kpr with quiet := false } }).keeperTo k kActive

/-- The old owner loses the hasp to a granted claim: it is fenced (R462, R481). -/
def Hub.fence (h : Hub) (k : Nat) : Hub :=
  let h := if h.kSt k = kHalted then h else h.put (KPR_HEALTH_LAST_FAULT k) 1
  (h.set1 (kFencedBit k)).keeperTo k kFenced

/-- The owner toggles the keepalive (R461). -/
def Hub.toggling (h : Hub) : Bool := h.keeperRuns && !h.kpr.quiet

/-- A planned swap is under way no longer (R6, R477). -/
def Hub.swapOver (h : Hub) : Hub := { h with kpr := { h.kpr with swap := false } }.put KPR_CTRL_SWAP 0

/-- A takeover while an update waited for its swap: the hub goes on from the swap, and the fenced keeper o is reset onto
the new area (R478, R479; DEDUCED, log entry 74). -/
def Hub.takeoverSwap (h : Hub) (o : Nat) : Hub :=
  if h.kpr.swap then
    let h := h.swapOver
    if h.get KPR_UPD_STATUS_STATE = 7 then h.keeperClear o h.kpr.header else h
  else h

/-- A claim is granted (R462). -/
def Hub.grantClaim (h : Hub) (k : Nat) : Hub :=
  match h.owner with
  | none => h.takeHasp k
  | some o =>
    let h := (h.fence o).takeHasp k
    let h := (h.inc HASP_TAKEOVER_COUNT).w64 HASP_LAST_TAKEOVER (timeWord h.label)
    let h := (h.updTakeover.cfgTakeover).raise 0x12 (whereKeeper k) (h.rd HASP_STATUS.addr)
    { h with kpr := { h.kpr with restoring := true, ckpt := none } }.takeoverSwap o

/-- Keeper k may claim: it boots, or it is the fit standby (R464, R475, R476). -/
def Hub.mayClaim (h : Hub) (k : Nat) : Bool := h.kSt k == kBooting || h.fitStandby k

/-- Keeper k claims the hasp (R462, R464). -/
def Hub.haspClaim (h : Hub) (k : Nat) : Hub :=
  if h.mayClaim k then
    if h.owner = none ∨ (8 ≤ h.get HASP_STATUS_ABSENT_US ∧ !h.toggling) then
      let h := h.grantClaim k
      { h with kpr := { h.kpr with claimPtr := 1 - k } }
    else h.set1 HASP_STATUS_CLAIM_REFUSED
  else h

/-- The claims of one CONTROL cycle: of two, the pointer names the one decided first (R13, R462; DEDUCED, log entry 74). -/
def Hub.haspClaims (h : Hub) (a b : Bool) : Hub :=
  let one (h : Hub) (k : Nat) : Hub := if (if k = 0 then a else b) then h.haspClaim k else h
  let p := h.kpr.claimPtr % 2
  one (one h p) (1 - p)

/-- The keepalive has been absent for 8 µs; `beat`: the owner's heartbeat has come since the last toggle, so its
path is at fault and nothing changes hands (R462, R465). -/
def Hub.keepaliveAbsent (h : Hub) (beat : Bool) : Hub :=
  match h.owner with
  | none => h
  | some k =>
    let h := { h with kpr := { h.kpr with quiet := true } }
    let h := (h.put HASP_STATUS_ABSENT_US (max 8 (h.get HASP_STATUS_ABSENT_US))).put HASP_STATUS_KEEPALIVE 0
    if beat then
      let h := h.put KPR_STATUS_HASP_PATH 1
      h.raise 0x13 (whereKeeper (1 - k)) (h.rd KPR_STATUS.addr)
    else h

/-- 30 µs have passed without a heartbeat of keeper k. While the keepalive toggles it is a path fault (R463, R465). -/
def Hub.heartbeatAbsent (h : Hub) (k : Nat) : Hub :=
  let h := { h with kpr := { h.kpr with beatAbsent := setBits h.kpr.beatAbsent k k 1 } }
  if h.toggling then
    let h := h.put KPR_STATUS_HEARTBEAT_PATH 1
    h.raise 0x13 (whereKeeper (1 - k)) (h.rd KPR_STATUS.addr)
  else h

/-- A path works again for 1 ms (R465). -/
def Hub.pathClear (h : Hub) (hasp : Bool) : Hub :=
  if hasp then
    { h.put KPR_STATUS_HASP_PATH 0 with kpr := { h.kpr with quiet := false } }
  else { h.put KPR_STATUS_HEARTBEAT_PATH 0 with kpr := { h.kpr with beatAbsent := 0 } }

/-- The keepalive as each microsecond leaves it, with hasp_mon, which changes at each toggle and is low while the hasp
has no owner (R461). -/
def Hub.keepaliveTick (h : Hub) : Hub :=
  let h := { h with kpr := { h.kpr with haspMon := h.owner.isSome && (h.kpr.haspMon != h.toggling) } }
  if h.toggling then (h.put HASP_STATUS_ABSENT_US 0).put HASP_STATUS_KEEPALIVE 1
  else
    let n := satInc 255 (h.get HASP_STATUS_ABSENT_US)
    (h.put HASP_STATUS_ABSENT_US n).put HASP_STATUS_KEEPALIVE (b2n (n < 2 && h.owner.isSome))

/-- The new active keeper has restored its checkpoint and replayed the journal; it takes up the pending commands,
those with a receipt under REPLAYED (R464, R473). -/
def Hub.takeoverDone (h : Hub) : Hub :=
  if h.kpr.restoring then
    { h with kpr := { h.kpr with
      restoring := false
      cmds := h.kpr.cmds.map fun c => { c with replay := c.receipt, receipt := true }
      ckpt := none } }
  else h

/-! ## Journal and checkpoints (R467 to R470) -/

/-- The standby receives a journal entry; `gap`: the one before it is missing (R467, R470). -/
def Hub.journalTaken (h : Hub) (gap : Bool) : Hub :=
  let missed := gap || h.kpr.missed
  let h := { h with kpr := { h.kpr with missed := false } }
  match h.otherKeeper with
  | some k => if missed ∧ h.kSt k = kStandby then h.keeperSync k else h
  | none => h

/-- The words of a journal entry: its sequence number, the generation of the last checkpoint started, and what it
records, whose form the spec leaves open (R467, log entry 61). -/
def Hub.entryWords (h : Hub) : List Nat :=
  let n := h.kpr.entry
  [n, h.kpr.gen] ++ (List.range 2).map fun i => (Config.journalWord n i).toNat

/-- The active keeper journals a change: the entry crosses the mirror queue to the standby (R18, R470). At LEVEL 384 the
change is held until the checkpoint commits (R467). While journaling is stopped nothing is pushed, but the standby may
find the gap (R470). -/
def Hub.journalEntry (h : Hub) (gap : Bool) : Hub :=
  if h.kpr.stopped then if gap ∨ h.kpr.missed then h.journalTaken true else h
  else if !h.keeperRuns ∨ 384 ≤ h.get KPR_JOURNAL_LEVEL then h
  else
    let n := h.get KPR_JOURNAL_LEVEL + 1
    let h := h.put KPR_JOURNAL_LEVEL n
    let h := { h with kpr := { h.kpr with since := min 384 (h.kpr.since + 1), entry := (h.kpr.entry + 1) % 2 ^ 32 } }
    let h := if n = 384 ∧ h.kpr.ckpt = none then (h.incSat KPR_JOURNAL_EARLY).checkpointStart else h
    let (h, now) := h.qCross 4 h.entryWords (.journal gap)
    if now then h.journalTaken gap else h

/-- The mirror checksum of the standby (R474). -/
def Hub.mirrorCheck (h : Hub) (k : Nat) (same : Bool) : Hub :=
  if same ∨ h.kSt k ≠ kStandby then h
  else
    let h := h.incSat (KPR_HEALTH_MIRROR_MISMATCH k)
    let x := h.keeper k
    let again := match x.mismatch with
      | some t => decide (h.clk.usec < t + 1000000)
      | none => false
    let h := h.setKeeper k { x with mismatch := some h.clk.usec }
    if again then h.keeperFault k 4 else h

/-- The planned swap hands the hasp over (R477): the former active keeper synchronises again, or, in an update, is
reset onto the new image (R478). -/
def Hub.swapNow (h : Hub) (k o : Nat) : Hub :=
  let h := h.swapOver.put (kState o) kSyncing
  let h := (h.put HASP_STATUS_OWNER 0).takeHasp k
  if h.get KPR_UPD_STATUS_STATE = 7 then h.keeperClear o h.kpr.header else h.keeperSync o

/-- The commit word of checkpoint g arrives at a standby that runs (R468, R474, R477). -/
def Hub.checkpointCommit (h : Hub) (crcOk same : Bool) : Hub :=
  match h.kpr.ckpt, h.owner with
  | some g, some o =>
    let k := 1 - o
    let h := { h with kpr := { h.kpr with ckpt := none } }
    if !crcOk ∨ !h.keeperUp k then h
    else
      let h := (h.wr KPR_CKPT_GEN.addr g).put KPR_JOURNAL_LEVEL h.kpr.since
      let h := if h.kSt k = kSyncing then h.setKeeper k { h.keeper k with synced := true } else h.mirrorCheck k same
      if h.kpr.swap ∧ h.fitStandby k then h.swapNow k o else h
  | _, _ => h

/-- 100 µs of refused mirror pushes (R470). -/
def Hub.standbyLost (h : Hub) : Hub :=
  match h.owner with
  | none => h
  | some k =>
    let h := { (h.flushQueue 4).set1 KPR_STATUS_STANDBY_LOST with kpr := { h.kpr with stopped := true, ckpt := none } }
    h.raise 0x14 (whereKeeper k) (h.rd KPR_JOURNAL.addr)

/-! ## Reset, rejoin and swap (R476, R477) -/

/-- KPR_CTRL.RESET_A or RESET_B (R476). The keeper boots the area that the boot header names (R479), a standby that has
proven a new image that one (DEDUCED, log entry 74). -/
def Hub.keeperReset (h : Hub) (k : Nat) : Hub :=
  if h.owner = some k then h.set1 KPR_STATUS_REFUSED
  else
    let h := h.provingFails k
    h.keeperClear k (if h.get KPR_UPD_STATUS_STATE = 6 then (h.keeper k).area else h.kpr.header)

/-- A keeper has verified its image and boots it; `image` is ID_FW of a good image (R428, R476, R500). -/
def Hub.keeperBooted (h : Hub) (k : Nat) (image : Option Nat) : Hub :=
  if h.kSt k ≠ kBooting ∧ h.kSt k ≠ kOff then h
  else
    match image with
    | none => ((h.put (KPR_HEALTH_LAST_FAULT k) 6).keeperTo k kOff).provingFails k
    | some w =>
      let used := [1, 2, 3].foldl (fun a p => if h.sesOpen p then a ||| h.accepted p / 2 ^ 32 else a) 0
      if clearMask used (w % 4) ≠ 0 then h.keeperTo k kOff
      else
        let h := h.wr (fwReg k).addr w
        if h.owner = none then h.grantClaim k else h.keeperSync k

/-- A keeper has not reached STANDBY 500 ms after its reset (R476). -/
def Hub.rejoinTimeout (h : Hub) (k : Nat) : Hub :=
  if h.kSt k = kBooting ∨ h.kSt k = kSyncing then
    (((h.put (KPR_HEALTH_LAST_FAULT k) 7).set1 (kFencedBit k)).keeperTo k kFenced).provingFails k
  else h

/-- KPR_CTRL.SWAP (R477); a further one while it runs is ignored (R6). -/
def Hub.keeperSwap (h : Hub) : Hub :=
  match h.owner with
  | none => h.set1 KPR_STATUS_REFUSED
  | some o =>
    if h.kpr.swap then h
    else if h.fitStandby (1 - o) then
      { h.put KPR_CTRL_SWAP 1 with kpr := { h.kpr with swap := true } }.checkpointStart
    else h.set1 KPR_STATUS_REFUSED

/-! ## The image update (R478, R479) -/

def Hub.updState (h : Hub) : Nat := h.get KPR_UPD_STATUS_STATE
def Hub.stepRefused (h : Hub) : Hub := h.set1 KPR_UPD_STATUS_STEP_REFUSED

/-- The BEGIN step. -/
def Hub.updBegin (h : Hub) : Hub :=
  if h.updState = 0 ∨ h.updState = 8 ∨ h.updState = 9 then
    let h := (((h.put KPR_UPD_STATUS_STATE 1).put KPR_UPD_STATUS_WHY 0).wr KPR_UPD_COUNT.addr 0)
    { h with kpr := { h.kpr with erasing := true } }
  else h.stepRefused

/-- The erase has ended. -/
def Hub.updEraseDone (h : Hub) (ok : Bool) : Hub :=
  if h.kpr.erasing then
    let h := { h with kpr := { h.kpr with erasing := false } }
    if !ok then h.updFail 2 else if h.updState = 1 then h.put KPR_UPD_STATUS_STATE 2 else h
  else h

/-- A KPR_UPD_DATA word. -/
def Hub.updData (h : Hub) : Hub :=
  if (h.updState = 1 ∨ h.updState = 2) ∧ h.rd KPR_UPD_COUNT.addr + 4 ≤ h.rd KPR_UPD_LEN.addr then
    (h.wr KPR_UPD_COUNT.addr (h.rd KPR_UPD_COUNT.addr + 4)).put KPR_UPD_STATUS_STATE 2
  else h.stepRefused

/-- The END step. -/
def Hub.updEnd (h : Hub) : Hub := if h.updState = 2 then h.put KPR_UPD_STATUS_STATE 3 else h.stepRefused

/-- Verification of the image ends: the length, then the read-back, the signature, the journal format and the
service bits of `version` (R478). -/
def Hub.updVerifyDone (h : Hub) (flashOk sigOk formatOk : Bool) (version : Nat) : Hub :=
  if h.updState ≠ 3 then h
  else
    let used := [1, 2, 3].foldl (fun a p => if h.sesOpen p then a ||| h.accepted p / 2 ^ 32 else a) 0
    if h.rd KPR_UPD_COUNT.addr ≠ h.rd KPR_UPD_LEN.addr then h.updFail 1
    else if !flashOk then h.updFail 2
    else if !sigOk then h.updFail 3
    else if !formatOk then h.updFail 4
    else if clearMask used (version % 4) ≠ 0 then h.updFail 5
    else (h.wr KPR_UPD_VERSION.addr version).put KPR_UPD_STATUS_STATE 4

/-- The PROVE step: the standby is reset onto the new area. -/
def Hub.updProve (h : Hub) : Hub :=
  if h.updState = 4 then
    let h := h.put KPR_UPD_STATUS_STATE 5
    match h.otherKeeper with
    | some k => h.keeperClear k (1 - h.kpr.header)
    | none => h
  else h.stepRefused

/-- The keeper beside the active one has rejoined and completed a full march pass on its image (R478). -/
def Hub.otherProven (h : Hub) : Bool :=
  match h.otherKeeper with
  | some k => h.fitStandby k && h.rd (KPR_MARCH_PASSES k).addr != 0
  | none => false

/-- The standby has proven itself on the new image, or has failed. -/
def Hub.updProveDone (h : Hub) (ok : Bool) : Hub :=
  if h.updState ≠ 5 then h
  else if ok then if h.otherProven then h.put KPR_UPD_STATUS_STATE 6 else h
  else
    match h.otherKeeper with
    | some k => (h.updFail 6).keeperClear k h.kpr.header
    | none => h.updFail 6

/-- Proving has not completed in 5 s, before or after the swap. -/
def Hub.updProveTimeout (h : Hub) : Hub :=
  if h.updState = 5 then
    match h.otherKeeper with
    | some k => (h.updFail 7).keeperClear k h.kpr.header
    | none => h.updFail 7
  else if h.updState = 7 then h.updFail 7
  else h

/-- The COMPLETE step: the boot header names the new area and the roles swap. -/
def Hub.updComplete (h : Hub) : Hub :=
  if h.updState = 6 then
    let h := h.put KPR_UPD_STATUS_STATE 7
    { h with kpr := { h.kpr with header := 1 - h.kpr.header } }.keeperSwap
  else h.stepRefused

/-- The former active keeper has proven itself on the new image, or has failed. -/
def Hub.updFinishDone (h : Hub) (ok : Bool) : Hub :=
  if h.updState ≠ 7 ∨ h.kpr.swap then h
  else if ok then if h.otherProven then h.put KPR_UPD_STATUS_STATE 8 else h
  else h.updFail 6

/-- The ABORT step. -/
def Hub.updAbort (h : Hub) : Hub :=
  let s := h.updState
  if 1 ≤ s ∧ s ≤ 6 then
    let h := h.updFail 9
    match h.otherKeeper with
    | some k => if s = 5 ∨ s = 6 then h.keeperClear k h.kpr.header else h
    | none => h
  else h.stepRefused

/-- KPR_UPD_CTRL: one step, or several together, which do nothing (R482). -/
def Hub.updStep (h : Hub) (v : Nat) : Hub :=
  if v % 32 = 1 then h.updBegin
  else if v % 32 = 2 then h.updEnd
  else if v % 32 = 4 then h.updProve
  else if v % 32 = 8 then h.updComplete
  else if v % 32 = 16 then h.updAbort
  else if v % 32 = 0 then h
  else h.stepRefused

/-- KPR_CTRL: keeper resets, then the swap (R476, R477). -/
def Hub.keeperCtrl (h : Hub) (v : Nat) : Hub :=
  let h := if bit v 0 then h.keeperReset 0 else h
  let h := if bit v 1 then h.keeperReset 1 else h
  if bit v 2 then h.keeperSwap else h

/-! ## Keeper commands (R471 to R473, R545) -/

/-- The active keeper executes a keeper command. -/
def Hub.keeperDo (h : Hub) (op : KeeperOp) : Hub :=
  match op with
  | .sweep => h.calSweep
  | .calReq j c => h.calQueue j c 1 false
  | .ctrl v => h.keeperCtrl v
  | .step v => h.updStep v
  | .data _ => h.updData

/-- A command a keeper executes for a row of its own: nothing while the hub is keeperless (R545). -/
def Hub.keeperServed (h : Hub) (op : KeeperOp) : Hub := if h.on KPR_STATUS_KEEPERLESS then h else h.keeperDo op

/-- A keeper command of master m waits for its commit. -/
def Hub.keeperPend (h : Hub) (m access pos : Nat) (op : KeeperOp) : Hub :=
  { h with kpr := { h.kpr with cmds := h.kpr.cmds ++
    [{ master := m, access := access, pos := pos, op := op, receipt := h.keeperRuns && !h.kpr.restoring }] } }

/-! ## Health units (R17) -/

/-- KEEPER_HEALTH (R17). -/
def Hub.keeperHealth (h : Hub) : Hub :=
  if !h.keeperRuns ∨ h.on KPR_STATUS_KEEPERLESS then h
  else
    let standby := [0, 1].find? fun k => h.kSt k == kStandby
    let own (f : Nat → RF) := match standby with
      | some k => h.rd (f k).addr
      | none => 0
    h.sendHealth 3 ([KPR_STATUS, HASP_STATUS, KPR_JOURNAL, KPR_CKPT_GEN, KPR_HEALTH 0, KPR_HEALTH 1].map
      (fun r => h.rd r.addr) ++ [own KPR_SRAM_CORR, own KPR_MARCH_PASSES])

end Sys2Proof.Machine
end

