-- ==== Sys2Proof/Machine/UplinkOps.lean ====
section
/-! DEFINITION. Uplink frames (R218, R219, R347 to R349): the chip arbiter of a lane, units cut into frames, lane
service, replays and the retransmit buffer; and the round-trip engine (R246 to R248). -/

namespace Sys2Proof.Machine

/-! ## The chip arbiter (R218, R219, R223) -/

/-- Requester k may start a unit on lane l: assigned, or on an overflow lane while it lags and shares (R223). -/
def Hub.mayStart (h : Hub) (l k : Nat) : Bool :=
  bit (h.assignOf l) k ||
    (decide (1 ≤ k) && decide (k ≤ 6) && bit (h.overflowOf l) k && h.on (RGN_STATUS_LAG (k - 1)) &&
      h.on (RGN_CTRL_SHARE (k - 1)))

/-- An older unit of the same source has not been assembled yet (R215, R219). -/
def Hub.olderWaits (h : Hub) (k : Nat) (u : TxUnit) : Bool :=
  if 1 ≤ k ∧ k ≤ 6 then h.olderSlot (u.words.getD 0 0) fun s => s.rgn.getD (k - 1) .none == .wait
  else if k = 8 then
    h.olderSlot (u.words.getD 0 0) (fun s => s.leaf.any (· == .wait)) ||
      (List.range 128).any fun i => match h.slot i with
        | some s => s.evt == u.words.getD 0 0 && (s.leaf.take (u.buf % 16)).any (· == .wait)
        | none => false
  else false

/-- The unit requester k wants to go on with, or to start, on lane l. -/
def Hub.wanted (h : Hub) (l k : Nat) : Option TxUnit :=
  match (h.txOf k).find? (fun u => u.lane == some l && !u.ended) with
  | some u => some u
  | none =>
    match (h.txOf k).find? (fun u => u.lane.isNone) with
    | some u => if h.mayStart l k ∧ !h.olderWaits k u then some u else none
    | none => none

/-- The oldest request wins; between equally old ones the first at or after the pointer (R13, R218). -/
def pickOldest (ptr : Nat) (l : List (Nat × TxUnit)) : Option (Nat × TxUnit) :=
  l.foldl (fun a p =>
    match a with
    | none => some p
    | some q =>
      if p.2.age < q.2.age ∨ (p.2.age = q.2.age ∧ (p.1 + 14 - ptr) % 14 < (q.1 + 14 - ptr) % 14) then some p else a) none

/-! ## Building a frame (R347, R349) -/

/-- The bytes of a unit that have not been sent. -/
def TxUnit.rest (u : TxUnit) : List Nat := (wordsBytes u.words).drop u.sent

/-- Replaces the first unit of a list that satisfies `p`. -/
def updUnit (p : TxUnit → Bool) (f : TxUnit → TxUnit) : List TxUnit → List TxUnit
  | [] => []
  | u :: t => if p u then f u :: t else u :: updUnit p f t

/-- Pads bytes with zeros to a length. -/
def padTo (n : Nat) (l : List Nat) : List Nat := l ++ List.replicate (n - l.length) 0

/-- A frame of 80 symbols from its header fields and payload of 73 bytes (R347). -/
def ulFrame (stream source start end_ seq free : Nat) (payload : List Nat) : List Nat :=
  let body := [stream * 16 + source, start * 128 + end_ * 64 + seq, free] ++ payload
  let c := crc24 body
  0xBC :: body ++ [c / 65536, c / 256 % 256, c % 256]

/-- Takes SEQ of a stream and source on lane l (R349). -/
def Hub.takeSeq (h : Hub) (l stream source : Nat) : Nat × Hub :=
  let u := h.ul l
  let k := 16 * stream + source
  let n := SMap.get (fun _ => 0) u.seqs k
  (n, h.setUl l { u with seqs := SMap.set (fun _ => 0) u.seqs k ((n + 1) % 64) })

/-- The event slot of a unit learns that its unit has started (R224). -/
def Hub.markStarted (h : Hub) (k : Nat) (u : TxUnit) : Hub :=
  match u.slot with
  | none => h
  | some i =>
    match h.slot i with
    | none => h
    | some s =>
      if 1 ≤ k ∧ k ≤ 6 then h.setSlot i (some (s.setRgn (k - 1) .started))
      else if k = 8 then h.setSlot i (some (s.setLeaf (u.buf % 16) .started))
      else h

/-- Records what a frame carried of a unit of requester k. -/
def Hub.progress (h : Hub) (l k : Nat) (open_ : Bool) (n : Nat) (ended : Bool) : Hub :=
  let p (u : TxUnit) : Bool := if open_ then u.lane == some l && !u.ended else u.lane.isNone
  match (h.txOf k).find? p with
  | none => h
  | some u =>
    let h := h.setTx k (updUnit p (fun u => { u with sent := u.sent + n, ended := ended, lane := some l }) (h.txOf k))
    if open_ then h else h.markStarted k u

/-- The unit that may start in the same frame behind the end of one at BOUNDARY `b`: of the same source, ready, and
long enough not to end in this frame (R349). -/
def Hub.packable (h : Hub) (l k b : Nat) (u : TxUnit) : Option TxUnit :=
  match (h.txOf k).find? (fun v => v.lane.isNone) with
  | some v =>
    if v.source = u.source ∧ v.stream = u.stream ∧ b < 72 ∧ 72 - b ≤ (wordsBytes v.words).length ∧
        h.mayStart l k ∧ !h.olderWaits k v then some v
    else none
  | none => none

/-- The frame that carries unit u of requester k, granted on lane l (R349). -/
def Hub.unitFrame (h : Hub) (l k : Nat) (u : TxUnit) : List Nat × Hub :=
  let (seq, h) := h.takeSeq l u.stream u.source
  let free := h.rd EVT_FREE_PUB.addr
  let rest := u.rest
  let n := rest.length
  let begun := u.lane.isSome
  if 72 < n then
    (ulFrame u.stream u.source (b2n !begun) 0 seq free (rest.take 73), h.progress l k begun 73 false)
  else
    let h := h.progress l k begun n true
    match if begun then h.packable l k n u else none with
    | some v =>
      let room := 72 - n
      (ulFrame u.stream u.source 1 1 seq free (rest ++ (wordsBytes v.words).take room ++ [n]),
        h.progress l k false room false)
    | none => (ulFrame u.stream u.source (b2n !begun) 1 seq free (padTo 72 rest ++ [n]), h)

/-- A lane-service frame: a single-frame unit of stream 14 (R348, R349). -/
def Hub.serviceFrame (h : Hub) (l : Nat) (words : List Nat) : List Nat × Hub :=
  let (seq, h) := h.takeSeq l 14 0
  let b := wordsBytes words
  (ulFrame 14 0 1 1 seq (h.rd EVT_FREE_PUB.addr) (padTo 72 b ++ [b.length]), h)

/-- An idle frame (R348). -/
def Hub.idleFrame (h : Hub) : List Nat := ulFrame 15 0 0 0 0 (h.rd EVT_FREE_PUB.addr) (List.replicate 73 0)

/-- The identity record that an uplink in IDENT sends (R315, R349). -/
def Hub.identWords (h : Hub) (l : Nat) : List Nat :=
  [1, h.get DL_GROUPS_HUB_ADDR * 2 ^ 26 + l, h.rd ID_PART.addr, h.rd ID_UNIQUE.addr, h.rd (ID_UNIQUE.addr + 4)]

/-- What a live slot of lane l carries: lane service, the unit granted by the arbiter, or idle (R218). A grant always
moves the pointer past the winner, also where age decided (R13; DESIGN CHOICE, log entry 40). -/
def Hub.liveFrame (h : Hub) (l : Nat) : List Nat × Hub :=
  let u := h.ul l
  match u.service with
  | w :: t => (h.setUl l { u with service := t }).serviceFrame l w
  | [] =>
    let reqs := (List.range 14).filterMap fun k => (h.wanted l k).map fun x => (k, x)
    match pickOldest u.ptr reqs with
    | some (k, x) => (h.setUl l { u with ptr := (k + 1) % 14 }).unitFrame l k x
    | none => (h.idleFrame, h)

/-- What the next slot of lane l carries: a replayed frame in every other slot while a replay runs (R318, R349). -/
def Hub.slotFrame (h : Hub) (l : Nat) : List Nat × Hub :=
  match (h.ul l).replay with
  | some r =>
    if r.live then
      let (f, h) := h.liveFrame l
      (f, h.setUl l { h.ul l with replay := some { r with live := false } })
    else
      match r.frames with
      | f :: t =>
        let r := { r with frames := t, first := (r.first + 1) % 2 ^ 32, live := true }
        (f, (h.setUl l { h.ul l with replay := if t.isEmpty then none else some r }).nextReplay l)
      | [] => (h.idleFrame, h.setUl l { h.ul l with replay := none })
  | none => h.liveFrame l

/-- A frame of 80 symbols as the line carries it: its first is K28.5 (R347). -/
def lineFrame (f : List Nat) : List Nat := k285 :: f.drop 1

/-- A frame leaves on lane l and is counted (R325, R347, R350). -/
def Hub.frameSent (h : Hub) (l : Nat) (f : List Nat) : Hub :=
  let h := (h.inc64 (UL_FRAMES l)).inc (UL_STREAM_FRAMES (bits (f.getD 1 0) 7 4))
  (h.setUl l { h.ul l with last := f }).transmit l (lineFrame f)

/-- A frame slot of looped uplink l: the pattern goes to the line, but for NEAR_PAR, where the line sends idle frames;
in the NEAR modes it reaches the checker (R322). -/
def Hub.uplinkLoop (h : Hub) (l : Nat) : Hub :=
  let (syms, h) := h.patternFrame l 80
  let mode := h.get (lLoop l)
  let h := if mode = 1 then h.frameSent l h.idleFrame else h.transmit l syms
  if mode = 3 then h else h.loopCheck l 1 syms

/-- A frame of a lane in UP is numbered and enters the retransmit buffer of 2,048 frames (R316). -/
def Hub.numberFrame (h : Hub) (l : Nat) (f : List Nat) : Hub :=
  let u := h.ul l
  let h := h.setUl l { u with next := (u.next + 1) % 2 ^ 32, frames := (f :: u.frames).take 2048 }
  h.put (UL_STATUS_ACK_LATE l) (b2n (decide (1024 < h.unacked l)))

/-- One frame slot of uplink l (R218, R311, R322, R347). Transmit settings change at the frame boundary (R308). -/
def Hub.uplinkFrame (h : Hub) (l : Nat) : Hub :=
  let h := h.setLane l { h.lane l with drive := h.rd (lCfg l).addr }
  match h.ls l with
  | 7 =>
    let (f, h) := h.slotFrame l
    (h.frameSent l f).numberFrame l f
  | 6 =>
    let (f, h) := h.serviceFrame l (h.identWords l)
    h.frameSent l f
  | 8 => h.uplinkLoop l
  | _ => h

/-! ## The round-trip engine (R246 to R248) -/

/-- The mean of the last 2^AVG_LOG2 measurements, to the nearest ps (R247). -/
def Hub.rttMean (h : Hub) (l : List Nat) : Nat :=
  let k := l.take (2 ^ h.get IVL_RTT_CFG_AVG_LOG2)
  if k.isEmpty then 0 else (2 * k.foldl (· + ·) 0 + k.length) / (2 * k.length)

/-- The lane that carries an echo request, and whether it is a substitute (R246). -/
def Hub.rttLane (h : Hub) : Option (Nat × Bool) :=
  let l := h.get IVL_RTT_CFG_UL_LANE
  if h.ls l = 7 then some (l, false)
  else ((List.range 12).find? fun k => h.ls k == 7).map fun k => (k, true)

/-- The downlink's turn (R246). -/
def Hub.rttDownlink (h : Hub) : Hub :=
  if !h.on IVL_RTT_CFG_DL_EN ∨ (h.ls 12 ≠ 7 ∧ h.ls 13 ≠ 7) then h
  else
    match h.rttLane with
    | none => (h.put IVL_RTT_STATUS_NO_LANE 1).put IVL_RTT_STATUS_LANE_SUBST 0
    | some (l, sub) =>
      let n := (h.rtt.echo + 1) % 2 ^ 16
      let u := h.ul l
      let h := h.setUl l { u with service := u.service ++ [[3, h.get DL_GROUPS_HUB_ADDR * 2 ^ 26 + n]] }
      let h := { h with rtt := { h.rtt with echo := n, out := some 0 } }
      (h.put IVL_RTT_STATUS_NO_LANE 0).put IVL_RTT_STATUS_LANE_SUBST (b2n sub)

/-- A spoke can be measured: set in IVL_RTT_SPK and UP (R247, R367). -/
def Hub.rttSpoke (h : Hub) (s : Nat) : Bool := bit (h.rd IVL_RTT_SPK.addr) s && h.spkState s == 7

/-- The turn of the next spoke (R247, R248, R363). -/
def Hub.rttSpokeTurn (h : Hub) : Hub :=
  match ((List.range 16).map fun i => (h.rtt.spkNext + i) % 16).find? h.rttSpoke with
  | none => h
  | some s =>
    let h := { h with rtt := { h.rtt with spkNext := (s + 1) % 16, out := some (s + 1) } }
    h.setLeaf s { h.leaf s with echoDue := true }

/-- A measurement is due (R247). -/
def Hub.rttStart (h : Hub) : Hub :=
  if h.rtt.out.isSome then h
  else
    let dl := h.rtt.dlTurn
    let h := { h with rtt := { h.rtt with dlTurn := !dl } }
    if dl then h.rttDownlink else h.rttSpokeTurn

/-- The second edge arrives `ps` after the first (R246 to R248). -/
def Hub.rttReply (h : Hub) (ps : Nat) : Hub :=
  match h.rtt.out with
  | none => h
  | some 0 =>
    let x := (ps + 2 ^ 32 - h.rd IVL_DL_TURN.addr) % 2 ^ 32
    let dl := (x :: h.rtt.dl).take 256
    let h := { h with rtt := { h.rtt with dl := dl, out := none } }
    ((h.wr IVL_DL_LAST.addr x).wr TIME_RTT.addr (h.rttMean dl)).put TIME_STATUS_RTT_VALID 1
  | some (s + 1) =>
    let x := (ps + 2 ^ 32 - h.rd (LEAF_TURN s).addr) % 2 ^ 32
    let l := (x :: SMap.get (fun _ => ([] : List Nat)) h.rtt.spk s).take 256
    let h := { h with rtt := { h.rtt with spk := SMap.set (fun _ => []) h.rtt.spk s l, out := none } }
    let h := h.wr (IVL_SPK_RTT s).addr (h.rttMean l)
    let h := h.setLeaf s { h.leaf s with measured := true, echoFrame := none }
    (h.recomputeOffset s).leafPresentNow s

/-- A measurement whose reply has not come within 1 ms (R247). -/
def Hub.rttTimeout (h : Hub) : Hub :=
  if h.rtt.out.isSome then
    ({ h with rtt := { h.rtt with out := none } }.inc IVL_RTT_TIMEOUTS).set1 IVL_RTT_STATUS_TIMEOUT
  else h

/-- A downlink frame with CODE = ECHO carries an ECHO item with echo number `n` (R348). -/
def Hub.echo (h : Hub) (n ps : Nat) : Hub := if h.rtt.out = some 0 ∧ n = h.rtt.echo then h.rttReply ps else h

/-- A change of AVG_LOG2 restarts every average (R258). -/
def Hub.rttRestartAll (h : Hub) : Hub := { h with rtt := { h.rtt with dl := [], spk := [] } }

end Sys2Proof.Machine
end

