-- ==== Sys2Proof/Machine/WriteOps.lean ====
section
/-! DEFINITION. What a write of a register does at once, register by register (R6), and 64-bit pairs (R43, R448). A
change that waits for a BX boundary is taken up there. -/

namespace Sys2Proof.Machine

/-! ## Registers whose write acts (R6) -/

/-- CLK_CTRL (R34, R59). -/
def Hub.writeClkCtrl (h : Hub) (l : Loc) (key v : Nat) : Hub :=
  let was := h.on CLK_CTRL_HOLD_FORCE
  let h := h.writeFields l key v
  let h := if h.on CLK_CTRL_HOLD_FORCE != was then h.holdForce else h
  if bit v 7 ∧ !h.on CLK_CTRL_RELOCK then h.relock else h

/-- TIME_ALIGN_CTRL (R64). ARM with a COMPUTE that R48 refuses arms TIME_ALIGN_NEXT as it stands (DESIGN CHOICE, log
entry 42). -/
def Hub.writeAlignCtrl (h : Hub) (v : Nat) : Hub :=
  let h := if bit v 0 then h.alignCompute else h
  if bit v 1 ∧ bit v 2 then h
  else if bit v 1 then h.alignArm
  else if bit v 2 then h.alignCancel
  else h

/-- TIME_ALIGN_NEXT: a write while an alignment is armed is ignored (R49, R62). -/
def Hub.writeAlignNext (h : Hub) (l : Loc) (key v : Nat) : Hub :=
  if h.on TIME_STATUS_ALIGN_ARMED then h.set1 TIME_STATUS_ALIGN_LATE else h.writeFields l key v

/-- CELL_TRIM_HG, CELL_TRIM_LG and CELL_GAIN_RATIO, held while the cell is calibrated (R290). -/
def Hub.writeTrim (h : Hub) (l : Loc) (key v : Nat) : Hub :=
  if h.on (CELL_CAL_STATUS_BUSY l.i l.k) then h.set1 CAL_STATUS_TRIM_BUSY else h.writeFields l key v

/-- HNG_MOVE (R112, R118, R129). -/
def Hub.writeMove (h : Hub) (j v : Nat) : Hub :=
  let use := bits v 10 8
  let t := bits v 4 0
  if 3 < use ∨ 16 < t then h.moveIllegal j
  else if t = 16 then
    if use = useShadow then h.spareRestore j
    else if use = useRetire then h.spareRetire j
    else h.moveIllegal j
  else if use = useShadow then h.moveShadow j t
  else h.moveUse j t use

/-- HNG_COMMIT (R110). -/
def Hub.writeCommit (h : Hub) (j v : Nat) : Hub :=
  if bit v 8 then h.commitBack j (bits v 3 0) else h.commitToSpare j (bits v 3 0)

/-- HNG_CFG (R102, R123): with SHADOW_EN = 0 a spare that shadows nothing reads NONE. -/
def Hub.writeHngCfg (h : Hub) (l : Loc) (key v : Nat) : Hub := (h.writeFields l key v).shadowCfg l.i

/-- BLK_SNAP_CTRL (R188, R189). -/
def Hub.writeSnapCtrl (h : Hub) (j v : Nat) : Hub :=
  let h := if bit v 0 then h.snapArm j else h
  let h := if bit v 2 then h.snapFreeze j else h
  if bit v 1 then h.snapRelease j else h

/-- CELL_FLT_EST and CELL_FLT_REC: a SWAP waits for the stage, unless the write carries an illegal field (R148,
R161). -/
def Hub.writeFlt (h : Hub) (l : Loc) (key v : Nat) : Hub :=
  let bad := !(h.refusals l key v).isEmpty
  let h := h.writeFields l key v
  if bit v 31 ∧ !bad ∧ !bit (h.rd key) 31 then h.wr key (setBits (h.rd key) 31 30 (2 + bits v 30 30)) else h

/-- CREC_CFG: a change of ORDER or LOG2D waits for a restart (R146). -/
def Hub.writeCrecCfg (h : Hub) (l : Loc) (key v : Nat) : Hub :=
  let h := h.writeFields l key v
  h.put CREC_STATUS_PENDING
    (b2n (h.get CREC_CFG_ORDER + 3 != h.crec.order || h.get CREC_CFG_LOG2D != h.crec.log2d))

/-- CREC_CTRL.RESTART (R146). -/
def Hub.writeCrecCtrl (h : Hub) (v : Nat) : Hub :=
  if bit v 0 ∧ !h.on CREC_CTRL_RESTART then
    { h.put CREC_CTRL_RESTART 1 with crec := { h.crec with sched := h.crec.sched ++ [(none, reRestart)] } }
  else h

/-- TRG_CTRL: EVT_LOAD and CLR_DT act at the next BX (R183, R191). -/
def Hub.writeTrgCtrl (h : Hub) (v : Nat) : Hub :=
  (h.putIf (bit v 0) TRG_CTRL_EVT_LOAD 1).putIf (bit v 1) TRG_CTRL_CLR_DT 1

/-- IVL_CTRL (R243, R257). -/
def Hub.writeIvlCtrl (h : Hub) (e v : Nat) : Hub :=
  if bit v 0 ∧ bit v 1 then h
  else if bit v 0 then h.ivlArm e
  else if bit v 1 then h.ivlCancel e
  else h

/-- FRQ_CTRL (R249, R259). -/
def Hub.writeFrqCtrl (h : Hub) (v : Nat) : Hub :=
  if bit v 1 then h.frqCancel else if bit v 0 then h.frqStart else h

/-- IVL_RTT_CFG: a change of AVG_LOG2 restarts every average (R258). -/
def Hub.writeRttCfg (h : Hub) (l : Loc) (key v : Nat) : Hub :=
  let was := h.get IVL_RTT_CFG_AVG_LOG2
  let h := h.writeFields l key v
  if h.get IVL_RTT_CFG_AVG_LOG2 = was then h else h.rttRestartAll

/-- MON_CH_CFG (R270, R271). -/
def Hub.writeMonCh (h : Hub) (l : Loc) (key v : Nat) : Hub :=
  let was := h.rd key
  let h := h.writeFields l key v
  if h.rd key = was then h else h.monChWritten l.i was

/-- MON_URGENT (R266, R283). -/
def Hub.writeUrgent (h : Hub) (l : Loc) (key v : Nat) : Hub :=
  let bad := !(h.refusals l key v).isEmpty
  let h := h.writeFields l key v
  if bit v 31 ∧ !bad then h.monUrgentGo else h

/-- MON_WIN_CFG and MON_WIN_THR: a change rearms the comparator (R281). -/
def Hub.writeWin (h : Hub) (l : Loc) (key v : Nat) : Hub :=
  let was := h.rd key
  let h := h.writeFields l key v
  if h.rd key = was then h else h.winWritten l.i

/-- EXC_CFG: each write that changes a field is an excitation change (R267). -/
def Hub.writeExc (h : Hub) (l : Loc) (key v : Nat) : Hub :=
  let was := h.rd key
  let h := h.writeFields l key v
  if h.rd key = was then h else h.excWritten l.i

/-- CTRL of lane l (R321, R324, R326, R328). -/
def Hub.writeLaneCtrl (h : Hub) (l v : Nat) : Hub :=
  let en := bit v 0
  let was := h.on (lEn l)
  if was ∧ !en ∧ l < 12 ∧ h.ulActive l ∧ h.noSpare then h.set1 (lCfgIllegal l)
  else
    let h := if en != was then (if en then h.laneEnable l else h.laneDisable l) else h
    let h := h.laneLoop l (bits v 5 4)
    if bit v 3 then h.laneRetrain l else h

/-- UL_SPARE (R321, R327, R328): during a replay, or naming a lane that is not UP, nothing is written; a LANE above
11 leaves LANE. EN = 0 takes effect before LANE, and EN = 1 after it (DESIGN CHOICE, log entry 66). -/
def Hub.writeSpare (h : Hub) (v : Nat) : Hub :=
  let l := bits v 3 0
  let en := bit v 8
  if h.replayRuns ∨ (l ≤ 11 ∧ h.ls l ≠ 7) then h.set1 UL_COMMON_STATUS_CFG_ILLEGAL
  else
    let h := if !en ∧ h.on UL_SPARE_EN then h.spareEnable false else h
    let h := if 11 < l then h.set1 UL_COMMON_STATUS_CFG_ILLEGAL else h.spareWrite l
    if en ∧ !h.on UL_SPARE_EN then h.spareEnable true else h

/-- LEAF_CTRL (R353, R358, R382). -/
def Hub.writeLeafCtrl (h : Hub) (l : Loc) (key v : Nat) : Hub :=
  let h := h.writeFields l key v
  let h := if bit v 2 then h.leafSyncWrite l.i else h
  if bit v 1 then h.leafReset l.i else h

/-- SES_KEY_CTRL by master m (R416, R417). -/
def Hub.writeKeyCtrl (h : Hub) (m : Nat) (l : Loc) (key v : Nat) : Hub :=
  let h := h.writeFields l key v
  let h := if bit v 0 then h.keyProgram (bits v 5 4) (bits v 13 8) else h
  if bit v 1 then h.keyRevoke (pathOf m) (bits v 5 4) else h

/-- ORG_CTRL (R57, R65): EN in bit 16, SETPOINT in bits 9:0. -/
def Hub.writeOrgCtrl (h : Hub) (v : Nat) : Hub := (h.orgCtrlWrite (bits v 16 16) (bits v 9 0)).skewsCold

/-- A write of one register by master m (R6). Keeper-served actions are not in here (R471). -/
def Hub.writeReg (h : Hub) (m : Nat) (l : Loc) (key v : Nat) : Hub :=
  match l.name with
  | .PWR_CTRL => h.pwrCtrlWrite v
  | .PWR_CELL_RESET => if bit v 0 ∨ 5 < bits v 12 10 ∨ 16 < bits v 5 1 then h.cellResetGo v else h
  | .GZB_CTRL => if bit v 0 then h.gzbEnter else h
  | .CLK_CTRL => h.writeClkCtrl l key v
  | .TIME_ALIGN_CTRL => h.writeAlignCtrl v
  | .TIME_ALIGN_NEXT => h.writeAlignNext l key v
  | .ORG_CTRL => h.writeOrgCtrl v
  | .CELL_TRIM_HG => h.writeTrim l key v
  | .CELL_TRIM_LG => h.writeTrim l key v
  | .CELL_GAIN_RATIO => h.writeTrim l key v
  | .CELL_HEALTH => let h := h.writeFields l key v; if bit v 15 then h.healthClear l.i l.k else h
  | .BLK_CTRL => let h := (h.writeFields l key v).refreshBlk l.i; if bit v 1 then h.blockResetGo l.i else h
  | .BLK_STATUS => (h.writeFields l key v).refreshBlk l.i
  | .HNG_MOVE => h.writeMove l.i v
  | .HNG_COMMIT => h.writeCommit l.i v
  | .HNG_CFG => h.writeHngCfg l key v
  | .BLK_SNAP_CTRL => h.writeSnapCtrl l.i v
  | .RGN_CTRL => let h := (h.writeFields l key v).refreshLags; if bit v 2 then h.regionReset l.i else h
  | .CELL_FLT_EST => h.writeFlt l key v
  | .CELL_FLT_REC => h.writeFlt l key v
  | .CREC_CFG => h.writeCrecCfg l key v
  | .CREC_CTRL => h.writeCrecCtrl v
  | .TRG_CTRL => h.writeTrgCtrl v
  | .TDC_CFG => let h := h.writeFields l key v; if l.k = 0 then h.cdOff l.i else h
  | .IVL_CTRL => h.writeIvlCtrl l.i v
  | .FRQ_CTRL => h.writeFrqCtrl v
  | .IVL_RTT_CFG => h.writeRttCfg l key v
  | .MON_CH_CFG => h.writeMonCh l key v
  | .MON_URGENT => h.writeUrgent l key v
  | .MON_WIN_CFG => h.writeWin l key v
  | .MON_WIN_THR => h.writeWin l key v
  | .EXC_CFG => h.writeExc l key v
  | .MON_CFG => (h.writeFields l key v).monPower
  | .PWR_CFG => (h.writeFields l key v).pwrCfgWritten (h.get PWR_CFG_STBY_LANES)
  | .UL_CTRL => h.writeLaneCtrl l.i v
  | .DL_CTRL => h.writeLaneCtrl (12 + l.i) v
  | .SPK_CTRL => h.writeLaneCtrl (14 + l.i) v
  | .UL_COMMON_CTRL => if bit v 0 ∧ !h.on UL_COMMON_CTRL_RELOCK then h.ulRelock else h
  | .UL_SPARE => h.writeSpare v
  | .DL_HRST_ARM => if bit v 0 then h.hrstArm else h
  | .LEAF_CTRL => h.writeLeafCtrl l key v
  | .LEAF_BCAST_CTRL => let h := h.writeFields l key v; if bit v 0 then h.bcastGo else h
  | .CFG_CTRL => h.cfgCtrlWrite m v
  | .CFG_LOAD_DATA => h.cfgLoadData m v
  | .SES_CTRL => h.sesCtrlWrite (pathOf m) v
  | .SES_IDLE_LIMIT => h.idleLimitWrite (pathOf m) v
  | .SES_TAG => h.wr key v
  | .SES_KEY_DATA => h.wr key v
  | .SES_KEY_CTRL => h.writeKeyCtrl m l key v
  | .Q_CTRL => if bit v 0 then h.flushQueue l.i else h
  | .EVT_LAG_LIMIT => (h.writeFields l key v).refreshLags
  | .TRG_LATENCY => (h.writeFields l key v).refreshLatency
  | _ => h.writeFields l key v

/-- A frame that a register write touches has been rewritten (R400). -/
def Hub.writeTouch (h : Hub) (l : Loc) (key : Nat) : Hub :=
  if h.cfg.bad.isEmpty ∨ (regDesc l.name).rw = 0 then h else h.cfgTouched key

/-! ## 64-bit values (R43, R426, R448) -/

/-- Both halves of a 64-bit value are written in one cycle, subject to the register's own checks. -/
def Hub.writePair (h : Hub) (m : Nat) (l : Loc) (a v : Nat) : Hub :=
  match l.name with
  | .TIME_BX_PRESET => if v % 65536 = 0 then h.w64 TIME_BX_PRESET v else h.set1 TIME_STATUS_WORD_ILLEGAL
  | .TIME_ALIGN_BX => if v % 65536 = 0 then h.w64 TIME_ALIGN_BX v else h.set1 TIME_STATUS_WORD_ILLEGAL
  | .CFG_APPLY_BX => if v % 65536 = 0 then h.w64 CFG_APPLY_BX v else h.set1 CFG_STATUS_WORD_ILLEGAL
  | .FEAT_ACCEPT => h.featAccept (pathOf m) v
  | _ => (h.writeFields { l with high := false } a (v % 2 ^ 32)).writeFields { l with high := true } (a + 4) (v / 2 ^ 32)

/-- A write of a register by a master through its write latch; answers STALE (R448). -/
def Hub.writeLoc (h : Hub) (m a : Nat) (l : Loc) (v : Nat) : Hub × Bool :=
  let latch := (h.master m).latch
  let held (x : Option (Nat × Nat)) (h : Hub) : Hub := h.setMaster m { h.master m with latch := x }
  if !(regDesc l.name).wide then
    let key := keyOf m a l
    ((((held none h).writeReg m l key v).writeTouch l key), false)
  else if !l.high then (held (some (a, v)) h, false)
  else
    match latch with
    | some (b, lo) =>
      if b + 4 = a then ((held none h).writePair m l b (v * 2 ^ 32 + lo), false) else (held none h, true)
    | none => (h, true)

end Sys2Proof.Machine
end

