-- ==== Sys2Proof/Machine/AccessOps.lean ====
section
/-! DEFINITION. Accesses of the masters: the registers of a request in order, with those that a leaf, a flash line or
a keeper answers later (R369 to R371, R434, R444 to R446, R451 to R453, R471 to R473, R541, R545). -/

namespace Sys2Proof.Machine

/-- The result of one register of an access. -/
def Hub.result (h : Hub) (m : Nat) (i : BusItem) (value : Nat) (void : Bool) : Hub :=
  h.resolve (whoOf m) i.access i.pos [(value, void)]

/-- A register of the access carries STALE. -/
def Hub.stale (h : Hub) (m : Nat) (i : BusItem) (b : Bool) : Hub := if b then h.markStale (whoOf m) i.access else h

/-- The value a write or MODIFY stores, from the register's value before it (R342, R541). -/
def BusOp.value (op : BusOp) (old : Nat) : Nat :=
  match op with
  | .read => old
  | .write v => v
  | .modify mask v => clearMask old mask ||| (v &&& mask)

/-- The operation writes. -/
def BusOp.writes : BusOp → Bool
  | .read => false
  | .write _ => true
  | .modify _ _ => true

/-! ## Keeper-served registers (R471, R545) -/

/-- The keeper command a write holds, if its register is keeper-served. -/
def Hub.keeperOpOf (h : Hub) (l : Loc) (v : Nat) : Option KeeperOp :=
  match l.name with
  | .CAL_CTRL => if bit v 0 ∧ !h.on CAL_CTRL_SWEEP then some .sweep else none
  | .CAL_REQ => if 5 < bits v 12 10 ∨ 16 < bits v 4 0 then none
                else some (.calReq (4 * bits v 12 10 + bits v 9 8) (bits v 4 0))
  | .KPR_CTRL => some (.ctrl v)
  | .KPR_UPD_CTRL => some (.step v)
  | .KPR_UPD_DATA => some (.data v)
  | _ => none

/-- The effect a write of a keeper-served register has at once: the hardware fields of CAL_CTRL, and the report of an
illegal CAL_REQ (R304, R471). -/
def Hub.hardPart (h : Hub) (l : Loc) (key v : Nat) : Hub :=
  match l.name with
  | .CAL_CTRL => h.writeFields l key v
  | .CAL_REQ => if 5 < bits v 12 10 ∨ 16 < bits v 4 0 then h.set1 CAL_STATUS_CFG_ILLEGAL else h
  | .KPR_CTRL => h
  | .KPR_UPD_CTRL => h
  | .KPR_UPD_DATA => h
  | _ => h

/-- The register is keeper-served (R471). -/
def served (n : RegName) : Bool :=
  match n with
  | .CAL_CTRL | .CAL_REQ | .KPR_CTRL | .KPR_UPD_CTRL | .KPR_UPD_DATA => true
  | _ => false

/-- A write of a keeper-served register: pending, or ended at once without a keeper (R471, R545). Keeper resets act
without one, since the host leaves the keeperless state by them (R459). -/
def Hub.keeperWrite (h : Hub) (m : Nat) (i : BusItem) (l : Loc) (key v : Nat) : Hub :=
  let h := h.hardPart l key v
  match h.keeperOpOf l v with
  | none => h.result m i 0 false
  | some op =>
    if !h.on KPR_STATUS_KEEPERLESS then h.keeperPend m i.access i.pos op
    else
      match op with
      | .ctrl w => if w % 4 = 0 then h.result m i 0 true else (h.keeperCtrl (w % 4)).result m i 0 false
      | _ => h.result m i 0 true

/-! ## The flash window (R451 to R453) -/

/-- The line an offset lies in. -/
def lineOf (offset : Nat) : Nat := offset - offset % 64

/-- The word at an offset of a line, byte `offset` in bits 7:0 (R451). -/
def lineWord (bytes : List Nat) (offset : Nat) : Nat :=
  let k := offset % 64 - offset % 4
  bytes.getD k 0 + bytes.getD (k + 1) 0 * 2 ^ 8 + bytes.getD (k + 2) 0 * 2 ^ 16 + bytes.getD (k + 3) 0 * 2 ^ 24

/-- A read of the flash window (R451 to R453). -/
def Hub.flashRead (h : Hub) (m : Nat) (i : BusItem) (offset : Nat) : Hub :=
  match h.flash.lines.find? fun p => p.1 == lineOf offset with
  | some p =>
    let lines := p :: h.flash.lines.filter fun q => q.1 != p.1
    let h := { h with flash := { h.flash with lines := lines } }.inc FLASH_HITS
    h.result m i (lineWord p.2 offset) false
  | none =>
    if h.on FLASH_STATUS_ENGINE then (h.set1 FLASH_STATUS_READ_BUSY).result m i 0 true
    else
      let w : FlashRead := { age := h.clk.tick, master := m, access := i.access, pos := i.pos, offset := offset }
      { h with flash := { h.flash with waiting := h.flash.waiting ++ [w] } }

/-- Place of master m in the pointer order of the fetches: keeper A, keeper B, downlink, serial port (R452). -/
def fetchPlace (m : Nat) : Nat := (m + 2) % 4

/-- The waiting read whose line is fetched next (R13, R452). -/
def Hub.nextFetch (h : Hub) : Option FlashRead :=
  h.flash.waiting.foldl (fun a r =>
    match a with
    | none => some r
    | some q =>
      if arbBefore 4 h.flash.ptr (r.age, fetchPlace r.master) (q.age, fetchPlace q.master) then some r else some q) none

/-- The first eight words of a line, most significant byte first: a copy of the boot header (R498). -/
def headerWords (bytes : List Nat) : List Nat := bytesWords (bytes.take 32)

/-- The hub reads both boot headers in step 3 of its boot (R498, R499). -/
def Hub.headerRead (h : Hub) (line : Nat) (bytes : List Nat) : Hub :=
  if h.pwr.state = .boot ∧ (line = 0 ∨ line = 0x1000) then
    { h with pwr := { h.pwr with copies := h.pwr.copies.set (line / 0x1000) (headerWords bytes) } }
  else h

/-- A line fetch has filled the least recently used buffer; the reads that wait for it are answered (R452). -/
def Hub.lineFetched (h : Hub) (line : Nat) (bytes : List Nat) : Hub :=
  let h := h.headerRead line bytes
  let lines := ((line, bytes) :: h.flash.lines.filter fun q => q.1 != line).take 4
  let mine := h.flash.waiting.filter fun r => lineOf r.offset == line
  let rest := h.flash.waiting.filter fun r => lineOf r.offset != line
  let h := { h with flash := { h.flash with lines := lines, waiting := rest } }.inc FLASH_FETCHES
  mine.foldl (fun h r =>
    h.resolve (whoOf r.master) r.access r.pos [(lineWord bytes r.offset, false)]) h

/-- A line fetch ends: one for a keeper's cache, or none named, the one that the arbiter granted (R13, R452). -/
def Hub.fetchDone (h : Hub) (cache : Option Nat) (bytes : List Nat) : Hub :=
  match cache with
  | some line => h.lineFetched line bytes
  | none =>
    match h.nextFetch with
    | none => h
    | some r =>
      let h := { h with flash := { h.flash with ptr := (fetchPlace r.master + 1) % 4 } }
      h.lineFetched (lineOf r.offset) bytes

/-! ### Discovery (R449, R450)

The layout of the parameter tables is that of JESD216B, which the spec names and does not give (PRESUMED, log entry
70). -/

/-- The signature and the header of the Basic Flash Parameter Table check: the table's identification, its major
revision, and at least the 9 double words of the first revision. -/
def sfdpGood (signature head0 head1 : Nat) (table : List Nat) : Bool :=
  let len := bits head0 31 24
  signature == 0x50444653 && bits head0 7 0 == 0 && bits head1 31 24 == 255 && bits head0 23 16 == 1 &&
    decide (9 ≤ len ∧ min 16 len ≤ table.length)

/-- A read mode as FLASH_STATUS.RMODE codes it, its opcode, and its mode and dummy clocks. -/
structure ReadMode where
  rmode : Nat
  opcode : Nat
  clocks : Nat
  deriving DecidableEq, Repr

/-- The 1-1-1 fast read. -/
def fastRead : ReadMode := ⟨1, 0x0B, 8⟩

/-- The table gives a quad-enable method of 1 to 6, as one of revision B or later does (R449 step 6). -/
def quadEnable (head0 : Nat) (table : List Nat) : Bool :=
  let method := bits (table.getD 14 0) 22 20
  decide (6 ≤ bits head0 15 8 ∧ 15 ≤ bits head0 31 24 ∧ 1 ≤ method ∧ method ≤ 6)

/-- The read mode chosen: 1-4-4, else 1-1-4, else the fast read (R449 steps 5 and 6). -/
def chosenMode (head0 : Nat) (table : List Nat) : ReadMode :=
  let d1 := table.getD 0 0
  let d3 := table.getD 2 0
  if !quadEnable head0 table then fastRead
  else if bit d1 21 then ⟨3, bits d3 15 8, bits d3 7 5 + bits d3 4 0⟩
  else if bit d1 22 then ⟨2, bits d3 31 24, bits d3 23 21 + bits d3 20 16⟩
  else fastRead

/-- The density in KiB, from double word 2 (R449 step 7): a number of bits less 1, or its power of two. -/
def densityKib (d2 : Nat) : Nat := if bit d2 31 then 2 ^ (bits d2 5 0 - 13) else (bits d2 30 0 + 1) / 2 ^ 13

/-- Flash discovery ends: the three bytes of 0x9F, the SFDP signature, the two words of the table's header, and the
table's double words as they were read (R449, R450). -/
def Hub.flashDiscovered (h : Hub) (id signature head0 head1 : Nat) (table : List Nat) : Hub :=
  let h := (h.set1 FLASH_STATUS_DISC_DONE).wr FLASH_JEDEC_ID.addr id
  if id = 0 ∨ id = 2 ^ 24 - 1 then h.set1 FLASH_STATUS_ABSENT
  else if !sfdpGood signature head0 head1 table then (h.set1 FLASH_STATUS_SFDP_BAD).wr FLASH_DENSITY.addr 16384
  else
    let m := chosenMode head0 table
    let h := { h with flash := { h.flash with opcode := m.opcode } }
    let h := (h.put FLASH_STATUS_RMODE m.rmode).put FLASH_STATUS_ADDR4 (b2n (bits (table.getD 0 0) 18 17 == 2))
    (h.wr FLASH_DENSITY.addr (densityKib (table.getD 1 0))).wr FLASH_DUMMY.addr m.clocks

/-- A keeper starts a write or erase through the command engine (R453). -/
def Hub.flashEngine (h : Hub) : Hub :=
  if h.keeperRuns ∧ !h.on FLASH_STATUS_ABSENT then h.put FLASH_STATUS_ENGINE 1 else h

/-- The engine has ended: the line buffers are invalidated (R453). -/
def Hub.flashEngineDone (h : Hub) : Hub :=
  if h.on FLASH_STATUS_ENGINE then
    { h with flash := { h.flash with lines := [] } }.put FLASH_STATUS_ENGINE 0
  else h

/-! ## Registers of a request in order (R343, R434, R444, R471) -/

/-- One register in the register tables. -/
def Hub.doReg (h : Hub) (m : Nat) (i : BusItem) (a : Nat) (l : Loc) : Hub :=
  if !i.op.writes then
    let (h, v, st) := h.readLoc m a l
    (h.stale m i st).result m i v false
  else
    let key := keyOf m a l
    let v := i.op.value (h.readReg l key)
    if served l.name then h.keeperWrite m i l key v
    else
      let (h, st) := h.writeLoc m a l v
      (h.stale m i st).result m i 0 false

/-- Master m's held +0 of a 64-bit value is discarded by a write that does not go through the write latch (R448). -/
def Hub.dropLatch (h : Hub) (m : Nat) (writes : Bool) : Hub :=
  if writes then h.setMaster m { h.master m with latch := none } else h

/-- Master m's access to the register at `a` goes through its write latch: the register is one it is presented with, and
no keeper serves it (R427, R448). -/
def Hub.latched (h : Hub) (m a : Nat) (writes : Bool) : Bool :=
  h.presented m a writes && (match place a with | .reg l => !served l.name | _ => false)

/-- One register of an access outside the leaf windows; what is not presented gives VOID (R427, R444). -/
def Hub.doItem (h : Hub) (m : Nat) (i : BusItem) : Hub :=
  let a := i.addr - i.addr % 4
  let h := h.dropLatch m (i.op.writes && !h.latched m a i.op.writes)
  if !h.presented m a i.op.writes then h.result m i 0 true
  else
    match place a with
    | .reg l => h.doReg m i a l
    | .flash o => h.flashRead m i o
    | .ring j c p => h.raiseRead j { age := h.clk.tick, cell := c, diag := some (m, i.access, i.pos, p) }
    | .buffer => h.raiseBufRead ((a - 0x20800000) / 0x40000) ⟨h.clk.tick, m, i.access, i.pos, a⟩
    | .leaf => h
    | .hole => h.result m i 0 true

/-- The registers at the head of a list that one access asks of leaf windows together: all reads or all writes. -/
def leafHead (i : BusItem) : List BusItem → List BusItem
  | [] => []
  | x :: t =>
    let same := x.access == i.access && place x.addr == .leaf && x.op.writes == i.op.writes &&
      (match x.op with | .modify _ _ => false | _ => true)
    if same then x :: leafHead i t else []

/-- The leaf registers of an access; those whose feature is not accepted give VOID (R369, R427). -/
def Hub.doLeaf (h : Hub) (m : Nat) (l : List BusItem) : Hub :=
  match l with
  | [] => h
  | i :: _ =>
    let h := h.dropLatch m i.op.writes
    let ok := fun (x : BusItem) => isKeeper m || bit (h.accepted (pathOf m)) (featureOf x.addr)
    let h' := (l.filter fun x => !ok x).foldl (fun g x => g.result m x 0 true) h
    let good := l.filter ok
    match i.op with
    | .modify mask v => if good.isEmpty then h' else h'.leafModify i.access i.addr mask v
    | op =>
      let top := good.foldl (fun n x => max n (x.pos + 1)) 0
      let data := (List.range top).map fun p =>
        match good.find? fun x => x.pos == p with
        | some x => x.op.value 0
        | none => 0
      h'.leafAccess (whoOf m) i.access op.writes i.fix (good.map fun x => (x.pos, x.addr - x.addr % 4)) data

/-- A keeper command of master m waits for its commit. -/
def Hub.waitsForKeeper (h : Hub) (m : Nat) : Bool := h.kpr.cmds.any fun c => c.master == m

/-- Carries out the registers of master m that wait, up to one that a keeper serves. -/
def Hub.runTodo (m : Nat) : Nat → Hub → Hub
  | 0, h => h
  | n + 1, h =>
    if h.waitsForKeeper m then h
    else
      match (h.master m).todo with
      | [] => h
      | i :: t =>
        if place i.addr = .leaf then
          let batch := match i.op with
            | .modify _ _ => [i]
            | _ => i :: leafHead i t
          let h := h.setMaster m { h.master m with todo := (i :: t).drop batch.length }
          Hub.runTodo m n (h.doLeaf m batch)
        else
          let h := h.setMaster m { h.master m with todo := t }
          Hub.runTodo m n (h.doItem m i)

/-- Carries out what can be carried out for master m. -/
def Hub.runMaster (h : Hub) (m : Nat) : Hub := Hub.runTodo m ((h.master m).todo.length + 1) h

/-- The address of register `k` of an access: stepping does not wrap at the top of the space (R445). -/
def stepAddr (addr k : Nat) (fix : Bool) : Nat := if fix then addr else min (addr + 4 * k) 0xFFFFFFFC

/-- The registers of an access. -/
def busItems (access addr : Nat) (fix : Bool) (ops : List BusOp) : List BusItem :=
  (List.range ops.length).zip ops |>.map fun p =>
    { access := access, pos := p.1, addr := stepAddr addr p.1 fix, op := p.2, fix := fix }

/-- Every register of an access is granted (R344, R424). -/
def Hub.allGranted (h : Hub) (m addr : Nat) (fix : Bool) (ops : List BusOp) : Bool :=
  (busItems 0 addr fix ops).all fun i => h.granted m i.addr i.op.writes

/-- Appends the registers of the current access to those master m waits for, and carries them out. -/
def Hub.submit (h : Hub) (m addr : Nat) (fix : Bool) (ops : List BusOp) : Hub :=
  let x := h.master m
  (h.setMaster m { x with todo := x.todo ++ busItems h.access addr fix ops }).runMaster m

/-- A new access begins. -/
def Hub.nextAccess (h : Hub) : Hub := { h with access := h.access + 1 }

/-- An access of master m whose results no reply carries: a register command of its own. A path that is not granted
the access executes nothing (R424). -/
def Hub.act (h : Hub) (m addr : Nat) (ops : List BusOp) : Hub :=
  if !h.awake ∨ !h.allGranted m addr false ops then h else h.nextAccess.submit m addr false ops

/-- A write of one register by master m. -/
def Hub.busWrite (h : Hub) (m addr v : Nat) : Hub := h.act m addr [.write v]

/-- A write of a register of the map by master m. -/
def Hub.writeTo (h : Hub) (m : Nat) (r : RF) (v : Nat) : Hub := h.busWrite m r.addr v

/-- A read of one register by master m. -/
def Hub.busRead (h : Hub) (m addr : Nat) : Hub := h.act m addr [.read]

/-! ## Keeper commands end (R472, R473, R545) -/

/-- Removes the first pending keeper command of master m. -/
def dropCmd (m : Nat) : List KeeperCmd → List KeeperCmd
  | [] => []
  | c :: t => if c.master = m then t else c :: dropCmd m t

/-- The result of a keeper command's register. -/
def Hub.cmdResult (h : Hub) (c : KeeperCmd) (void : Bool) : Hub :=
  h.resolve (whoOf c.master) c.access c.pos [(0, void)]

/-- The active keeper executes master m's keeper command and its commit entry is accepted (R472, R473). -/
def Hub.keeperCommit (h : Hub) (m : Nat) : Hub :=
  match h.kpr.cmds.find? fun c => c.master == m with
  | none => h
  | some c =>
    if !h.keeperRuns ∨ h.kpr.restoring then h
    else
      let h := { h with kpr := { h.kpr with cmds := dropCmd m h.kpr.cmds } }
      let h := h.keeperDo c.op
      let h := if c.replay then (h.inc KPR_REPLAY_COUNT).markReplayed (whoOf m) c.access else h
      (h.cmdResult c false).runMaster m

/-- The hub becomes keeperless: pending keeper commands end without execution (R459, R545). During the boot they wait
for the keepers, and a boot that ends without one leaves the hub keeperless (R499, R500; DEDUCED, log entry 69). -/
def Hub.keeperless (h : Hub) : Hub :=
  if h.keeperRuns ∨ h.on KPR_STATUS_KEEPERLESS ∨ h.pwr.state = .boot then h
  else
    let h := (h.put HASP_STATUS_ABSENT_US (max 40 (h.get HASP_STATUS_ABSENT_US))).put HASP_STATUS_KEEPALIVE 0
    let h := ((h.put HASP_STATUS_OWNER 0).put KPR_STATUS_KEEPERLESS 1).refreshStandby
    let h := h.raise 0x11 0 (h.rd KPR_STATUS.addr)
    let cmds := h.kpr.cmds
    let h := { h with kpr := { h.kpr with cmds := [] } }
    let h := cmds.foldl (fun h c => h.cmdResult c true) h
    h.forAll [0, 1, 2, 3] Hub.runMaster

end Sys2Proof.Machine
end

