-- ==== Sys2Proof/Machine/RequestOps.lean ====
section
/-! DEFINITION. Requests of the downlink control channel (R342 to R344, R541) and transactions of the serial port
(R434 to R443). -/

namespace Sys2Proof.Machine

/-! ## Downlink requests -/

/-- A request of the control channel (R340, R342): MODE, TARGET and TAG of its header, OP, the number of registers,
ADDRESS and data, and whether it is well formed. -/
structure DlReq where
  mode : Nat
  target : Nat
  tag : Nat
  op : Nat
  n : Nat
  addr : Nat
  data : List Nat := []
  ok : Bool := true
  deriving DecidableEq, Repr

/-- The words of a REQUEST item (R340, R342). -/
def requestWords (mode target tag op n addr : Nat) (data : List Nat) : List Nat :=
  (1 * 2 ^ 28 + mode * 2 ^ 26 + target * 2 ^ 18 + tag * 2 ^ 8 + (2 + data.length)) ::
    (op * 2 ^ 28 + (n - 1) % 64 * 2 ^ 16) :: addr :: data

/-- The LEN an operation needs; none: no operation, or a MODIFY of several registers (R342). -/
def requestLen (op n : Nat) : Option Nat :=
  match op with
  | 1 => some 2
  | 2 => some 2
  | 3 => some (2 + n)
  | 4 => some (2 + n)
  | 5 => if n = 1 then some 4 else none
  | _ => none

/-- The request that the words of an item make (R340, R342). -/
def requestOf (words : List Nat) : DlReq :=
  let hdr := words.getD 0 0
  let w1 := words.getD 1 0
  let op := bits w1 31 28
  let n := bits w1 21 16 + 1
  { mode := bits hdr 27 26, target := bits hdr 25 18, tag := bits hdr 15 8, op := op, n := n, addr := words.getD 2 0
    data := words.drop 3, ok := requestLen op n == some (bits hdr 7 0) }

/-- What a request does to each register in turn (R342). -/
def DlReq.ops (r : DlReq) : List BusOp :=
  match r.op with
  | 1 => List.replicate r.n .read
  | 2 => List.replicate r.n .read
  | 5 => [.modify (r.data.getD 0 0) (r.data.getD 1 0)]
  | _ => r.data.map .write

/-- A _FIX operation repeats its address (R342). -/
def DlReq.fix (r : DlReq) : Bool := r.op == 2 || r.op == 4

/-- A well-formed request that addresses this hub is executed, or refused as a whole with DENIED (R341 to R344). -/
def Hub.dlExec (h : Hub) (mode tag addr : Nat) (fix : Bool) (ops : List BusOp) : Hub :=
  if !h.allGranted 0 addr fix ops then h.pushReply { mode := mode, tag := tag, refused := some 28 }
  else
    let h := h.nextAccess
    let h := h.pushReply {
      mode := mode, tag := tag, results := ops.map fun _ => none
      isRead := !(ops.headD .read).writes, access := h.access }
    h.submit 0 addr fix ops

/-- The control agent has a request (R341 to R343): it is refused, malformed, or executed. -/
def Hub.dlTake (h : Hub) (r : DlReq) : Hub :=
  h.dlRequest r.mode r.tag fun h =>
    if r.ok then h.dlExec r.mode r.tag r.addr r.fix r.ops else h.replyMalformed r.mode r.tag

/-- The decoder has the words of a REQUEST: one that addresses this hub crosses to the control agent through the DL_IN
queue (R18, R341, R484). -/
def Hub.dlAsk (h : Hub) (words : List Nat) : Hub :=
  let r := requestOf words
  if !h.awake ∨ !h.addressed r.mode r.target then h
  else
    let (h, now) := h.qCross 0 words .plain
    if now then h.dlTake r else h

/-- READ_INC and READ_FIX of `n` registers. -/
def Hub.dlRead (h : Hub) (mode target tag addr n : Nat) (fix : Bool) : Hub :=
  h.dlAsk (requestWords mode target tag (if fix then 2 else 1) n addr [])

/-- WRITE_INC and WRITE_FIX of `n` registers: malformed unless there is a word for each (R342). -/
def Hub.dlWrite (h : Hub) (mode target tag addr n : Nat) (data : List Nat) (fix : Bool) : Hub :=
  h.dlAsk (requestWords mode target tag (if fix then 4 else 3) n addr data)

/-- MODIFY: malformed unless COUNT = 0 (R342, R541). -/
def Hub.dlModify (h : Hub) (mode target tag addr count mask v : Nat) : Hub :=
  h.dlAsk (requestWords mode target tag 5 (count + 1) addr [mask, v])

/-! ## Serial port transactions -/

/-- The words of a transaction as it crosses to the port agent: its header and the words written (R434, R484; their
form is the model's, log entry 60). -/
def portWords (addr n : Nat) (read fix : Bool) (ops : List BusOp) : List Nat :=
  (b2n (!read) * 2 ^ 31 + b2n fix * 2 ^ 30 + (n - 1)) :: addr ::
    ops.filterMap fun op => match op with | .write v => some v | _ => none

/-- A transaction that has not crossed at once: where PORT_IN refused it, its words are dropped and its registers not
accessed (R484). -/
def Hub.portHeld (h : Hub) : Hub :=
  let waits := ((h.queue 2).words ++ (h.queue 2).held).any fun w => match w.item with | .access _ _ _ => true | _ => false
  if waits then h
  else { h with port := { h.port with txn := h.port.txn.map fun (t : PortTxn) => { t with results := [] } } }

/-- A header completes (R435 to R437, R442): the transaction before it is over; a denied one executes nothing. It
crosses to the port agent through the PORT_IN queue (R18). -/
def Hub.portStart (h : Hub) (addr n : Nat) (read fix : Bool) (ops : List BusOp) : Hub :=
  if !h.awake then h
  else
    let h := h.portFinish
    let h := h.inc PORT_TRANS_COUNT
    let all := if read then ops else List.replicate n (.write 0)
    let denied := !h.allGranted 1 addr fix all
    let h := h.nextAccess
    let p := h.port
    let txn : PortTxn := {
      isRead := read, results := if denied then [] else List.replicate n none, denied := denied, access := h.access
      prevCut := p.prevCut, prevOver := p.prevOver }
    let h := { h with port := { p with txn := some txn, unit := h.get PORT_CFG_UNIT } }
    if denied then h
    else
      let (h, now) := h.qCross 2 (portWords addr n read fix ops) (.access addr fix ops)
      if now then h.submit 1 addr fix ops else h.portHeld

/-- The header's ID names this hub; in SMALL the hub ignores it (R433). -/
def Hub.portNamed (h : Hub) (id : Nat) : Bool := !h.on PORT_STATUS_MODE || id == h.get DL_GROUPS_HUB_ADDR

/-- A header for this hub starts its transaction; any other makes the hub ignore the port until sel_n rises (R433). -/
def Hub.portHeader (h : Hub) (id addr n : Nat) (read fix : Bool) (ops : List BusOp) : Hub :=
  if h.portNamed id then h.portStart addr n read fix ops else { h with port := { h.port with deaf := true } }

/-- READ_INC and READ_FIX of `n` registers (R437). -/
def Hub.portRead (h : Hub) (id addr n : Nat) (fix : Bool) : Hub :=
  h.portHeader id addr n true fix (List.replicate n .read)

/-- WRITE_INC and WRITE_FIX of `n` registers, of which the words in `data` arrive whole (R435, R440). -/
def Hub.portWrite (h : Hub) (id addr n : Nat) (data : List Nat) (fix : Bool) : Hub :=
  h.portHeader id addr n false fix ((data.take n).map .write)

/-- A transaction in progress ends; of a cut write only the registers written are left (R439, R440). -/
def PortTxn.over (t : PortTxn) (late cut : Bool) : PortTxn :=
  if t.ended.isSome then t
  else { t with ended := some late, results := if cut ∧ !t.isRead then t.results.filter Option.isSome else t.results }

/-- The transaction ends with sel_n: its status word is written once every register has its result (R439). -/
def Hub.portEnd (h : Hub) (late cut : Bool) : Hub :=
  let p := h.port
  let txn := p.txn.map fun t => t.over late cut
  { h with port := { p with txn := txn, prevCut := cut, prevOver := p.overclock, overclock := false } }.portSettle

/-- sel_n rises where the hub was not addressed (R433). -/
def Hub.portListen (h : Hub) : Hub := { h with port := { h.port with deaf := false } }

/-- sel_n rises at or after edge E (R439). -/
def Hub.portTransactionEnd (h : Hub) (late : Bool) : Hub :=
  if h.port.deaf then h.portListen else if h.awake then h.portEnd late false else h

/-- sel_n rises before edge E (R440). -/
def Hub.portCut (h : Hub) (late : Bool) : Hub :=
  if h.port.deaf then h.portListen
  else if h.awake then ((h.set1 PORT_STATUS_FRAME_CUT).inc PORT_CUT_COUNT).portEnd late true
  else h

/-- Edges after E (R441). -/
def Hub.portOverclock (h : Hub) : Hub :=
  if h.awake ∧ !h.port.deaf then { h.set1 PORT_STATUS_OVERCLOCK with port := { h.port with overclock := true } } else h

end Sys2Proof.Machine
end

