-- ==== Sys2Proof/Machine/SampleOps.lean ====
section
/-! DEFINITION. The sample period: measurements, the start of a BX, conversions, Q marking (R75), the delay stage and
its branches (R135), scheduled decimator restarts (R145, R146); and the microsecond of CONTROL. -/

namespace Sys2Proof.Machine

/-! ## Measurements -/

/-- The measured offset lies outside ±3/8 BX (R30). -/
def Hub.offsetOutside (h : Hub) (ps : Nat) : Bool := 3000000000000 < (sgn 32 ps).natAbs * 8 * h.bxcHz

/-- The highest of the six die temperatures, which are signed; ORG_TEMP is unsigned, so a highest one below 0 °C reads
0 (R67, R302; DESIGN CHOICE, log entry 44). -/
def Hub.dieMax (h : Hub) : Nat :=
  ((List.range 6).foldl (fun (a : Int) r => max a (sgn 16 (h.get (CAL_RGN_TEMP r)))) 0).toNat

/-- One measurement reaches its registers. An excitation comes as EXC_MEAS shows it, corrected (R282, R298; DESIGN
CHOICE, log entry 59). -/
def Hub.measure (h : Hub) : Measure → Hub
  | .bxc hz => h.bxcMeasured hz.toNat
  | .abOffset ps =>
    let bad := h.offsetOutside ps.toNat
    let h := { h with clk := { h.clk with offsetBad := bad } }.wr CLK_AB_OFFSET.addr ps.toNat
    if bad then h.setDlGood (1 - h.selDl) false else h
  | .island t => (h.put ORG_TEMP_ISLAND t.toNat).refreshHeat
  | .heater mw => if h.heatOn then (h.put ORG_STATUS_HEATER_MW mw).refreshHeat else h
  | .die r t =>
    let h := h.wr (CAL_RGN_TEMP r).addr t.toNat
    (h.put ORG_TEMP_DIE_MAX h.dieMax).refreshMargin
  | .excitation e mv current =>
    if excMode (h.exc e) = 0 then h else (h.put (EXC_MEAS_FORCE_MV e) mv.toNat).put (EXC_MEAS_CURRENT e) current.toNat

/-! ## The start of a BX -/

/-- The next sample period begins: the slot, and after slot 1 the frame count, advance, and its sample gets its label
(R10, R40, R47). -/
def Hub.advance (h : Hub) : Hub :=
  let frame := if h.clk.slot = 1 then (h.clk.frame + 1) % bxSpan else h.clk.frame
  let h := { h with clk := { h.clk with tick := h.clk.tick + 1, slot := 1 - h.clk.slot, frame := frame } }
  { h with clk := { h.clk with labels := h.label :: h.clk.labels.take 15 } }

/-- Settings of the cells, channels, TDCs and time inputs that take effect at a BX boundary and mark nothing (R72,
R79, R155, R253, R256). -/
def Hub.takeSettings (h : Hub) : Hub :=
  let h := h.forAll (List.range 408) fun h id => (h.takeQuiet (id / 17) (id % 17)).takeSkew (id / 17) (id % 17)
  (h.forAll (List.range 384) Hub.takePed).forAll (List.range 4) Hub.takeTin

/-- The first sample period of a BX: RUN ends where due, settings take effect, every spoke gets its frame, and looped
receive lanes theirs (R322, R334, R352). -/
def Hub.startBx (h : Hub) : Hub :=
  let h := { h with trig := { h.trig with tbOut := false } }
  let h := (h.runStopTaken.takeSettings.calTrimsTaken.forAll (List.range 6) Hub.takeOut).resetsOver
  (h.forAll (List.range 16) Hub.downstreamFrame).forAll ((List.range 18).map (12 + ·)) Hub.loopTick

/-! ## Conversions (R70 to R72, R101) -/

/-- Inputs the converters see from now on. -/
def Hub.present (h : Hub) (l : List Conversion) : Hub :=
  l.foldl (fun h x => h.setCell x.cell { h.cell x.cell with hg := x.hg.toNat, lg := x.lg.toNat }) h

/-- The spare is in steps 1 to 4 of a move (R100). -/
def Hub.spareMoving (h : Hub) (j : Nat) : Bool := h.hPhase j == pDischarge || h.hPhase j == pSettling

/-- A cell converts its input; the spare's history is longer, as its ring takes its words as late as the rings of
the channels take theirs (R101, R162). -/
def Hub.convert (h : Hub) (id : Nat) : Hub :=
  let x := h.cell id
  let spare := id % 17 = 16
  let v : Conv :=
    { hg := x.hg, lg := x.lg, ctrl := x.ctrl, ratio := x.ratio
      moving := spare && h.spareMoving (id / 17), causes := h.cellCauses (id / 17) (id % 17) }
  h.setCell id { x with conv := v :: x.conv.take (if spare then 9 else 6) }

/-! ## Q marking (R75) -/

/-- The causes that arise after the cell for the sample a channel takes now (R37, R51, R116, R548). -/
def Hub.causesNow (h : Hub) (n : Nat) : Nat :=
  b2n (bit (h.get (BLK_STATUS_UNCOVERED (n / 16))) (n % 16)) * 2 ^ qUncovered +
    b2n (h.clk.tick < h.clk.phaseTo) * 2 ^ qPhase + b2n h.timebaseQ * 2 ^ qTimebase

/-- Sets bits of CELL_Q_CAUSE. -/
def Hub.setCauses (h : Hub) (j c m : Nat) : Hub :=
  if m = 0 then h else h.wr (CELL_Q_CAUSE j c).addr (h.rd (CELL_Q_CAUSE j c).addr ||| m)

/-- The channel's next word leaves its source and enters the delay line with its Q (R75, R107). -/
def Hub.leaveCell (h : Hub) (j c : Nat) : Hub :=
  let n := chanOf j c
  let x := h.chan n
  let pipe := ⟨x.spare, h.causesNow n⟩ :: x.pipe.take 3
  let h := h.setChan n { x with pipe := pipe }
  match pipe[3]? with
  | none => h
  | some p =>
    match cellWord (h.cell (cellId j (if p.spare then 16 else c))) with
    | none => h
    | some w =>
      let causes := p.causes ||| w.causes
      let line := ⟨w.g, w.moving || causes != 0, w.h, w.l, w.a4⟩ :: x.line.take 71
      (h.setChan n { h.chan n with line := line }).setCauses j c causes

/-! ## The delay stage and its branches (R130 to R135, R139 to R143, R162) -/

/-- The word that leaves the delay stage feeds ring, estimator and decimator (R135). -/
def Hub.branches (h : Hub) (j c label : Nat) (w : LineWord) : Hub :=
  let word := sampleWord w.g w.q (if w.g then w.l else w.h)
  let h := if w.q ∧ h.ringTakes j c label then h.inc (CELL_Q_COUNT j c) else h
  let h := h.ringPresent j c ⟨label, word, w.a4⟩
  let h := (h.responseDue .est j c label).responseDue .rec_ j c label
  (h.estimate j c label w w.q).decimate j c w w.q

/-- One sample of a channel: the delayed word six samples old (R131, R133, R162). -/
def Hub.channelSample (h : Hub) (j c : Nat) : Hub :=
  let h := h.leaveCell j c
  let n := chanOf j c
  let x := h.chan n
  if x.line.length < 4 then h
  else
    let i := h.clk.tick - 6
    let delayed := bit (markBits x.marks i) qDelay
    let w := delayWord n x.line (delayAt x.dly i)
    let h := h.setChan n { x with marks := x.marks.filter fun m => i < m.upto }
    let h := if delayed then h.setCauses j c (2 ^ qDelay) else h
    h.branches j c (h.labelBack 6) { w with q := w.q || delayed }

/-- The spare's word enters its own ring (R101). -/
def Hub.spareSample (h : Hub) (j : Nat) : Hub :=
  match cellWordAt (h.cell (cellId j 16)) 6 with
  | none => h
  | some w => h.ringPresent j 16 ⟨h.labelBack 6, sampleWord w.g w.q w.code, w.a4⟩

/-- A block that waits for a group boundary writes again once it has come (R189). -/
def Hub.resumed (h : Hub) (j : Nat) : Hub :=
  if (h.blk j).resume ∧ h.labelBack 6 % 4 = 0 then h.setBlk j { h.blk j with resume := false } else h

/-- Every cell and channel takes one sample. -/
def Hub.sampleAll (h : Hub) : Hub :=
  let h := h.forAll (List.range 408) Hub.convert
  let h := h.forAll (List.range 24) Hub.hingeSample
  let h := h.forAll (List.range 24) Hub.resumed
  let h := h.forAll (List.range 384) fun h n => h.channelSample (n / 16) (n % 16)
  h.forAll (List.range 24) Hub.spareSample

/-! ## Scheduled restarts (R145, R146) -/

/-- A restart at the next BX gets its label. -/
def Hub.fixRestarts (h : Hub) : Hub :=
  let l := h.nextBxLabel
  { h with crec := { h.crec with sched := h.crec.sched.map fun p => (some (p.1.getD l), p.2) } }

/-- The restarts whose delayed sample is the next one form one restart; REC_SYNC sets SYNCED (R145, R146). -/
def Hub.restartsDue (h : Hub) : Hub :=
  let now := h.labelBack 6
  let isDue := fun (p : Option Nat × Nat) => match p.1 with | some l => labelGe now l | none => false
  let due := h.crec.sched.filter isDue
  if due.isEmpty then h
  else
    let h := { h with crec := { h.crec with sched := h.crec.sched.filter fun p => !isDue p } }
    let why := due.map (·.2)
    let h := h.restartAll why
    if why.contains reSync then h.w64 CREC_LAST_SYNC (timeWord now) else h

/-! ## The sample period -/

/-- One sample period of the MACHINE clock (R47, R70 to R79, R130 to R145, R162): the converters give `codes` and
keep their last codes where none are named. -/
def Hub.samplePeriod (h : Hub) (codes : List Conversion) (found : List Measure) : Hub :=
  if !h.awake then h
  else
    let h := ((found.foldl Hub.measure h).lateWords.fixRestarts.advance.monBegun 0).monBegun 1
    let h := if h.clk.slot = 0 then h.startBx else h
    let h := h.restartsDue.present codes
    let h := if h.sampling then h.sampleAll else h
    h.calPulseSample

/-! ## The microsecond of CONTROL -/

/-- What happens every millisecond: ages and uptimes (R255, R481). -/
def Hub.millisecond (h : Hub) : Hub :=
  let h := h.forAll (List.range 28) Hub.cdAge
  h.forAll (List.range 2) fun h k => if h.kSt k = kOff then h else h.incSat (KPR_UPTIME k)

/-- One microsecond passes with nothing commanded: times and ages count (R37, R58, R268, R461, R503). -/
def Hub.microsecond (h : Hub) : Hub :=
  let h := { h with clk := { h.clk with usec := h.clk.usec + 1, orgUsec := h.clk.orgUsec + 1 } }
  let h := if h.pwr.gzbStopped ∨ bit h.pwr.supplyBad 3 then h else h.w64 GZB_TIME ((h.r64 GZB_TIME + 1) % 2 ^ 48)
  if !h.awake then h
  else
    let h := if h.pwr.state = .boot then { h with pwr := { h.pwr with bootUsec := h.pwr.bootUsec + 1 } } else h
    let h := if h.on CLK_STATUS_HOLDOVER then h.incSat CLK_HOLD_TIME else h
    let h := h.keepaliveTick.excOpenAgain
    let h := if h.clk.usec % 1000 = 0 then h.millisecond else h
    h.gzbEntering

end Sys2Proof.Machine
end

