-- ==== Sys2Proof/Machine/RowOps.lean ====
section
/-! DEFINITION. What the rows of the command table compose from the operations of several parts: operands turned into
the operations' own types, and effects that reach several parts at once. -/

namespace Sys2Proof.Machine

/-! ## Acting -/

/-- A command that acts in every power state. -/
def State.act (s : State) (f : Hub → Hub) : Host.Outcome State Fault Refusal := .next { s with hub := f s.hub }

/-- A command that acts while the hub's common logic is powered and out of the gazebo state (R493, R501). -/
def State.actAwake (s : State) (f : Hub → Hub) : Host.Outcome State Fault Refusal :=
  s.act fun h => if h.awake then f h else h

/-! ## Operands -/

/-- Words as numbers. -/
def nats {n : Nat} (l : List (BitVec n)) : List Nat := l.map BitVec.toNat

def snapOf (x : Snapshots) : Snap := ⟨x.sh.toNat, x.s1.toNat, x.s2.toNat⟩

def eccErr (e : RingError) : EccErr := ⟨e.cell, e.group, e.uncorrectable⟩

/-- The errors met in groups of a ring: those that could be corrected, and those that could not. -/
def groupErrs (corrected lost : List RingGroup) : List EccErr :=
  (corrected.map fun g => ⟨g.cell, g.group, false⟩) ++ lost.map fun g => ⟨g.cell, g.group, true⟩

/-- Eight codes of twelve bits from two words of four, the first in the lowest bits. -/
def packedCodes (low high : BitVec 48) : List Nat :=
  (List.range 8).map fun w => bits (2 ^ 48 * high.toNat + low.toNat) (12 * w + 11) (12 * w)

def hitErr (e : HitError) : HitErr := ⟨e.channel, e.place⟩

def busOp : Access → BusOp
  | .read => .read
  | .write v => .write v.toNat

/-- The stage of a filter swap: the record response or the estimator (R147). -/
def stageOf (record : Bool) : Stage := if record then .rec_ else .est

/-- The time of a frame on a receive lane: its groups, and when its comma came, in ps after the echo request that is
out (R246, R248, R306). -/
structure LineFrame where
  groups : List Nat
  ps : Nat
  deriving DecidableEq, Repr

def lineFrameOf (f : RxFrame) : LineFrame := ⟨nats f.groups, f.sinceEcho.toNat⟩

/-- The address word of a frame (R388). -/
def frameAddress : FrameId → Nat
  | .chip p => 0x10000000 + p
  | .region r => 0x20000000 + r * 2 ^ 20
  | .block j => 0x30000000 + j / 4 * 2 ^ 20 + j % 4 * 2 ^ 16
  | .cell j c => 0x40000000 + j / 4 * 2 ^ 20 + j % 4 * 2 ^ 16 + c * 2 ^ 11
  | .trellis p => 0x50000000 + p
  | .laneMap => 0x60000000
  | .spokeMap => 0x70000000

/-- The word of PWR_CELL_RESET that resets cell c of block j (R505). -/
def cellResetWord (j c : Nat) : Nat := j / 4 * 2 ^ 10 + j % 4 * 2 ^ 8 + c * 2 + 1

/-- The CTRL register of lane l. -/
def laneCtrl (l : Nat) : RF := ⟨laneBase l, 31, 0⟩

/-- CTRL of lane l with RETRAIN clear, to be written back with one field changed. -/
def Hub.laneCtrlWord (h : Hub) (l : Nat) : Nat := setBits (h.rd (laneBase l)) 3 3 0

/-- The boot sequence ends; a hub on which no keeper runs is then keeperless (R459, R499, R500). -/
def Hub.bootOver (h : Hub) (image : Bool) : Hub :=
  if h.pwr.state = .boot then (h.bootComplete image).keeperless else h

/-- Step 6 was not reached in time (R500). -/
def Hub.bootLate (h : Hub) : Hub := if h.pwr.state = .boot then h.bootTimeout.keeperless else h

/-! ## Alarms (R15) -/

/-- The alarm forwarder has the words of a record; the gazebo log follows as room comes (R15, R502). -/
def Hub.alarmTaken (h : Hub) (item : List Nat) : Hub :=
  Hub.logReplay 16 (h.sendHealth (item.headD 0 / 2 ^ 28) item.tail)

/-- The alarm forwarder sends the oldest record of its queue (R15). -/
def Hub.alarmForward (h : Hub) : Hub :=
  match h.qTake 6 with
  | none => h
  | some (item, h) => h.alarmTaken item

/-! ## Summaries (R17) -/

/-- A counter or status register of the map: no field of it is written by the host but to clear it. A banked one counts
once for each bank (DESIGN CHOICE, log entry 67). -/
def statusReg (key : Nat) : Option Loc :=
  match locate (key % 2 ^ 32) with
  | none => none
  | some l =>
    let d := regDesc l.name
    if l.name = .CELL_HEALTH ∨ (d.rw = 0 ∧ d.ws = 0 ∧ d.wo = 0) then some l else none

/-- The status registers whose value follows from the state at the read: they have no stored word to compare. -/
def liveKeys : List Nat :=
  [TIME_NOW.addr, TIME_NOW.addr + 4, CLK_AB_OFFSET.addr, FEAT_OFFER.addr, FEAT_OFFER.addr + 4]
    ++ (List.range 6).flatMap (fun r => [(RGN_STATUS r).addr, (RGN_FRAG_MAX r).addr])
    ++ (List.range 408).flatMap fun id =>
      let last := (CELL_LAST (id / 17) (id % 17)).addr
      [(CELL_STATUS (id / 17) (id % 17)).addr, last, last + 4]

/-- What the status register at `key` reads; none where `key` is not one. -/
def Hub.statusAt (h : Hub) (key : Nat) : Option Nat := (statusReg key).map fun l => h.readReg l key

/-- The status registers that may differ from their reset values, and what they read, in order of address. -/
def Hub.statusNow (h : Hub) : SMap Word :=
  let keys := ((h.regs ++ h.kpr.summary).map (·.1) ++ liveKeys)
  keys.foldl (fun a k => match h.statusAt k with
    | some v => SMap.set (resetWord h.fuse) a k (BitVec.ofNat 32 v)
    | none => a) []

/-- The (key, value) pairs that changed since the last summary; both halves of a 64-bit value. -/
def Hub.summaryPairs (h : Hub) (now : SMap Word) : List (Nat × Nat) :=
  let at_ (m : SMap Word) (k : Nat) := (SMap.get (resetWord h.fuse) m k).toNat
  let changed (k : Nat) := at_ now k != at_ h.kpr.summary k
  let keys := (now ++ h.kpr.summary).foldl (fun (a : SMap Bool) p => SMap.set (fun _ => false) a p.1 true) []
  keys.flatMap fun p =>
    match statusReg p.1 with
    | none => []
    | some l =>
      if !(regDesc l.name).wide then if changed p.1 then [(p.1, at_ now p.1)] else []
      else
        let lo := if l.high then p.1 - 4 else p.1
        let first := !l.high || !keys.any (·.1 == lo)
        if first ∧ (changed lo ∨ changed (lo + 4)) then [(lo, at_ now lo), (lo + 4, at_ now (lo + 4))] else []

/-- Cuts the pairs into units of at most 64. -/
def summaryUnits : Nat → List (Nat × Nat) → List (List (Nat × Nat))
  | 0, _ => []
  | n + 1, l => if l.length ≤ 64 then [l] else l.take 64 :: summaryUnits n (l.drop 64)

/-- SUMMARY (R17). -/
def Hub.summary (h : Hub) : Hub :=
  if !h.keeperRuns ∨ h.on KPR_STATUS_KEEPERLESS then h
  else
    let now := h.statusNow
    let pairs := h.summaryPairs now
    let units := summaryUnits (pairs.length + 1) pairs
    let n := units.length
    let h := (List.range n).foldl (fun h i =>
      let u := units.getD i []
      h.sendHealth 4 ((b2n (i + 1 < n) * 2 ^ 31 + u.length) :: u.flatMap fun p => [p.1 % 2 ^ 32, p.2])) h
    { h with kpr := { h.kpr with summary := now } }

/-! ## The time base (R33, R40 to R42, R49 to R51) -/

/-- The ocxo_warm input changes level (R33). -/
def Hub.ocxoLevel (h : Hub) (warm : Bool) : Hub :=
  if h.awake then h.ocxoWarmChange warm else { h with clk := { h.clk with ocxoWarm := warm } }

/-- What BX_SET does in the BX it acts in (R40 to R42, R183, R358, R407). -/
def Hub.bxSetActs (h : Hub) : Hub :=
  let r := h.bxSetCount (h.r64 GZB_TIME)
  let h := if r.1.on TRG_CFG_EVT_AT_BXSET then r.1.wr TRG_EVT_NEXT.addr (r.1.get TRG_EVT_PRESET) else r.1
  if r.2 then h.leafSyncAll.cfgBxSet else h

/-- The BX_SET fast command (R335). -/
def Hub.bxSet (h : Hub) : Hub := h.fcGate DL_FC_EN_BX_SET Hub.bxSetActs

/-- The armed BX begins: what depends on the alignment follows it (R49 to R51, R170, R176, R375). -/
def Hub.alignTake (h : Hub) : Hub :=
  let r := h.alignApply
  if r.2 then r.1.refreshLatency.forAll (List.range 16) Hub.recomputeOffset else r.1

/-! ## Filters (R145, R147, R148) -/

/-- A SWAP that waits with this FORCE is taken up. -/
def Hub.swapTake (h : Hub) (s : Stage) (j c : Nat) (force : Bool) : Hub :=
  let r := h.rd (stageReg s j c).addr
  if !bit r 31 ∨ bit r 30 != force then h
  else if force then h.swapForce s j c
  else h.swap s j c

/-- REC_SYNC restarts every decimator at the first delayed sample of its BX (R145). -/
def Hub.recSyncActs (h : Hub) : Hub :=
  { h with crec := { h.crec with sched := h.crec.sched ++ [(some (2 * h.nextFrame), reSync)] } }

/-- The REC_SYNC fast command (R335). -/
def Hub.recSync (h : Hub) : Hub := h.fcGate DL_FC_EN_REC_SYNC Hub.recSyncActs

/-! ## Diagnostic reads (R25, R166, R230) -/

/-- The address of word w of the ring of cell c of block j (R25). -/
def ringAddr (j c w : Nat) : Nat := 0x20000000 + j / 4 * 0x100000 + j % 4 * 0x20000 + c * 0x1000 + 4 * w

/-- Master m's read of word w of a ring, raised unless it waits already, requests the block arbiter's grant (R166). -/
def Hub.diagRingRead (h : Hub) (m j c w : Nat) (errs : List EccErr) : Hub :=
  let mine := fun (r : ArbRead) => match r.diag with
    | some (n, _, _, p) => n == m && r.cell == c && p == 2 * w
    | none => false
  let h := if (h.blk j).reads.any mine then h else h.busRead m (ringAddr j c w)
  h.diagRead j errs

/-! ## Signals of the lanes (R313, R314) -/

/-- The signal detector of lane l changes level; `los`: it is the signal that is lost, not clock-recovery lock (R313, R314). -/
def Hub.signalLevel (h : Hub) (l : Nat) (on los : Bool) : Hub :=
  if !h.awake then h.setLane l { h.lane l with signal := on || (!los && (h.lane l).signal) }
  else if on then h.signalRise l
  else h.signalLoss l los

/-! ## Registers a keeper serves (R424, R471) -/

/-- Master m may write the register at `addr`. -/
def Hub.mayWrite (h : Hub) (m addr : Nat) : Bool := h.granted m addr true && h.presented m addr true

/-- A keeper executes a command that master m has given by writing a register. -/
def Hub.serve (h : Hub) (m : Nat) (r : RF) (ok : Bool) (op : KeeperOp) : Hub :=
  if h.mayWrite m r.addr ∧ ok then h.keeperServed op else h

/-- A keeper reset acts with or without a keeper (R459, R476). -/
def Hub.serveReset (h : Hub) (m k : Nat) : Hub := if h.mayWrite m KPR_CTRL.addr then h.keeperCtrl (2 ^ k) else h

end Sys2Proof.Machine
end

