-- ==== Sys2Proof/Machine/ItemOps.lean ====
section
/-! DEFINITION. What the frames of the links carry: the fast-command byte and the items of a downlink frame (R333 to
R348), the items and records of a leaf (R354 to R373), and the items that cross the queues (R18, R484 to R491). -/

namespace Sys2Proof.Machine

/-! ## Items of the queues (R484, R486) -/

/-- The consumer of queue q has popped the last word of an item, whose words are `got` (R484). -/
def Hub.consumed (h : Hub) (q : Nat) (got : List Nat) (item : QItem) : Hub :=
  match item with
  | .unit k u => h.send k u
  | .access addr fix ops => h.submit 1 addr fix ops
  | .results access pos rs => h.portResults access pos rs
  | .journal gap => h.journalTaken gap
  | .leaf s r => h.sendLeaf s r
  | .record _ => h.alarmTaken got
  | .plain =>
    match q with
    | 0 =>
      let r := requestOf got
      if bits (got.getD 0 0) 31 28 = 1 ∧ h.addressed r.mode r.target then h.dlTake r else h
    | 5 => h.monTaken got
    | 6 => h.alarmTaken got
    | _ => h

/-- The item an uncorrectable head word is of is lost (R490). -/
def Hub.headLost (h : Hub) (x : Queue) : Hub :=
  match x.words ++ x.held with
  | [] => h
  | w :: _ => if x.words.isEmpty then h else h.itemLost w.item

/-- A pop from queue q by its consumer (R486 to R490): a whole item goes on to what it stands for. -/
def Hub.queuePop (h : Hub) (q : Nat) (err : QErr) : Hub :=
  let was := h.queue q
  let h := h.qPop q err
  let x := h.queue q
  match err, x.last with
  | .uncorrectable, _ => h.headLost was
  | _, some w => if w.mark ∧ !x.lastCut then h.consumed q x.got w.item else h
  | _, none => h

/-! ## Items of the downlink (R338 to R348) -/

/-- A complete item of downlink d acts if it addresses this hub; `echo` is the time of the comma of the ECHO frame it
began in (R340, R341, R346, R348). -/
def Hub.itemDone (h : Hub) (d : Nat) (echo : Option Nat) (words : List Nat) : Hub :=
  let hdr := words.getD 0 0
  let w1 := words.getD 1 0
  if !h.addressed (bits hdr 27 26) (bits hdr 25 18) then h
  else match bits hdr 31 28 with
  | 1 => h.dlAsk words
  | 2 => (words.drop 1).foldl (fun h w => h.ulAck (bits w 31 28) (bits w 15 0)) h
  | 3 => h.laneBad (bits w1 31 28)
  | 4 => h.resend (bits w1 31 28) (words.getD 2 0)
  | 5 => h.hostIdent d w1 (bits (words.getD 2 0) 0 0)
  | 6 => h.ulIdentAck (bits w1 31 28)
  | 7 => match echo with
    | some ps => h.echo w1 ps
    | none => h
  | _ => h

/-- One control symbol taken from downlink d, in a frame marked as an echo reply at `echo` or not (R338, R348). -/
def Hub.ctlSymbol (h : Hub) (d : Nat) (echo : Option Nat) (sym : Nat) : Hub :=
  let a := assemble dlHeaderOk h.lom.item sym
  let began := if sym = k282 then echo else h.lom.echo
  let h := { h with lom := { h.lom with item := a.next, echo := began } }
  let h := if a.discarded then h.ctlDiscard else h
  match a.words with
  | some w => h.itemDone d began w
  | none => h

/-- The control symbols of a frame of downlink d. -/
def Hub.ctlSymbols (h : Hub) (d : Nat) (echo : Option Nat) (l : List Nat) : Hub :=
  l.foldl (fun h s => h.ctlSymbol d echo s) h

/-- The control symbols of a good frame on downlink d in IDENT: a host identity record is looked for (R315). -/
def Hub.identSymbols (h : Hub) (d : Nat) : List Nat → Hub
  | [] => h
  | sym :: t =>
    let a := assemble dlHeaderOk (SMap.get (fun _ => (none : Assembly)) h.lom.ident d) sym
    let h := { h with lom := { h.lom with ident := SMap.set (fun _ => (none : Assembly)) h.lom.ident d a.next } }
    let h := match a.words with
      | some w =>
        if bits (w.getD 0 0) 31 28 = 5 ∧ h.addressed (bits (w.getD 0 0) 27 26) (bits (w.getD 0 0) 25 18) then
          h.hostIdent d (w.getD 1 0) (bits (w.getD 2 0) 0 0)
        else h
      | none => h
    h.identSymbols d t

/-! ## The fast-command byte (R333 to R336) -/

/-- The commands of a byte that the CODE field gives, but for HARD_RESET (R334, R335). -/
def Hub.fastCode (h : Hub) (code : Nat) : Hub :=
  match code with
  | 3 => h.fcGate DL_FC_EN_RUN_START Hub.runStart
  | 4 => h.fcGate DL_FC_EN_RUN_STOP Hub.runStop
  | 6 => h.fcIgnored
  | 7 => h.fcIgnored
  | _ => h

/-- CAL_STROBE and REC_SYNC, and their forwarding to the leaves (R145, R299, R379). -/
def Hub.fastStrobes (h : Hub) (cal rec_ : Bool) : Hub :=
  let h := if rec_ then h.recSync else h
  let h := if cal then h.fcGate DL_FC_EN_CAL_STROBE Hub.calStrobe else h
  h.leafForward (cal && h.on DL_FC_EN_CAL_STROBE) (rec_ && h.on DL_FC_EN_REC_SYNC)

/-- The commands of one byte, which all act at the same F: BX_SET first, so that the others act at the loaded F; an
APPLY before an ACCEPT, which is decided under its settings; RUN_START before an ACCEPT, which then captures (R334,
R336). -/
def Hub.fastCommands (h : Hub) (byte : Nat) : Hub :=
  let h := if bit byte 6 then h.bxSet else h
  let h := if bit byte 3 then h.fcGate DL_FC_EN_APPLY Hub.cfgApplyFast else h
  let h := (h.fastStrobes (bit byte 4) (bit byte 5)).fastCode (bits byte 2 0)
  if bit byte 7 then h.accept else h

/-- The frame taken for a BX from downlink d, its comma `ps` after the echo request that is out (R336, R337, R348). An
armed HARD_RESET discards the rest of the byte and the control symbols. -/
def Hub.takeFrame (h : Hub) (d : Nat) (f : List Nat) (ps : Nat) : Hub :=
  let byte := f.getD 1 0
  let code := bits byte 2 0
  if code = 2 ∧ h.hrstArmed then h.hardReset
  else
    let h := (if code = 2 then h.hardReset else h).fastCommands byte
    h.ctlSymbols d (if code = 1 then some ps else none) ((f.drop 2).take 12)

/-! ## Downlink frames (R28, R29, R330, R337, R503) -/

/-- A frame that one downlink delivers in a BX: its symbols, its code errors, and the time of its comma, in ps after the
echo request that is out. -/
structure DlFrame where
  syms : List Nat
  errs : Nat
  ps : Nat
  deriving DecidableEq, Repr

def DlFrame.good (f : DlFrame) : Bool := dlFrameGood f.syms f.errs

/-- The frame that downlink d delivers, if one came, decoded (R306, R330). -/
def Hub.receiveFrame (h : Hub) (d : Nat) (f : Option LineFrame) : Option DlFrame × Hub :=
  match f with
  | none => (none, h)
  | some x =>
    let ((syms, errs), h) := h.receive (12 + d) x.groups
    (some ⟨syms, errs, x.ps⟩, h)

/-- What one frame tells of its downlink: its counters, and the identity of the host while it is in IDENT (R30, R315). -/
def Hub.dlSeen (h : Hub) (d : Nat) (f : Option DlFrame) : Hub :=
  let ident := h.ls (12 + d) == 6
  let h := h.dlRecord d (f.map fun x => (x.syms, x.errs))
  match f with
  | some x => if ident && x.good then h.identSymbols d ((x.syms.drop 2).take 12) else h
  | none => h

/-- The frame of an UP downlink. -/
def Hub.delivered (h : Hub) (d : Nat) (f : Option DlFrame) : Option DlFrame := if h.ls (12 + d) = 7 then f else none

/-- The frames of one BX on both downlinks (R28, R29, R330, R337): the selected one's is taken if it is good, else the
other's; a BX with neither loses no byte. -/
def Hub.dlFrame (h : Hub) (a b : Option DlFrame) : Hub :=
  let d := h.selDl
  let own := h.delivered d (if d = 0 then a else b)
  let other := h.delivered (1 - d) (if d = 0 then b else a)
  let h := (h.dlSeen 0 a).dlSeen 1 b
  if own.isNone ∧ other.isNone then h.checkFreeRun
  else
    match own.filter DlFrame.good, other.filter DlFrame.good with
    | some f, _ => h.takeFrame d f.syms f.ps
    | none, some f => ((h.dlFault.inc DL_FC_RESCUED).takeFrame (1 - d) f.syms f.ps).checkFreeRun
    | none, none => h.dlFault.fcLost.checkFreeRun

/-- A frame in the gazebo state: a good one with CODE = WAKE adds to the wake pattern of its downlink, any other breaks
it (R334, R503). -/
def Hub.gazeboFrame (h : Hub) (d : Nat) (f : Option DlFrame) : Hub :=
  match f with
  | none => h
  | some x => if x.good ∧ bits (x.syms.getD 1 0) 2 0 = 5 then h.wakeFrame d else h.wakeBroken d

/-- The frames of one BX on both downlinks, in every power state. -/
def Hub.dlReceive (h : Hub) (a b : Option LineFrame) : Hub :=
  let (a, h) := h.receiveFrame 0 a
  let (b, h) := h.receiveFrame 1 b
  if h.awake then h.dlFrame a b else (h.gazeboFrame 0 a).gazeboFrame 1 b

/-! ## Upstream frames of a leaf (R354 to R363, R373) -/

/-- A complete item of the leaf of spoke s acts (R360). -/
def Hub.upItem (h : Hub) (s : Nat) (words : List Nat) : Hub :=
  let hdr := words.getD 0 0
  match bits hdr 31 28 with
  | 8 => h.leafIdent s (words.drop 1)
  | 9 => h.leafReply s (bits hdr 15 8) (words.getD 1 0) (words.drop 2)
  | 10 => h.leafAlarm s (words.getD 1 0)
  | _ => h

/-- The control symbol of a good frame of spoke s (R359). -/
def Hub.upControl (h : Hub) (s sym : Nat) : Hub :=
  let a := assemble upItemOk (h.leaf s).item sym
  let h := h.setLeaf s { h.leaf s with item := a.next }
  let h := if a.discarded then h.leafItemDiscard s else h
  match a.words with
  | some w => h.upItem s w
  | none => h

/-- The data symbols of a good frame of spoke s, number n modulo 2^16 (R373, R374). -/
def Hub.upData (h : Hub) (s n : Nat) : List Nat → Hub
  | [] => h
  | sym :: t =>
    let a := assemble (fun _ => true) (h.leaf s).record sym
    let headed := if (a.next.getD []).length = 4 ∨ a.words.any (·.length == 1) then n else (h.leaf s).recordAt
    let h := h.setLeaf s { h.leaf s with record := a.next, recordAt := headed }
    let h := if a.discarded then h.recordDrop s 4 else h
    let h := match a.words with
      | some w => h.leafRecord s (w.getD 0 0) (w.drop 1) headed
      | none => h
    h.upData s n t

/-- A bad frame on spoke s: what is in assembly is discarded (R355, R359, R374, R380). -/
def Hub.upBad (h : Hub) (s : Nat) : Hub :=
  let h := h.leafFault s
  let x := h.leaf s
  let h := h.setLeaf s { x with item := none, record := none }
  let h := if x.item.isSome then h.leafItemDiscard s else h
  if x.record.isSome then h.recordDrop s 1 else h

/-- Upstream frame k of spoke s came in its order: its time passes what lies MAXLAG before it, and frame MAXLAG + 1 ends
SYNCING (R358, R367, R378). -/
def Hub.upPassed (h : Hub) (s k : Nat) : Hub :=
  let lag := bits (h.rd (LEAF_SHAPE s).addr) 23 16
  let h := if k = lag + 1 ∧ h.on (LEAF_STATUS_SYNCING s) then (h.leafSyncDone s).leafPresentNow s else h
  if h.leafPresent s then
    h.setLeaf s { h.leaf s with passedTo := some ((h.leafStamp s k + 2 ^ 48 - lag) % 2 ^ 48) }
  else h

/-- The echo of the leaf of spoke s, `ps` after the hub's request: in the frame of the request's number (R248, R363). -/
def Hub.upEcho (h : Hub) (s k ps : Nat) : Hub :=
  if h.rtt.out = some (s + 1) ∧ (h.leaf s).echoFrame = some (k % 2 ^ 16) then h.rttReply ps else h

/-- The low byte that a frame carries is not that of the frame number the hub holds for it (R358). -/
def lbxSlip (f : List Nat) (n : Option Nat) : Bool :=
  match n with
  | some k => k % 256 != f.getD 1 0
  | none => false

/-- A good upstream frame of spoke s, of number n if frames are numbered (R354 to R363). -/
def Hub.upGood (h : Hub) (s : Nat) (f : List Nat) (n : Option Nat) (ps : Nat) : Hub :=
  let slip := lbxSlip f n
  let h := h.setLeaf s { h.leaf s with slipped := slip }
  let h := if slip then h.set1 (LEAF_STATUS_LBX_SLIP s) else h
  let h := match n with
    | some k => if !slip ∧ f.getD 2 0 = k286 then h.upEcho s k ps else h
    | none => h
  let h := (h.upControl s (f.getD 2 0)).upData s (n.getD 0 % 2 ^ 16) ((f.drop 3).take 11)
  if slip then h.leafSync s
  else match n with
    | some k => h.upPassed s k
    | none => h

/-- An upstream frame arrives on spoke s (R354, R355, R358). -/
def Hub.upstreamFrame (h : Hub) (s : Nat) (f : List Nat) (codeErrs ps : Nat) : Hub :=
  let st := h.spkState s
  if st ≠ 6 ∧ st ≠ 7 then h
  else
    let good := upFrameGood f codeErrs
    let h := if st = 7 then h.add (SPK_CODE_ERR s) codeErrs else h
    let n := if st = 7 then (h.leaf s).frameNumber good (f.getD 1 0) else none
    let h := h.setLeaf s { h.leaf s with up := n, slipped := false }
    if good then h.upGood s f n ps else h.upBad s

/-- A frame arrives on spoke s: the checker's while the lane is looped (R322, R354). -/
def Hub.spokeFrame (h : Hub) (s : Nat) (f : LineFrame) : Hub :=
  let ((syms, errs), h) := h.receive (14 + s) f.groups
  if h.ls (14 + s) = 8 then h.loopOutside (14 + s) syms else h.upstreamFrame s syms errs f.ps

end Sys2Proof.Machine
end

