-- ==== Sys2Proof/WellFormed.lean ====
section
/-! DEFINITION. Which commands can be sent: operands whose length or range their types leave open. -/

namespace Sys2Proof

/-- A received frame has its 16 groups (R330, R355). -/
def rxOk (f : RxFrame) : Bool := f.groups.length == 16

/-- A received frame, if one came, has its 16 groups. -/
def rxOkIf (f : Option RxFrame) : Bool :=
  match f with
  | none => true
  | some x => rxOk x

/-- An access to a leaf window is of 1 to 256 registers and lies in the leaf windows (R23, R369). -/
def windowOk (addr : Word) (ops : List Access) : Bool :=
  let last := addr.toNat + 4 * (ops.length - 1)
  1 ≤ ops.length && ops.length ≤ 256 && 0x02000000 ≤ addr.toNat && last < 0x03000000

/-- A command that can be sent to the hub. -/
def Instr.wellFormed (i : Instr) : Bool :=
  match i with
  | .registerWrite _ _ _ => true
  | .read64Low _ _ => true
  | .write64Pair _ _ _ _ => true
  | .alarmForward => true
  | .keeperHealth => true
  | .summary => true
  | .queuePush _ _ _ _ => true
  | .queuePop _ _ => true
  | .queueFlush _ _ => true
  | .ctlOscSwap => true
  | .gzbStop => true
  | .downlinkSwitch => true
  | .downlinkRevert => true
  | .clkDlSelWrite => true
  | .clkHoldForce _ _ => true
  | .clkRelock _ => true
  | .relockDone => true
  | .ocxoWarmChange _ => true
  | .refLost => true
  | .refFreqCheck _ => true
  | .refColdClear => true
  | .refReturn => true
  | .localModeEnter => true
  | .localModeExit _ => true
  | .holdoverLong => true
  | .holdoverExit _ => true
  | .holdoverSlewDone => true
  | .holdoverPhaseStep => true
  | .holdoverQualified => true
  | .machinePllLock _ => true
  | .bxSet => true
  | .alignCompute _ => true
  | .alignArm _ => true
  | .alignCancel _ => true
  | .alignApply => true
  | .orgCtrlWrite _ _ _ => true
  | .orgWarmAssert => true
  | .orgWarmDeassert => true
  | .cellFrontEndChange _ _ => true
  | .cellEnableChange _ _ => true
  | .cellRedundError _ _ => true
  | .cellHealthWindowEnd _ _ => true
  | .cellHealthClear _ _ _ => true
  | .discEnableChange _ _ _ => true
  | .discSettingsChange _ _ _ => true
  | .hngMoveShadow _ _ _ => true
  | .hngMoveCover _ _ _ => true
  | .hngMoveRetire _ _ _ => true
  | .hngMoveCalibrate _ _ _ => true
  | .spareRetire _ _ => true
  | .spareRestore _ _ => true
  | .hingeDischargeDone _ => true
  | .hingeSettled _ => true
  | .dwellEnd _ => true
  | .hngCommitToSpare _ _ _ => true
  | .hngCommitBack _ _ _ => true
  | .handover _ => true
  | .spareUseSafePoint _ => true
  | .blockSelfFail _ => true
  | .blockReset _ _ => true
  | .delayChange _ _ => true
  | .fltSwap _ _ _ => true
  | .fltSwapForce _ _ _ => true
  | .fadeEnd _ _ _ => true
  | .recordBlock => true
  | .recSync => true
  | .crecRestart _ => true
  | .accept => true
  | .tbTrigger => true
  | .trellisDecision => true
  | .tbDrive => true
  | .slotAllocation => true
  | .trgEvtLoad => true
  | .trgClrDt => true
  | .snapArm _ _ => true
  | .snapFreeze _ _ => true
  | .snapRelease _ _ => true
  | .snapFrozen _ => true
  | .extractionStart _ _ _ => true
  | .ringScrub _ _ => true
  | .diagRingRead _ _ _ _ _ _ => true
  | .fragmentAssembly _ => true
  | .unitSent _ => true
  | .slotRelease _ => true
  | .eventClose _ => true
  | .regionReset _ _ => true
  | .regionResetEffect _ => true
  | .leafFragmentComplete _ _ => true
  | .tdcHit _ _ _ _ => true
  | .tdcEnableChange _ _ => true
  | .cdSnapshot _ _ _ => true
  | .cdTableComplete _ => true
  | .tinFifoPop _ _ => true
  | .tdcLastRead _ _ _ => true
  | .ivlArm _ _ => true
  | .ivlCancel _ _ => true
  | .ivlFirstEdge _ _ _ => true
  | .ivlResult _ _ => true
  | .ivlOvf _ => true
  | .rttMeasureStart => true
  | .rttEchoReply _ => true
  | .rttTimeout => true
  | .frqStart _ => true
  | .frqCancel _ => true
  | .frqDone _ _ => true
  | .frqNoEdge _ => true
  | .monScanStart => true
  | .monConversionDone _ _ => true
  | .monResultRelease _ => true
  | .monUrgentGo _ _ => true
  | .monForward => true
  | .monWindowCrossing _ => true
  | .monWindowRearm _ => true
  | .excChange _ => true
  | .excBlankEnd _ => true
  | .excComplianceLoss _ _ => true
  | .excComplianceReturn _ => true
  | .monCalibration _ _ _ _ => true
  | .calRefCheck _ _ => true
  | .calEngineStart _ _ => true
  | .calPhaseEnd _ _ _ => true
  | .calSweep _ => true
  | .calReq _ _ _ => true
  | .calTempCheck => true
  | .calAgeExpiry _ _ => true
  | .calStrobe => true
  | .calPulseInject => true
  | .laneEnable _ _ => true
  | .laneDisable _ _ => true
  | .laneRetrain _ _ => true
  | .laneLoop _ _ _ => true
  | .trainBackoffEnd _ => true
  | .signalDetectRise _ => true
  | .trainCommaFound _ => true
  | .trainSymbolLock _ => true
  | .trainFrameLock _ => true
  | .trainEqDone _ eyes => eyes.length == 32
  | .trainIdentDone _ => true
  | .trainTimeout _ => true
  | .laneSignalLoss _ _ => true
  | .laneFrameLockLoss _ => true
  | .eyeUpdate _ _ => true
  | .ulTxFault _ => true
  | .ulAckTimeout _ => true
  | .ulSpareTakeover _ => true
  | .ulPlannedMove _ _ => true
  | .ulPlannedMoveDone _ => true
  | .ulRelock _ => true
  | .lanePllLockLoss => true
  | .lanePllLock => true
  | .uplinkFrame _ => true
  | .dlFrame a b => rxOkIf a && rxOkIf b
  | .echo _ _ => true
  | .hardReset => true
  | .runStart => true
  | .runStop => true
  | .apply => true
  | .wake _ => true
  | .dlReadInc _ _ _ _ _ => true
  | .dlReadFix _ _ _ _ _ => true
  | .dlWriteInc _ _ _ _ _ _ => true
  | .dlWriteFix _ _ _ _ _ _ => true
  | .dlModify _ _ _ _ _ _ _ => true
  | .ulAck _ => true
  | .laneBad _ => true
  | .resend _ _ => true
  | .hostIdent _ _ _ => true
  | .ulIdentAck _ => true
  | .hrstArm _ => true
  | .hrstArmExpire => true
  | .spokeUpstreamFrame _ f => rxOk f
  | .leafIdent _ words => words.length == 7
  | .leafReply _ _ _ _ => true
  | .leafAlarm _ _ => true
  | .leafRecord _ _ _ _ => true
  | .hubIdentResend _ => true
  | .leafSync _ _ => true
  | .leafSyncDone _ => true
  | .leafReset _ _ => true
  | .leafPresent _ => true
  | .leafWindowAccess _ addr ops => windowOk addr ops
  | .leafRequestTimeout _ => true
  | .leafBcastGo _ => true
  | .leafHoldExpire _ => true
  | .leafForwardCommand _ _ => true
  | .leafIsolationCheck => true
  | .cfgBegin _ => true
  | .cfgDiscard _ => true
  | .cfgArm _ => true
  | .cfgCancel _ => true
  | .cfgApplyNow _ => true
  | .cfgLoadData _ _ => true
  | .cfgLoadStall => true
  | .cfgVerifyDone _ => true
  | .cfgArmDecision => true
  | .cfgApplyEffect _ => true
  | .cfgScrub _ _ _ _ => true
  | .sesChallenge _ _ => true
  | .sesRespond _ => true
  | .sesClose _ => true
  | .nonceExpire _ => true
  | .sessionIdleTimeout _ => true
  | .featAcceptWrite _ _ _ => true
  | .sesKeyProgram _ _ _ => true
  | .sesKeyProgramDone _ => true
  | .sesKeyRevoke _ _ => true
  | .portReadInc _ _ => true
  | .portReadFix _ _ => true
  | .portWriteInc _ _ _ => true
  | .portWriteFix _ _ _ => true
  | .portTransactionEnd _ => true
  | .portCut _ => true
  | .portOverclock => true
  | .flashDiscovery _ => true
  | .flashWindowRead _ _ => true
  | .flashLineFetchDone _ bytes => bytes.length == 64
  | .flashEngineCommand => true
  | .flashEngineDone => true
  | .keepaliveAbsent _ => true
  | .keeperless => true
  | .heartbeatAbsent _ => true
  | .haspClaim _ => true
  | .keeperTakeoverComplete => true
  | .keeperHalt _ _ => true
  | .pathFaultClear _ => true
  | .journalEntry _ => true
  | .checkpointStart => true
  | .checkpointCommit _ _ => true
  | .standbyLost => true
  | .keeperCommandCommit _ => true
  | .keeperMarchStep _ _ _ => true
  | .keeperInstrCheck _ _ => true
  | .keeperReset _ _ => true
  | .keeperRejoinTimeout _ => true
  | .keeperSwap _ => true
  | .keeperBooted _ _ => true
  | .updBegin _ => true
  | .updEraseDone _ => true
  | .updData _ _ => true
  | .updEnd _ => true
  | .updVerifyDone _ _ _ _ => true
  | .updProve _ => true
  | .updProveDone _ => true
  | .updProveTimeout => true
  | .updComplete _ => true
  | .updFinishDone _ => true
  | .updAbort _ => true
  | .pwrGo _ _ => true
  | .pwrTransition => true
  | .pwrChipReset _ _ => true
  | .cellReset _ _ _ => true
  | .supplyBad _ => true
  | .supplyGood => true
  | .resetPin => true
  | .bootComplete _ => true
  | .bootTimeout => true
  | .pwrSupplyMeasure mv => mv.length == 5
  | .gzbEnter _ => true
  | .gzbMonPulse => true
  | .gzbMonEvaluate _ _ _ _ => true
  | .gazeboWake _ => true
  | .gzbOscReturn => true
  | .dlWakeListen _ => true
  | .tapReset => true
  | .extest => true
  | .samplePreload _ => true
  | .highz => true
  | .clamp => true
  | .extestPulse => true
  | .extestTrain => true
  | .bypass => true
  | .samplePeriod _ _ => true

end Sys2Proof
end

