-- ==== Sys2Proof/Machine/Align.lean ====
section
/-! DEFINITION. Alignment and orangery commands (02): the meaning of each. -/

namespace Sys2Proof.Machine

/-- COMPUTE is written (R46, R48). -/
def execAlignCompute (m : Fin 4) (s : State) : Host.Outcome State Fault Refusal :=
  s.actAwake fun h => h.writeTo m TIME_ALIGN_CTRL 1

/-- ARM is written (R49). -/
def execAlignArm (m : Fin 4) (s : State) : Host.Outcome State Fault Refusal :=
  s.actAwake fun h => h.writeTo m TIME_ALIGN_CTRL 2

/-- CANCEL is written (R64). -/
def execAlignCancel (m : Fin 4) (s : State) : Host.Outcome State Fault Refusal :=
  s.actAwake fun h => h.writeTo m TIME_ALIGN_CTRL 4

/-- The armed BX begins (R49 to R51, R170, R176, R375). -/
def execAlignApply (s : State) : Host.Outcome State Fault Refusal :=
  s.actAwake fun h => h.alignTake

/-- ORG_CTRL is written (R57, R65). -/
def execOrgCtrlWrite (m : Fin 4) (en : Bool) (setpoint : BitVec 10) (s : State) : Host.Outcome State Fault Refusal
    :=
  s.actAwake fun h => h.writeTo m ORG_CTRL (b2n en * 2 ^ 16 + setpoint.toNat)

/-- The island has been within ±0.05 K for 10 ms (R55). -/
def execOrgWarmAssert (s : State) : Host.Outcome State Fault Refusal :=
  s.actAwake fun h => h.warmAssert

/-- The island has been outside ±0.05 K for 1 ms (R55). -/
def execOrgWarmDeassert (s : State) : Host.Outcome State Fault Refusal :=
  s.actAwake fun h => h.warmDeassert.skewsCold

end Sys2Proof.Machine
end

