-- ==== Sys2Proof/Machine/Bus.lean ====
section
/-! DEFINITION. Bus, alarm and queue commands (01, 18): the meaning of each. -/

namespace Sys2Proof.Machine

/-- A master writes one register (R6). -/
def execRegisterWrite (m : Fin 4) (addr v : Word) (s : State) : Host.Outcome State Fault Refusal :=
  s.actAwake fun h => h.busWrite m addr.toNat v.toNat

/-- A master reads the +0 half of a 64-bit value, which loads its shadow (R447). -/
def execRead64Low (m : Fin 4) (addr : Word) (s : State) : Host.Outcome State Fault Refusal :=
  s.actAwake fun h => h.busRead m addr.toNat

/-- A master writes +0 and +4 of a 64-bit value, which acts as one write (R448). -/
def execWrite64Pair (m : Fin 4) (addr lo hi : Word) (s : State) : Host.Outcome State Fault Refusal :=
  s.actAwake fun h => h.act m addr.toNat [.write lo.toNat, .write hi.toNat]

/-- The alarm forwarder sends the oldest record of the ALARM queue (R15). -/
def execAlarmForward (s : State) : Host.Outcome State Fault Refusal :=
  s.actAwake fun h => h.alarmForward

/-- The active keeper sends KEEPER_HEALTH (R17). -/
def execKeeperHealth (s : State) : Host.Outcome State Fault Refusal :=
  s.actAwake fun h => h.keeperHealth

/-- The active keeper sends the SUMMARY units of 10 ms (R17). -/
def execSummary (s : State) : Host.Outcome State Fault Refusal :=
  s.actAwake fun h => h.summary

/-- A producer pushes a word with its MARK; `pop`: a pop is coincident (R487). -/
def execQueuePush (q : Fin 8) (data : Word) (mark pop : Bool) (s : State) : Host.Outcome State Fault Refusal :=
  s.actAwake fun h => h.qPush q data.toNat mark pop

/-- A consumer pops a word, which `err` says how it checks (R486, R489, R490). -/
def execQueuePop (q : Fin 8) (err : QErr) (s : State) : Host.Outcome State Fault Refusal :=
  s.actAwake fun h => h.queuePop q err

/-- Q_CTRL.FLUSH is written (R491). -/
def execQueueFlush (m : Fin 4) (q : Fin 8) (s : State) : Host.Outcome State Fault Refusal :=
  s.actAwake fun h => h.writeTo m (Q_CTRL q) 1

end Sys2Proof.Machine
end

