-- ==== Sys2Proof/Machine/Calibration.lean ====
section
/-! DEFINITION. Calibration commands (10): the meaning of each. -/

namespace Sys2Proof.Machine

/-- vref_cal is compared, every 1 ms or at a step of a block's calibration (R285, R291). -/
def execCalRefCheck (step : Option (Fin 24)) (bad : Bool) (s : State) : Host.Outcome State Fault Refusal :=
  s.actAwake fun h => h.calRefCheck (step.map Fin.val) bad

/-- The keeper starts the block's engine (R287). -/
def execCalEngineStart (j : Fin 24) (c : Fin 17) (s : State) : Host.Outcome State Fault Refusal :=
  s.actAwake fun h => h.calStart j c

/-- A calibration phase completes with its sums (R287 to R290) or its skew difference (R297). -/
def execCalPhaseEnd (j : Fin 24) (sums : StepSums) (diff : Int) (s : State) : Host.Outcome State Fault Refusal :=
  s.actAwake fun h => h.calPhaseEnd j sums diff

/-- CAL_CTRL.SWEEP is executed as a keeper command (R293, R471). -/
def execCalSweep (m : Fin 4) (s : State) : Host.Outcome State Fault Refusal :=
  s.actAwake fun h => h.serve m CAL_CTRL (!h.on CAL_CTRL_SWEEP) .sweep

/-- CAL_REQ is executed as a keeper command (R294, R471). -/
def execCalReq (m : Fin 4) (j : Fin 24) (c : Fin 17) (s : State) : Host.Outcome State Fault Refusal :=
  s.actAwake fun h => h.serve m CAL_REQ true (.calReq j c)

/-- The keepers queue cells whose region has moved (R293, R295). -/
def execCalTempCheck (s : State) : Host.Outcome State Fault Refusal :=
  s.actAwake fun h => h.calTempCheck

/-- MAX_AGE_S has passed since the cell's acceptance (R293). -/
def execCalAgeExpiry (j : Fin 24) (c : Fin 17) (s : State) : Host.Outcome State Fault Refusal :=
  s.actAwake fun h => h.calAge j c

/-- The CAL_STROBE fast command acts (R299). -/
def execCalStrobe (s : State) : Host.Outcome State Fault Refusal :=
  s.actAwake fun h => h.fcGate DL_FC_EN_CAL_STROBE Hub.calStrobe

/-- The BX of a scheduled test pulse begins (R299). -/
def execCalPulseInject (s : State) : Host.Outcome State Fault Refusal :=
  s.actAwake fun h => h.calPulse

end Sys2Proof.Machine
end

