-- ==== Sys2Proof/Machine/Cells.lean ====
section
/-! DEFINITION. Commands of the signal cells (03): the meaning of each. -/

namespace Sys2Proof.Machine

/-- GAIN_MODE, AAF_BW, TERM and the trims take effect (R70, R76). -/
def execCellFrontEndChange (j : Fin 24) (c : Fin 17) (s : State) : Host.Outcome State Fault Refusal :=
  s.actAwake fun h => h.takeFrontEnd j c

/-- CELL_CTRL.EN takes effect (R77). -/
def execCellEnableChange (j : Fin 24) (c : Fin 17) (s : State) : Host.Outcome State Fault Refusal :=
  s.actAwake fun h => h.takeEnable j c

/-- A converter of the cell shows a redundancy error (R83, R84). -/
def execCellRedundError (j : Fin 24) (c : Fin 17) (s : State) : Host.Outcome State Fault Refusal :=
  s.actAwake fun h => if h.sampling then h.redundError j c else h

/-- A 1 ms health window ends (R84). -/
def execCellHealthWindowEnd (j : Fin 24) (c : Fin 17) (s : State) : Host.Outcome State Fault Refusal :=
  s.actAwake fun h => h.healthWindow j c

/-- CELL_HEALTH.CLEAR is written (R84, R94). -/
def execCellHealthClear (m : Fin 4) (j : Fin 24) (c : Fin 17) (s : State) : Host.Outcome State Fault Refusal :=
  s.actAwake fun h => h.writeTo m (CELL_HEALTH j c) 0x8000

/-- CELL_DISC.EN takes effect with the signal at `level`, a high-gain code (R80, R81). -/
def execDiscEnableChange (j : Fin 24) (c : Fin 16) (level : Int) (s : State) : Host.Outcome State Fault Refusal :=
  s.actAwake fun h => h.takeDiscEnable j c level

/-- THRESH, HYST and POL take effect; at the end of the blanked sample period the signal is at `level` (R80, R82).
-/
def execDiscSettingsChange (j : Fin 24) (c : Fin 16) (level : Int) (s : State) : Host.Outcome State Fault Refusal :=
  s.actAwake fun h => h.takeDiscSettings j c level

end Sys2Proof.Machine
end

