-- ==== Sys2Proof/Machine/Clock.lean ====
section
/-! DEFINITION. Commands of the time base (02): the meaning of each. -/

namespace Sys2Proof.Machine

/-- The CONTROL oscillator stops and its duplicate takes over (R19). -/
def execCtlOscSwap (s : State) : Host.Outcome State Fault Refusal :=
  s.actAwake fun h => h.ctlOscSwap

/-- The gazebo oscillator stops outside GAZEBO (R19). -/
def execGzbStop (s : State) : Host.Outcome State Fault Refusal :=
  s.act fun h => h.gzbStop

/-- The end of a BX in which the selected downlink failed (R28). -/
def execDownlinkSwitch (s : State) : Host.Outcome State Fault Refusal :=
  s.actAwake fun h => h.downlinkSwitch

/-- The preferred downlink has been good for 1 s (R31). -/
def execDownlinkRevert (s : State) : Host.Outcome State Fault Refusal :=
  s.actAwake fun h => h.downlinkRevert

/-- The BX boundary at which a changed DL_SEL takes effect (R32). -/
def execClkDlSelWrite (s : State) : Host.Outcome State Fault Refusal :=
  s.actAwake fun h => h.takePolicy

/-- HOLD_FORCE is set or cleared (R59). -/
def execClkHoldForce (m : Fin 4) (on : Bool) (s : State) : Host.Outcome State Fault Refusal :=
  s.actAwake fun h => h.writeTo m CLK_CTRL (setBits (setBits (h.rd CLK_CTRL.addr) 7 7 0) 3 3 (b2n on))

/-- CLK_CTRL.RELOCK is written (R34). -/
def execClkRelock (m : Fin 4) (s : State) : Host.Outcome State Fault Refusal :=
  s.actAwake fun h => h.writeTo m CLK_CTRL (setBits (h.rd CLK_CTRL.addr) 7 7 1)

/-- The planned re-lock completes (R34). -/
def execRelockDone (s : State) : Host.Outcome State Fault Refusal :=
  s.actAwake fun h => h.relockDone

/-- The ocxo_warm input changes level (R33). -/
def execOcxoWarmChange (warm : Bool) (s : State) : Host.Outcome State Fault Refusal :=
  s.act fun h => h.ocxoLevel warm

/-- ocxo_clk shows no edge for 1 µs (R19, R33, R39). -/
def execRefLost (s : State) : Host.Outcome State Fault Refusal :=
  s.actAwake fun h => h.refLostAll

/-- ocxo_clk is measured at `hz` against the recovered BXC (R33). -/
def execRefFreqCheck (hz : Word) (s : State) : Host.Outcome State Fault Refusal :=
  s.actAwake fun h => h.refFreqCheck hz.toNat

/-- REF_COLD clears once no condition of R33 holds (R34). -/
def execRefColdClear (s : State) : Host.Outcome State Fault Refusal :=
  s.actAwake fun h => h.refreshRef

/-- Edges return on ocxo_clk (R39). -/
def execRefReturn (s : State) : Host.Outcome State Fault Refusal :=
  s.actAwake fun h => h.refReturn

/-- No downlink was good 100 ms after boot step 1 (R35). -/
def execLocalModeEnter (s : State) : Host.Outcome State Fault Refusal :=
  s.actAwake fun h => h.localEnter

/-- A downlink with BXC `hz` becomes good in local mode (R35). -/
def execLocalModeExit (hz : Word) (s : State) : Host.Outcome State Fault Refusal :=
  s.actAwake fun h => h.localExit hz.toNat

/-- 100 ms of holdover have passed (R37). -/
def execHoldoverLong (s : State) : Host.Outcome State Fault Refusal :=
  s.actAwake fun h => h.holdoverLong

/-- A good downlink is available in holdover, `err` ps away in phase (R38). -/
def execHoldoverExit (err : Int) (s : State) : Host.Outcome State Fault Refusal :=
  s.actAwake fun h => h.holdoverExit err

/-- The slew to the downlink completes (R38). -/
def execHoldoverSlewDone (s : State) : Host.Outcome State Fault Refusal :=
  s.actAwake fun h => h.slewDone

/-- The BX boundary of a phase step (R38). -/
def execHoldoverPhaseStep (s : State) : Host.Outcome State Fault Refusal :=
  s.actAwake fun h => h.phaseStep

/-- The PLL has been locked for 10 s with REF_COLD = 0 (R36). -/
def execHoldoverQualified (s : State) : Host.Outcome State Fault Refusal :=
  s.actAwake fun h => h.holdoverQualified

/-- The MACHINE PLL first locks after reset, to a BXC of `hz` (R60, R146). -/
def execMachinePllLock (hz : Word) (s : State) : Host.Outcome State Fault Refusal :=
  s.actAwake fun h => h.pllLock hz.toNat

/-- The BX_SET fast command acts (R40 to R42, R183, R358, R407). -/
def execBxSet (s : State) : Host.Outcome State Fault Refusal :=
  s.actAwake fun h => h.bxSet

end Sys2Proof.Machine
end

