-- ==== Sys2Proof/Machine/Config.lean ====
section
/-! DEFINITION. Configuration commands (14): the meaning of each. -/

namespace Sys2Proof.Machine

/-- CFG_CTRL.BEGIN is written (R401). -/
def execCfgBegin (m : Fin 4) (s : State) : Host.Outcome State Fault Refusal :=
  s.actAwake fun h => h.writeTo m CFG_CTRL 1

/-- CFG_CTRL.DISCARD is written (R401). -/
def execCfgDiscard (m : Fin 4) (s : State) : Host.Outcome State Fault Refusal :=
  s.actAwake fun h => h.writeTo m CFG_CTRL 2

/-- CFG_CTRL.ARM is written (R407). -/
def execCfgArm (m : Fin 4) (s : State) : Host.Outcome State Fault Refusal :=
  s.actAwake fun h => h.writeTo m CFG_CTRL 4

/-- CFG_CTRL.CANCEL is written (R407). -/
def execCfgCancel (m : Fin 4) (s : State) : Host.Outcome State Fault Refusal :=
  s.actAwake fun h => h.writeTo m CFG_CTRL 8

/-- CFG_CTRL.APPLY_NOW is written (R404, R407). -/
def execCfgApplyNow (m : Fin 4) (s : State) : Host.Outcome State Fault Refusal :=
  s.actAwake fun h => h.writeTo m CFG_CTRL 16

/-- A word is written to CFG_LOAD_DATA (R401). -/
def execCfgLoadData (m : Fin 4) (v : Word) (s : State) : Host.Outcome State Fault Refusal :=
  s.actAwake fun h => h.writeTo m CFG_LOAD_DATA v.toNat

/-- No word has come for 1 s (R402). -/
def execCfgLoadStall (s : State) : Host.Outcome State Fault Refusal :=
  s.actAwake fun h => h.cfgStall

/-- Verification completes; `differs`: a replica read back differs (R403). -/
def execCfgVerifyDone (differs : Bool) (s : State) : Host.Outcome State Fault Refusal :=
  s.actAwake fun h => h.verifyDone differs

/-- The last cycle before the armed BX (R404). -/
def execCfgArmDecision (s : State) : Host.Outcome State Fault Refusal :=
  s.actAwake fun h => h.cfgArmDecision

/-- The first cycle of the apply BX; `levels`: the signals at the discriminators of cells (R80, R81, R405). -/
def execCfgApplyEffect (levels : List (Fin 408 × Int)) (s : State) : Host.Outcome State Fault Refusal :=
  s.actAwake fun h => h.applyEffect (levels.map fun p => (p.1.val, p.2))

/-- The scrubber has visited a frame (R399, R400). -/
def execCfgScrub (f : FrameId) (shadow rewrote : Bool) (upset : Option (List (Fin 32 × Word))) (s : State) :
    Host.Outcome State Fault Refusal :=
  s.actAwake fun h =>
    h.cfgScrub (frameAddress f) shadow rewrote (upset.map fun l => l.map fun p => (p.1.val, p.2.toNat))

end Sys2Proof.Machine
end

