-- ==== Sys2Proof/Machine/Downlink.lean ====
section
/-! DEFINITION. Downlink frames, fast commands and items (12): the meaning of each. -/

namespace Sys2Proof.Machine

/-- The frames of one BX on both downlinks (R28, R29, R330, R337; in GAZEBO R503). -/
def execDlFrame (a b : Option RxFrame) (s : State) : Host.Outcome State Fault Refusal :=
  if rxOkIf a && rxOkIf b then s.act fun h => h.dlReceive (a.map lineFrameOf) (b.map lineFrameOf)
  else .fault .illFormed

/-- A frame with CODE ECHO and an ECHO item with number `n` (R348). -/
def execEcho (n ps : Word) (s : State) : Host.Outcome State Fault Refusal :=
  s.actAwake fun h => h.echo n.toNat ps.toNat

/-- The HARD_RESET fast command is decoded (R335). -/
def execHardReset (s : State) : Host.Outcome State Fault Refusal :=
  s.actAwake fun h => h.hardReset

/-- The RUN_START fast command acts (R334). -/
def execRunStart (s : State) : Host.Outcome State Fault Refusal :=
  s.actAwake fun h => h.fcGate DL_FC_EN_RUN_START Hub.runStart

/-- The RUN_STOP fast command acts (R334). -/
def execRunStop (s : State) : Host.Outcome State Fault Refusal :=
  s.actAwake fun h => h.fcGate DL_FC_EN_RUN_STOP Hub.runStop

/-- The APPLY fast command acts (R404, R408). -/
def execApply (s : State) : Host.Outcome State Fault Refusal :=
  s.actAwake fun h => h.fcGate DL_FC_EN_APPLY Hub.cfgApplyFast

/-- A good frame with CODE WAKE on downlink `d`; outside GAZEBO it has no effect (R334, R503). -/
def execWake (d : Fin 2) (s : State) : Host.Outcome State Fault Refusal :=
  s.act fun h => h.wakeFrame d

/-- READ_INC of COUNT + 1 registers (R342, R343). -/
def execDlReadInc (mode : Fin 3) (target tag : BitVec 8) (addr : Word) (count : Fin 64) (s : State) : Host.Outcome
    State Fault Refusal :=
  s.actAwake fun h => h.dlRead mode target.toNat tag.toNat addr.toNat (count + 1) false

/-- READ_FIX of one address COUNT + 1 times (R342). -/
def execDlReadFix (mode : Fin 3) (target tag : BitVec 8) (addr : Word) (count : Fin 64) (s : State) : Host.Outcome
    State Fault Refusal :=
  s.actAwake fun h => h.dlRead mode target.toNat tag.toNat addr.toNat (count + 1) true

/-- WRITE_INC of COUNT + 1 registers (R342). -/
def execDlWriteInc (mode : Fin 3) (target tag : BitVec 8) (addr : Word) (count : Fin 64) (data : List Word) (s :
    State) : Host.Outcome State Fault Refusal :=
  s.actAwake fun h => h.dlWrite mode target.toNat tag.toNat addr.toNat (count + 1) (nats data) false

/-- WRITE_FIX of one address COUNT + 1 times (R342). -/
def execDlWriteFix (mode : Fin 3) (target tag : BitVec 8) (addr : Word) (count : Fin 64) (data : List Word) (s :
    State) : Host.Outcome State Fault Refusal :=
  s.actAwake fun h => h.dlWrite mode target.toNat tag.toNat addr.toNat (count + 1) (nats data) true

/-- MODIFY (R342, R541). -/
def execDlModify (mode : Fin 3) (target tag : BitVec 8) (addr : Word) (count : Fin 64) (mask v : Word) (s : State) :
    Host.Outcome State Fault Refusal :=
  s.actAwake fun h => h.dlModify mode target.toNat tag.toNat addr.toNat count mask.toNat v.toNat

/-- An UL_ACK item, lane and count of each word (R346). -/
def execUlAck (acks : List (Fin 12 × BitVec 16)) (s : State) : Host.Outcome State Fault Refusal :=
  s.actAwake fun h => acks.foldl (fun h a => h.ulAck a.1 a.2.toNat) h

/-- A LANE_BAD item (R317, R346). -/
def execLaneBad (l : BitVec 4) (s : State) : Host.Outcome State Fault Refusal :=
  s.actAwake fun h => h.laneBad l.toNat

/-- A RESEND item (R347). -/
def execResend (l : BitVec 4) (first : Word) (s : State) : Host.Outcome State Fault Refusal :=
  s.actAwake fun h => h.resend l.toNat first.toNat

/-- A HOST_IDENT item on downlink `d` (R315, R346). -/
def execHostIdent (d : Fin 2) (id : Word) (sentOn : Fin 2) (s : State) : Host.Outcome State Fault Refusal :=
  s.actAwake fun h => h.hostIdent d id.toNat sentOn

/-- An UL_IDENT_ACK item (R315). -/
def execUlIdentAck (l : BitVec 4) (s : State) : Host.Outcome State Fault Refusal :=
  s.actAwake fun h => h.ulIdentAck l.toNat

/-- DL_HRST_ARM.ARM is written (R335). -/
def execHrstArm (m : Fin 4) (s : State) : Host.Outcome State Fault Refusal :=
  s.actAwake fun h => h.writeTo m DL_HRST_ARM 1

/-- 1 s has passed since the arming (R335). -/
def execHrstArmExpire (s : State) : Host.Outcome State Fault Refusal :=
  s.actAwake fun h => h.hrstExpire

end Sys2Proof.Machine
end

