-- ==== Sys2Proof/Machine/Events.lean ====
section
/-! DEFINITION. Event building commands (06, 07): the meaning of each. -/

namespace Sys2Proof.Machine

/-- The blocks extract the event of slot `k`; `errs` and `lost` are the memory errors met in rings and hit stores
(R167, R186, R187). -/
def execExtractionStart (k : Fin 128) (errs : List RingError) (lost : List HitError) (s : State) : Host.Outcome
    State Fault Refusal :=
  s.actAwake fun h => h.extractionStart k (errs.map eccErr) (lost.map hitErr)

/-- The block arbiter scrubs one group; `err`: an error found, and whether it cannot be corrected (R165). -/
def execRingScrub (j : Fin 24) (err : Option Bool) (s : State) : Host.Outcome State Fault Refusal :=
  s.actAwake fun h => h.ringScrub j err

/-- A diagnostic read of a ring requests a grant; `corrected` and `lost` are the groups it reads with an error that
could be corrected, and with one that could not (R164, R166, R216, R230). -/
def execDiagRingRead (m : Fin 4) (j : Fin 24) (c : Fin 17) (w : Fin 1024) (corrected lost : List RingGroup) (s :
    State) : Host.Outcome State Fault Refusal :=
  s.actAwake fun h => h.diagRingRead m j c w (groupErrs corrected lost)

/-- The region assembles a fragment (R217). -/
def execFragmentAssembly (g : Fin 6) (s : State) : Host.Outcome State Fault Refusal :=
  s.actAwake fun h => h.assemblyTurn g

/-- A unit of requester `k` has left (R221). -/
def execUnitSent (k : Fin 14) (s : State) : Host.Outcome State Fault Refusal :=
  s.actAwake fun h => h.unitSent k

/-- The release handshake of a slot (R221). -/
def execSlotRelease (k : Fin 128) (s : State) : Host.Outcome State Fault Refusal :=
  s.actAwake fun h => h.slotRelease k

/-- A slot has exceeded EVT_SLOT_TIMEOUT (R224). -/
def execEventClose (k : Fin 128) (s : State) : Host.Outcome State Fault Refusal :=
  s.actAwake fun h => h.eventClose k

/-- RGN_CTRL.RESET is written (R225). -/
def execRegionReset (m : Fin 4) (g : Fin 6) (s : State) : Host.Outcome State Fault Refusal :=
  s.actAwake fun h => h.writeTo m (RGN_CTRL g) (setBits (h.rd (RGN_CTRL g).addr) 2 2 1)

/-- The region reset takes effect (R225). -/
def execRegionResetEffect (g : Fin 6) (s : State) : Host.Outcome State Fault Refusal :=
  s.actAwake fun h => h.regionResetEffect g

/-- The leaf fragment of a slot and spoke is completed (R215, R378). -/
def execLeafFragmentComplete (k : Fin 128) (sp : Fin 16) (s : State) : Host.Outcome State Fault Refusal :=
  s.actAwake fun h => h.leafFragment k sp

end Sys2Proof.Machine
end

