-- ==== Sys2Proof/Machine/Filter.lean ====
section
/-! DEFINITION. Commands of the filter chain (05): the meaning of each. -/

namespace Sys2Proof.Machine

/-- CELL_DLY takes effect (R132, R133). -/
def execDelayChange (j : Fin 24) (c : Fin 16) (s : State) : Host.Outcome State Fault Refusal :=
  s.actAwake fun h => h.takeDelay j c

/-- A SWAP with FORCE = 0 is taken up (R147, R148). -/
def execFltSwap (record : Bool) (j : Fin 24) (c : Fin 16) (s : State) : Host.Outcome State Fault Refusal :=
  s.actAwake fun h => h.swapTake (stageOf record) j c false

/-- A SWAP with FORCE = 1 is taken up (R148). -/
def execFltSwapForce (record : Bool) (j : Fin 24) (c : Fin 16) (s : State) : Host.Outcome State Fault Refusal :=
  s.actAwake fun h => h.swapTake (stageOf record) j c true

/-- A fade has given all its outputs (R147). -/
def execFadeEnd (record : Bool) (j : Fin 24) (c : Fin 16) (s : State) : Host.Outcome State Fault Refusal :=
  s.actAwake fun h => h.fadeEnd (stageOf record) j c

/-- A record output instant (R150, R152). -/
def execRecordBlock (s : State) : Host.Outcome State Fault Refusal :=
  s.actAwake fun h => h.recordBlock

/-- The REC_SYNC fast command acts (R145). -/
def execRecSync (s : State) : Host.Outcome State Fault Refusal :=
  s.actAwake fun h => h.recSync

/-- CREC_CTRL.RESTART is written (R146). -/
def execCrecRestart (m : Fin 4) (s : State) : Host.Outcome State Fault Refusal :=
  s.actAwake fun h => h.writeTo m CREC_CTRL 1

end Sys2Proof.Machine
end

