-- ==== Sys2Proof/Machine/Hinge.lean ====
section
/-! DEFINITION. Commands of the spares and hinges (04): the meaning of each. -/

namespace Sys2Proof.Machine

/-- HNG_MOVE SHADOW is written (R112). -/
def execHngMoveShadow (m : Fin 4) (j : Fin 24) (t : BitVec 5) (s : State) : Host.Outcome State Fault Refusal :=
  s.actAwake fun h => h.writeTo m (HNG_MOVE j) (useShadow * 256 + t.toNat)

/-- HNG_MOVE COVER is written (R112). -/
def execHngMoveCover (m : Fin 4) (j : Fin 24) (t : BitVec 5) (s : State) : Host.Outcome State Fault Refusal :=
  s.actAwake fun h => h.writeTo m (HNG_MOVE j) (useCover * 256 + t.toNat)

/-- HNG_MOVE RETIRE is written (R112). -/
def execHngMoveRetire (m : Fin 4) (j : Fin 24) (t : BitVec 5) (s : State) : Host.Outcome State Fault Refusal :=
  s.actAwake fun h => h.writeTo m (HNG_MOVE j) (useRetire * 256 + t.toNat)

/-- HNG_MOVE CALIBRATE is written (R112). -/
def execHngMoveCalibrate (m : Fin 4) (j : Fin 24) (t : BitVec 5) (s : State) : Host.Outcome State Fault Refusal :=
  s.actAwake fun h => h.writeTo m (HNG_MOVE j) (useCalibrate * 256 + t.toNat)

/-- HNG_MOVE RETIRE with TARGET 16 is written (R118). -/
def execSpareRetire (m : Fin 4) (j : Fin 24) (s : State) : Host.Outcome State Fault Refusal :=
  s.actAwake fun h => h.writeTo m (HNG_MOVE j) (useRetire * 256 + 16)

/-- HNG_MOVE SHADOW with TARGET 16 is written (R118). -/
def execSpareRestore (m : Fin 4) (j : Fin 24) (s : State) : Host.Outcome State Fault Refusal :=
  s.actAwake fun h => h.writeTo m (HNG_MOVE j) (useShadow * 256 + 16)

/-- The discharge of a move ends (R100). -/
def execHingeDischargeDone (j : Fin 24) (s : State) : Host.Outcome State Fault Refusal :=
  s.actAwake fun h => h.dischargeDone j

/-- The settling of a move ends (R100, R102, R112). -/
def execHingeSettled (j : Fin 24) (s : State) : Host.Outcome State Fault Refusal :=
  s.actAwake fun h => h.hingeSettled j

/-- A dwell ends (R103 to R105). -/
def execDwellEnd (j : Fin 24) (s : State) : Host.Outcome State Fault Refusal :=
  s.actAwake fun h => h.dwellEnd j

/-- HNG_COMMIT TO_SPARE is written (R110). -/
def execHngCommitToSpare (m : Fin 4) (j : Fin 24) (c : Fin 16) (s : State) : Host.Outcome State Fault Refusal :=
  s.actAwake fun h => h.writeTo m (HNG_COMMIT j) c

/-- HNG_COMMIT BACK is written (R110). -/
def execHngCommitBack (m : Fin 4) (j : Fin 24) (c : Fin 16) (s : State) : Host.Outcome State Fault Refusal :=
  s.actAwake fun h => h.writeTo m (HNG_COMMIT j) (256 + c)

/-- The BX boundary of a handover (R107 to R111). -/
def execHandover (j : Fin 24) (s : State) : Host.Outcome State Fault Refusal :=
  s.actAwake fun h => h.handover j

/-- The use being ended reaches its safe point (R113). -/
def execSpareUseSafePoint (j : Fin 24) (s : State) : Host.Outcome State Fault Refusal :=
  s.actAwake fun h => h.safePoint j

/-- The block self-check fails (R122). -/
def execBlockSelfFail (j : Fin 24) (s : State) : Host.Outcome State Fault Refusal :=
  s.actAwake fun h => h.selfFail j

/-- BLK_CTRL.RESET is written (R505). -/
def execBlockReset (m : Fin 4) (j : Fin 24) (s : State) : Host.Outcome State Fault Refusal :=
  s.actAwake fun h => h.writeTo m (BLK_CTRL j) (setBits (h.rd (BLK_CTRL j).addr) 1 1 1)

end Sys2Proof.Machine
end

