-- ==== Sys2Proof/Machine/Interval.lean ====
section
/-! DEFINITION. Interval, round-trip and frequency commands (08): the meaning of each. -/

namespace Sys2Proof.Machine

/-- IVL_CTRL.ARM is written (R243). -/
def execIvlArm (m e : Fin 4) (s : State) : Host.Outcome State Fault Refusal :=
  s.actAwake fun h => h.writeTo m (IVL_CTRL e) 1

/-- IVL_CTRL.CANCEL is written (R257). -/
def execIvlCancel (m e : Fin 4) (s : State) : Host.Outcome State Fault Refusal :=
  s.actAwake fun h => h.writeTo m (IVL_CTRL e) 2

/-- An edge at time value `v` is the first of an armed engine that takes it (R243). -/
def execIvlFirstEdge (e : Fin 4) (edge : Edge) (v : BitVec 63) (s : State) : Host.Outcome State Fault Refusal :=
  s.actAwake fun h => h.ivlFirst e edge.source edge.falling v.toNat

/-- An edge is the second of an engine that waits for it (R243, R244). -/
def execIvlResult (e : Fin 4) (x : TimedEdge) (s : State) : Host.Outcome State Fault Refusal :=
  s.actAwake fun h => h.ivlSecond e x.edge.source x.edge.falling x.value.toNat

/-- 2^24 sample periods have passed since the first edge (R244). -/
def execIvlOvf (e : Fin 4) (s : State) : Host.Outcome State Fault Refusal :=
  s.actAwake fun h => h.ivlOvf e

/-- A round-trip measurement is due (R247). -/
def execRttMeasureStart (s : State) : Host.Outcome State Fault Refusal :=
  s.actAwake fun h => h.rttStart

/-- The echo reply arrives `ps` after its request (R246 to R248). -/
def execRttEchoReply (ps : Word) (s : State) : Host.Outcome State Fault Refusal :=
  s.actAwake fun h => h.rttReply ps.toNat

/-- A measurement has no reply after 1 ms (R247). -/
def execRttTimeout (s : State) : Host.Outcome State Fault Refusal :=
  s.actAwake fun h => h.rttTimeout

/-- FRQ_CTRL.START is written (R249). -/
def execFrqStart (m : Fin 4) (s : State) : Host.Outcome State Fault Refusal :=
  s.actAwake fun h => h.writeTo m FRQ_CTRL 1

/-- FRQ_CTRL.CANCEL is written (R259). -/
def execFrqCancel (m : Fin 4) (s : State) : Host.Outcome State Fault Refusal :=
  s.actAwake fun h => h.writeTo m FRQ_CTRL 2

/-- The gate closes after `n` edges and `ticks` units of 1/256 cycle (R249). -/
def execFrqDone (n : Word) (ticks : BitVec 64) (s : State) : Host.Outcome State Fault Refusal :=
  s.actAwake fun h => h.frqDone n.toNat ticks.toNat

/-- No edge opens or closes the gate in time (R250). -/
def execFrqNoEdge (n : Word) (s : State) : Host.Outcome State Fault Refusal :=
  s.actAwake fun h => h.frqNoEdge n.toNat

end Sys2Proof.Machine
end

