-- ==== Sys2Proof/Machine/Keepers.lean ====
section
/-! DEFINITION. Keeper commands (17): the meaning of each. -/

namespace Sys2Proof.Machine

/-- The keepalive has been absent 8 µs; `beat`: the owner's heartbeat came since its last toggle (R462, R465). -/
def execKeepaliveAbsent (beat : Bool) (s : State) : Host.Outcome State Fault Refusal :=
  s.actAwake fun h => h.keepaliveAbsent beat

/-- The keepalive has been absent 40 µs (R459). -/
def execKeeperless (s : State) : Host.Outcome State Fault Refusal :=
  s.actAwake fun h => h.keeperless

/-- Keeper `k` has sent no heartbeat for 30 µs (R463). -/
def execHeartbeatAbsent (k : Fin 2) (s : State) : Host.Outcome State Fault Refusal :=
  s.actAwake fun h => h.heartbeatAbsent k

/-- Keeper A, keeper B, or both in one cycle claim the hasp (R462). -/
def execHaspClaim (who : Claimants) (s : State) : Host.Outcome State Fault Refusal :=
  s.actAwake fun h => h.haspClaims who.a who.b

/-- The new active keeper has restored its state (R464). -/
def execKeeperTakeoverComplete (s : State) : Host.Outcome State Fault Refusal :=
  s.actAwake fun h => h.takeoverDone

/-- Keeper `k` finds an SRAM error, or fails its self-check (R466). -/
def execKeeperHalt (k : Fin 2) (instr : Bool) (s : State) : Host.Outcome State Fault Refusal :=
  s.actAwake fun h => h.keeperHalt k instr

/-- The hasp path, or the heartbeat path, has worked for 1 ms (R465). -/
def execPathFaultClear (hasp : Bool) (s : State) : Host.Outcome State Fault Refusal :=
  s.actAwake fun h => h.pathClear hasp

/-- A journal entry reaches the standby; `gap`: the one before it is missing (R467, R470). -/
def execJournalEntry (gap : Bool) (s : State) : Host.Outcome State Fault Refusal :=
  s.actAwake fun h => h.journalEntry gap

/-- The active keeper starts a checkpoint (R467). -/
def execCheckpointStart (s : State) : Host.Outcome State Fault Refusal :=
  s.actAwake fun h => h.checkpointStart

/-- The commit word of a checkpoint arrives; `same`: the replayed state has its checksum (R468, R474). -/
def execCheckpointCommit (crcOk same : Bool) (s : State) : Host.Outcome State Fault Refusal :=
  s.actAwake fun h => h.checkpointCommit crcOk same

/-- Mirror pushes have been refused for 100 µs (R470). -/
def execStandbyLost (s : State) : Host.Outcome State Fault Refusal :=
  s.actAwake fun h => h.standbyLost

/-- The commit entry of a master's keeper command is accepted (R472). -/
def execKeeperCommandCommit (m : Fin 4) (s : State) : Host.Outcome State Fault Refusal :=
  s.actAwake fun h => h.keeperCommit m

/-- The standby has marched one block (R474). -/
def execKeeperMarchStep (k : Fin 2) (bad : Bool) (corrected : BitVec 16) (s : State) : Host.Outcome State Fault
    Refusal :=
  s.actAwake fun h => h.marchStep k bad corrected.toNat

/-- A keeper runs its instruction self-check (R474). -/
def execKeeperInstrCheck (k : Fin 2) (r : SelfCheck) (s : State) : Host.Outcome State Fault Refusal :=
  s.actAwake fun h => h.instrCheck k r.pass r.corrected.toNat

/-- KPR_CTRL.RESET of keeper `k` is executed (R459, R476). -/
def execKeeperReset (m : Fin 4) (k : Fin 2) (s : State) : Host.Outcome State Fault Refusal :=
  s.actAwake fun h => h.serveReset m k

/-- A reset keeper is not STANDBY after 500 ms (R476). -/
def execKeeperRejoinTimeout (k : Fin 2) (s : State) : Host.Outcome State Fault Refusal :=
  s.actAwake fun h => h.rejoinTimeout k

/-- KPR_CTRL.SWAP is executed (R477). -/
def execKeeperSwap (m : Fin 4) (s : State) : Host.Outcome State Fault Refusal :=
  s.actAwake fun h => h.serve m KPR_CTRL true (.ctrl 4)

/-- A keeper has verified its image, `image` being its ID_FW (R476). -/
def execKeeperBooted (k : Fin 2) (image : Option Word) (s : State) : Host.Outcome State Fault Refusal :=
  s.actAwake fun h => h.keeperBooted k (image.map BitVec.toNat)

end Sys2Proof.Machine
end

