-- ==== Sys2Proof/Machine/Lanes.lean ====
section
/-! DEFINITION. Lane commands (11): the meaning of each. -/

namespace Sys2Proof.Machine

/-- EN of a lane is set (R311). -/
def execLaneEnable (m : Fin 4) (l : Fin 30) (s : State) : Host.Outcome State Fault Refusal :=
  s.actAwake fun h => h.writeTo m (laneCtrl l) (setBits (h.laneCtrlWord l) 0 0 1)

/-- EN of a lane is cleared (R321). -/
def execLaneDisable (m : Fin 4) (l : Fin 30) (s : State) : Host.Outcome State Fault Refusal :=
  s.actAwake fun h => h.writeTo m (laneCtrl l) (setBits (h.laneCtrlWord l) 0 0 0)

/-- RETRAIN of a lane is written (R326). -/
def execLaneRetrain (m : Fin 4) (l : Fin 30) (s : State) : Host.Outcome State Fault Refusal :=
  s.actAwake fun h => h.writeTo m (laneCtrl l) (setBits (h.laneCtrlWord l) 3 3 1)

/-- LOOP of a lane is written (R322). -/
def execLaneLoop (m : Fin 4) (l : Fin 30) (mode : BitVec 2) (s : State) : Host.Outcome State Fault Refusal :=
  s.actAwake fun h => h.writeTo m (laneCtrl l) (setBits (h.laneCtrlWord l) 5 4 mode.toNat)

/-- The backoff wait of a lane ends (R313). -/
def execTrainBackoffEnd (l : Fin 30) (s : State) : Host.Outcome State Fault Refusal :=
  s.actAwake fun h => h.backoffEnd l

/-- A receive lane sees signal (R313). -/
def execSignalDetectRise (l : Fin 18) (s : State) : Host.Outcome State Fault Refusal :=
  s.act fun h => h.signalLevel (12 + l) true false

/-- The comma is found (R311). -/
def execTrainCommaFound (l : Fin 18) (s : State) : Host.Outcome State Fault Refusal :=
  s.actAwake fun h => h.trainStep (12 + l) 2

/-- 1,024 symbols came without error (R311). -/
def execTrainSymbolLock (l : Fin 18) (s : State) : Host.Outcome State Fault Refusal :=
  s.actAwake fun h => h.trainStep (12 + l) 3

/-- The comma stood in 8 frames (R311). -/
def execTrainFrameLock (l : Fin 18) (s : State) : Host.Outcome State Fault Refusal :=
  s.actAwake fun h => h.trainStep (12 + l) 4

/-- Adaptation ends, `eyes` the opening at each of the 32 steps, or the fixed step is applied (R309). -/
def execTrainEqDone (l : Fin 18) (eyes : List (BitVec 8)) (s : State) : Host.Outcome State Fault Refusal :=
  if eyes.length == 32 then s.actAwake fun h => h.eqDone (12 + l) (nats eyes)
  else .fault .illFormed

/-- Identity exchange completes (R315). -/
def execTrainIdentDone (l : Fin 30) (s : State) : Host.Outcome State Fault Refusal :=
  s.actAwake fun h => h.identDone l

/-- UP was not reached in 2 ms (R312). -/
def execTrainTimeout (l : Fin 30) (s : State) : Host.Outcome State Fault Refusal :=
  s.actAwake fun h => h.trainTimeout l

/-- A receive lane loses signal, where `los`, or clock-recovery lock (R314). -/
def execLaneSignalLoss (l : Fin 18) (los : Bool) (s : State) : Host.Outcome State Fault Refusal :=
  s.act fun h => h.signalLevel (12 + l) false los

/-- Four frames came without the comma (R314). -/
def execLaneFrameLockLoss (l : Fin 18) (s : State) : Host.Outcome State Fault Refusal :=
  s.actAwake fun h => h.frameLockLoss (12 + l)

/-- The eye monitor of a receive lane (R309). -/
def execEyeUpdate (l : Fin 18) (eye : BitVec 8) (s : State) : Host.Outcome State Fault Refusal :=
  s.actAwake fun h => h.eyeUpdate (12 + l) eye.toNat

/-- The driver monitor sees an open or short (R317). -/
def execUlTxFault (l : Fin 12) (s : State) : Host.Outcome State Fault Refusal :=
  s.actAwake fun h => h.ulTxFault l

/-- An active uplink had no acknowledgement for 32 µs while a downlink is UP (R317). -/
def execUlAckTimeout (l : Fin 12) (s : State) : Host.Outcome State Fault Refusal :=
  s.actAwake fun h => if h.ulActive l && h.dlUp then h.ulLost l 7 else h

/-- The spare takes over lost lane `l` (R318, R319). -/
def execUlSpareTakeover (l : Fin 12) (s : State) : Host.Outcome State Fault Refusal :=
  s.actAwake fun h => h.spareTakeover l

/-- UL_SPARE.LANE is written (R321). -/
def execUlPlannedMove (m : Fin 4) (l : BitVec 4) (s : State) : Host.Outcome State Fault Refusal :=
  s.actAwake fun h => h.writeTo m UL_SPARE (setBits (h.rd UL_SPARE.addr) 3 0 l.toNat)

/-- The moved lane has no unit in progress (R321). -/
def execUlPlannedMoveDone (l : Fin 12) (s : State) : Host.Outcome State Fault Refusal :=
  s.actAwake fun h => h.plannedMoveDone l

/-- UL_COMMON_CTRL.RELOCK is written (R307). -/
def execUlRelock (m : Fin 4) (s : State) : Host.Outcome State Fault Refusal :=
  s.actAwake fun h => h.writeTo m UL_COMMON_CTRL 1

/-- LANE_LOCK is lost (R317). -/
def execLanePllLockLoss (s : State) : Host.Outcome State Fault Refusal :=
  s.actAwake fun h => h.lanePllLoss

/-- LANE_LOCK returns (R307). -/
def execLanePllLock (s : State) : Host.Outcome State Fault Refusal :=
  s.actAwake fun h => h.lanePllLock

/-- One frame slot of an uplink (R218, R347, R349). -/
def execUplinkFrame (l : Fin 12) (s : State) : Host.Outcome State Fault Refusal :=
  s.actAwake fun h => h.uplinkFrame l

end Sys2Proof.Machine
end

