-- ==== Sys2Proof/Machine/Leaves.lean ====
section
/-! DEFINITION. Spoke and leaf commands (13): the meaning of each. -/

namespace Sys2Proof.Machine

/-- An upstream frame arrives (R306, R322, R354, R355, R358). -/
def execSpokeUpstreamFrame (sp : Fin 16) (f : RxFrame) (s : State) : Host.Outcome State Fault Refusal :=
  if rxOk f then s.actAwake fun h => h.spokeFrame sp (lineFrameOf f)
  else .fault .illFormed

/-- A LEAF_IDENT item (R365, R366). -/
def execLeafIdent (sp : Fin 16) (words : List Word) (s : State) : Host.Outcome State Fault Refusal :=
  if words.length == 7 then s.actAwake fun h => h.leafIdent sp (nats words)
  else .fault .illFormed

/-- A REPLY item of the leaf (R362). -/
def execLeafReply (sp : Fin 16) (tag : BitVec 8) (status : Fin 16) (data : List Word) (s : State) : Host.Outcome
    State Fault Refusal :=
  s.actAwake fun h => h.leafReply sp tag.toNat status (nats data)

/-- An ALARM item of the leaf (R360). -/
def execLeafAlarm (sp : Fin 16) (word : Word) (s : State) : Host.Outcome State Fault Refusal :=
  s.actAwake fun h => h.leafAlarm sp word.toNat

/-- A leaf record whose header word completed in upstream frame `n` (R373 to R377). -/
def execLeafRecord (sp : Fin 16) (header : Word) (hits : List Word) (n : BitVec 16) (s : State) : Host.Outcome State
    Fault Refusal :=
  s.actAwake fun h => h.leafRecord sp header.toNat (nats hits) n.toNat

/-- 256 µs have passed in IDENT (R366). -/
def execHubIdentResend (sp : Fin 16) (s : State) : Host.Outcome State Fault Refusal :=
  s.actAwake fun h => h.hubIdentResend sp

/-- LEAF_CTRL.SYNC is written (R358). -/
def execLeafSync (m : Fin 4) (sp : Fin 16) (s : State) : Host.Outcome State Fault Refusal :=
  s.actAwake fun h => h.writeTo m (LEAF_CTRL sp) (setBits (h.rd (LEAF_CTRL sp).addr) 2 1 2)

/-- Upstream frame MAXLAG + 1 has arrived (R358). -/
def execLeafSyncDone (sp : Fin 16) (s : State) : Host.Outcome State Fault Refusal :=
  s.actAwake fun h => h.leafSyncDone sp

/-- LEAF_CTRL.RESET is written (R353). -/
def execLeafReset (m : Fin 4) (sp : Fin 16) (s : State) : Host.Outcome State Fault Refusal :=
  s.actAwake fun h => h.writeTo m (LEAF_CTRL sp) (setBits (h.rd (LEAF_CTRL sp).addr) 2 1 1)

/-- The spoke is UP, synchronised and measured (R367, R375). -/
def execLeafPresent (sp : Fin 16) (s : State) : Host.Outcome State Fault Refusal :=
  s.actAwake fun h => h.leafPresentNow sp

/-- An access to a leaf window (R369 to R371). -/
def execLeafWindowAccess (m : Fin 4) (addr : Word) (ops : List Access) (s : State) : Host.Outcome State Fault
    Refusal :=
  if windowOk addr ops then s.actAwake fun h => h.act m addr.toNat (ops.map busOp)
  else .fault .illFormed

/-- The oldest request has waited LEAF_CTL_TIMEOUT (R370). -/
def execLeafRequestTimeout (sp : Fin 16) (s : State) : Host.Outcome State Fault Refusal :=
  s.actAwake fun h => h.leafTimeout sp

/-- LEAF_BCAST_CTRL.GO is written (R372). -/
def execLeafBcastGo (m : Fin 4) (s : State) : Host.Outcome State Fault Refusal :=
  s.actAwake fun h => h.writeTo m LEAF_BCAST_CTRL 1

/-- Records leave the hold store (R377). -/
def execLeafHoldExpire (sp : Fin 16) (s : State) : Host.Outcome State Fault Refusal :=
  s.actAwake fun h => h.leafHoldExpire sp

/-- A CAL_STROBE or REC_SYNC of this BX is forwarded to the leaves (R379). -/
def execLeafForwardCommand (cal rsync : Bool) (s : State) : Host.Outcome State Fault Refusal :=
  s.actAwake fun h => h.leafForward cal rsync

/-- A 1 ms window of faults ends (R380). -/
def execLeafIsolationCheck (s : State) : Host.Outcome State Fault Refusal :=
  s.actAwake fun h => h.leafIsolation

end Sys2Proof.Machine
end

