-- ==== Sys2Proof/Machine/Monitors.lean ====
section
/-! DEFINITION. Monitor and excitation commands (09): the meaning of each. -/

namespace Sys2Proof.Machine

/-- The sequencer's period begins (R264). -/
def execMonScanStart (s : State) : Host.Outcome State Fault Refusal :=
  s.actAwake fun h => h.monScanStart

/-- The conversion of converter `k` ends with `code` (R263, R270). -/
def execMonConversionDone (k : Fin 2) (code : BitVec 12) (s : State) : Host.Outcome State Fault Refusal :=
  s.actAwake fun h => h.monDone k code.toNat

/-- The open window of a held result ends (R269). -/
def execMonResultRelease (k : Fin 2) (s : State) : Host.Outcome State Fault Refusal :=
  s.actAwake fun h => h.monResultRelease k

/-- MON_URGENT.GO is written (R266). -/
def execMonUrgentGo (m : Fin 4) (ch : BitVec 6) (s : State) : Host.Outcome State Fault Refusal :=
  s.actAwake fun h => h.writeTo m MON_URGENT (2 ^ 31 + ch.toNat)

/-- The monitor forwarder sends the oldest record (R274). -/
def execMonForward (s : State) : Host.Outcome State Fault Refusal :=
  s.actAwake fun h => h.monForward

/-- A comparator's input moves: outside its window it is a crossing (R275). -/
def execMonWindowCrossing (x : WindowInput) (s : State) : Host.Outcome State Fault Refusal :=
  s.actAwake fun h => h.winInput x.window x.code.toNat

/-- A comparator's input moves: inside its window by HYST, it rearms the comparator (R275). -/
def execMonWindowRearm (x : WindowInput) (s : State) : Host.Outcome State Fault Refusal :=
  s.actAwake fun h => h.winInput x.window x.code.toNat

/-- EXC_CFG takes effect at a microsecond tick (R267). -/
def execExcChange (e : Fin 8) (s : State) : Host.Outcome State Fault Refusal :=
  s.actAwake fun h => h.excChange e

/-- 10 µs have passed since an excitation change (R267). -/
def execExcBlankEnd (e : Fin 8) (s : State) : Host.Outcome State Fault Refusal :=
  s.actAwake fun h => h.excBlankEnd e

/-- BREAK, or LIMIT, is seen (R268). -/
def execExcComplianceLoss (e : Fin 8) (limit : Bool) (s : State) : Host.Outcome State Fault Refusal :=
  s.actAwake fun h => h.excLoss e limit

/-- Compliance returns (R268). -/
def execExcComplianceReturn (e : Fin 8) (s : State) : Host.Outcome State Fault Refusal :=
  s.actAwake fun h => h.excReturn e

/-- A monitor converter has converted 0 V and the level of range `g` 16 times each; the operands are the sums of its
codes (R298). -/
def execMonCalibration (k g : Fin 2) (low level : BitVec 16) (s : State) : Host.Outcome State Fault Refusal :=
  s.actAwake fun h => h.monCalibration k g low.toNat level.toNat

end Sys2Proof.Machine
end

