-- ==== Sys2Proof/Machine/Port.lean ====
section
/-! DEFINITION. Serial port and flash commands (16): the meaning of each. -/

namespace Sys2Proof.Machine

/-- A READ_INC header completes (R437). -/
def execPortReadInc (head : PortHead) (count : BitVec 8) (s : State) : Host.Outcome State Fault Refusal :=
  s.actAwake fun h => h.portRead head.id.toNat head.addr.toNat (count.toNat + 1) false

/-- A READ_FIX header completes (R437). -/
def execPortReadFix (head : PortHead) (count : BitVec 8) (s : State) : Host.Outcome State Fault Refusal :=
  s.actAwake fun h => h.portRead head.id.toNat head.addr.toNat (count.toNat + 1) true

/-- A WRITE_INC transaction; `data` holds the words that arrive whole (R435, R440). -/
def execPortWriteInc (head : PortHead) (count : BitVec 8) (data : List Word) (s : State) : Host.Outcome State Fault
    Refusal :=
  s.actAwake fun h => h.portWrite head.id.toNat head.addr.toNat (count.toNat + 1) (nats data) false

/-- A WRITE_FIX transaction (R435, R440). -/
def execPortWriteFix (head : PortHead) (count : BitVec 8) (data : List Word) (s : State) : Host.Outcome State Fault
    Refusal :=
  s.actAwake fun h => h.portWrite head.id.toNat head.addr.toNat (count.toNat + 1) (nats data) true

/-- sel_n rises after edge E; `late`: a unit of the body was not ready (R438, R439). -/
def execPortTransactionEnd (late : Bool) (s : State) : Host.Outcome State Fault Refusal :=
  s.actAwake fun h => h.portTransactionEnd late

/-- sel_n rises before edge E (R440). -/
def execPortCut (late : Bool) (s : State) : Host.Outcome State Fault Refusal :=
  s.actAwake fun h => h.portCut late

/-- Edges come after E (R441). -/
def execPortOverclock (s : State) : Host.Outcome State Fault Refusal :=
  s.actAwake fun h => h.portOverclock

/-- Flash discovery ends, with the bytes of 0x9F and the SFDP words that were read (R449, R450). -/
def execFlashDiscovery (f : FlashTables) (s : State) : Host.Outcome State Fault Refusal :=
  s.actAwake fun h => h.flashDiscovered f.id.toNat f.signature.toNat f.head0.toNat f.head1.toNat (nats f.table)

/-- A master reads the flash window (R451). -/
def execFlashWindowRead (m : Fin 4) (offset : BitVec 24) (s : State) : Host.Outcome State Fault Refusal :=
  s.actAwake fun h => h.busRead m (0x10000000 + offset.toNat)

/-- A line of 64 bytes has been fetched: the one named for a keeper, or the one granted to the window reads (R452).
-/
def execFlashLineFetchDone (cache : Option (BitVec 18)) (bytes : List Byte) (s : State) : Host.Outcome State Fault
    Refusal :=
  if bytes.length == 64 then s.actAwake fun h => h.fetchDone (cache.map fun l => 64 * l.toNat) (nats bytes)
  else .fault .illFormed

/-- A keeper starts a write or erase (R453). -/
def execFlashEngineCommand (s : State) : Host.Outcome State Fault Refusal :=
  s.actAwake fun h => h.flashEngine

/-- The command engine has ended (R453). -/
def execFlashEngineDone (s : State) : Host.Outcome State Fault Refusal :=
  s.actAwake fun h => h.flashEngineDone

end Sys2Proof.Machine
end

