-- ==== Sys2Proof/Machine/Power.lean ====
section
/-! DEFINITION. Power, reset and gazebo commands (19): the meaning of each. -/

namespace Sys2Proof.Machine

/-- PWR_CTRL.GO is written (R495). -/
def execPwrGo (m : Fin 4) (target : BitVec 3) (s : State) : Host.Outcome State Fault Refusal :=
  s.actAwake fun h => h.writeTo m PWR_CTRL (8 + target.toNat)

/-- The BX boundary of a requested transition (R496). -/
def execPwrTransition (s : State) : Host.Outcome State Fault Refusal :=
  s.actAwake fun h => h.pwrTransition

/-- PWR_CTRL.CHIP_RESET is written (R505). -/
def execPwrChipReset (m : Fin 4) (key : BitVec 8) (s : State) : Host.Outcome State Fault Refusal :=
  s.actAwake fun h => h.writeTo m PWR_CTRL (key.toNat * 2 ^ 24 + 16)

/-- PWR_CELL_RESET.GO is written (R505). -/
def execCellReset (m : Fin 4) (j : Fin 24) (c : Fin 17) (s : State) : Host.Outcome State Fault Refusal :=
  s.actAwake fun h => h.writeTo m PWR_CELL_RESET (cellResetWord j c)

/-- Supply `k` has been below its bad level for 1 µs (R497). -/
def execSupplyBad (k : Fin 5) (s : State) : Host.Outcome State Fault Refusal :=
  s.act fun h => h.supplyBad k

/-- All supplies are good with reset_n high (R497). -/
def execSupplyGood (s : State) : Host.Outcome State Fault Refusal :=
  s.act fun h => h.supplyGood

/-- reset_n is held low (R505). -/
def execResetPin (s : State) : Host.Outcome State Fault Refusal :=
  s.act fun h => h.resetPinLow

/-- The boot sequence ends, with or without a fault; `image`: where one keeper failed its image and the bit-stream
was refused as well, BOOT_WHY shows the former (R499, R500). -/
def execBootComplete (image : Bool) (s : State) : Host.Outcome State Fault Refusal :=
  s.actAwake fun h => h.bootOver image

/-- Boot step 6 was not reached in 2,000 ms (R500). -/
def execBootTimeout (s : State) : Host.Outcome State Fault Refusal :=
  s.actAwake fun h => h.bootLate

/-- The supplies are measured (R509). -/
def execPwrSupplyMeasure (mv : List (BitVec 16)) (s : State) : Host.Outcome State Fault Refusal :=
  if mv.length == 5 then s.actAwake fun h => h.supplyMeasure (nats mv)
  else .fault .illFormed

/-- GZB_CTRL.ENTER is written (R501). -/
def execGzbEnter (m : Fin 4) (s : State) : Host.Outcome State Fault Refusal :=
  s.actAwake fun h => h.writeTo m GZB_CTRL 1

/-- PERIOD_MS has passed in GAZEBO (R276). -/
def execGzbMonPulse (s : State) : Host.Outcome State Fault Refusal :=
  s.act fun h => h.gzbMonPulse

/-- ON_US has passed since the pulse: the inputs of comparators 0 to 3 and 4 to 7, twelve bits each, excitations
that lost compliance and those at LIMIT (R276). -/
def execGzbMonEvaluate (low high : BitVec 48) (lost limit : BitVec 8) (s : State) : Host.Outcome State Fault Refusal
    :=
  s.act fun h => h.gzbMonEvaluate (packedCodes low high) lost.toNat limit.toNat

/-- A wake source acts in GAZEBO, coded as WAKE_WHY (R503). -/
def execGazeboWake (why : Fin 7) (s : State) : Host.Outcome State Fault Refusal :=
  s.act fun h => h.gazeboWake why

/-- The gazebo oscillator runs again (R503). -/
def execGzbOscReturn (s : State) : Host.Outcome State Fault Refusal :=
  s.act fun h => h.gzbOscReturn

/-- Downlink `d` listens for the wake pattern (R503). -/
def execDlWakeListen (d : Fin 2) (s : State) : Host.Outcome State Fault Refusal :=
  s.act fun h => h.wakeListen d

end Sys2Proof.Machine
end

