-- ==== Sys2Proof/Machine/Sampling.lean ====
section
/-! DEFINITION. The sample period (02 to 06): the meaning of each. -/

namespace Sys2Proof.Machine

/-- One sample period of the MACHINE clock (R47, R70 to R79, R130 to R145, R162). -/
def execSamplePeriod (codes : List Conversion) (found : List Measure) (s : State) : Host.Outcome State Fault Refusal
    :=
  s.act fun h => h.samplePeriod codes found

end Sys2Proof.Machine
end

