-- ==== Sys2Proof/Machine/Session.lean ====
section
/-! DEFINITION. Session, feature and key commands (15): the meaning of each. -/

namespace Sys2Proof.Machine

/-- SES_CTRL.CHALLENGE is written (R419). -/
def execSesChallenge (m : Fin 4) (slot : BitVec 2) (s : State) : Host.Outcome State Fault Refusal :=
  s.actAwake fun h => h.writeTo m SES_CTRL (slot.toNat * 16 + 1)

/-- SES_CTRL.RESPOND is written (R419). -/
def execSesRespond (m : Fin 4) (s : State) : Host.Outcome State Fault Refusal :=
  s.actAwake fun h => h.writeTo m SES_CTRL 2

/-- SES_CTRL.CLOSE is written (R422). -/
def execSesClose (m : Fin 4) (s : State) : Host.Outcome State Fault Refusal :=
  s.actAwake fun h => h.writeTo m SES_CTRL 4

/-- 1 s has passed since the nonce of path p + 1 was issued (R418). -/
def execNonceExpire (p : Fin 3) (s : State) : Host.Outcome State Fault Refusal :=
  s.actAwake fun h => h.nonceExpire (p + 1)

/-- SES_IDLE_LIMIT has passed on path p + 1 (R422). -/
def execSessionIdleTimeout (p : Fin 3) (s : State) : Host.Outcome State Fault Refusal :=
  s.actAwake fun h => h.sesIdle (p + 1)

/-- A FEAT_ACCEPT pair is written (R426). -/
def execFeatAcceptWrite (m : Fin 4) (lo hi : Word) (s : State) : Host.Outcome State Fault Refusal :=
  s.actAwake fun h => h.act m FEAT_ACCEPT.addr [.write lo.toNat, .write hi.toNat]

/-- SES_KEY_CTRL.PROGRAM is written (R416). -/
def execSesKeyProgram (m : Fin 4) (slot : BitVec 2) (wards : BitVec 6) (s : State) : Host.Outcome State Fault
    Refusal :=
  s.actAwake fun h => h.writeTo m SES_KEY_CTRL (wards.toNat * 256 + slot.toNat * 16 + 1)

/-- Programming and read-back end (R416). -/
def execSesKeyProgramDone (good : Bool) (s : State) : Host.Outcome State Fault Refusal :=
  s.actAwake fun h => h.keyDone good

/-- SES_KEY_CTRL.REVOKE is written (R417). -/
def execSesKeyRevoke (m : Fin 4) (slot : BitVec 2) (s : State) : Host.Outcome State Fault Refusal :=
  s.actAwake fun h => h.writeTo m SES_KEY_CTRL (slot.toNat * 16 + 2)

end Sys2Proof.Machine
end

