-- ==== Sys2Proof/Machine/Tap.lean ====
section
/-! DEFINITION. Test access port commands (20): the meaning of each. -/

namespace Sys2Proof.Machine

/-- The test access port is reset (R528). -/
def execTapReset (s : State) : Host.Outcome State Fault Refusal :=
  s.act fun h => h.tapLoad .bypass

/-- EXTEST is loaded (R528). -/
def execExtest (s : State) : Host.Outcome State Fault Refusal :=
  s.act fun h => h.tapLoad .extest

/-- SAMPLE/PRELOAD is loaded and `word` shifted in (R528). -/
def execSamplePreload (word : BitVec 74) (s : State) : Host.Outcome State Fault Refusal :=
  s.act fun h => h.tapPreload word.toNat

/-- HIGHZ is loaded (R528). -/
def execHighz (s : State) : Host.Outcome State Fault Refusal :=
  s.act fun h => h.tapLoad .highz

/-- CLAMP is loaded (R528). -/
def execClamp (s : State) : Host.Outcome State Fault Refusal :=
  s.act fun h => h.tapLoad .clamp

/-- EXTEST_PULSE is loaded (R528). -/
def execExtestPulse (s : State) : Host.Outcome State Fault Refusal :=
  s.act fun h => h.tapLoad .extestPulse

/-- EXTEST_TRAIN is loaded (R528). -/
def execExtestTrain (s : State) : Host.Outcome State Fault Refusal :=
  s.act fun h => h.tapLoad .extestTrain

/-- BYPASS, or any other code, is loaded (R528). -/
def execBypass (s : State) : Host.Outcome State Fault Refusal :=
  s.act fun h => h.tapLoad .bypass

end Sys2Proof.Machine
end

