-- ==== Sys2Proof/Machine/Tdcs.lean ====
section
/-! DEFINITION. TDC commands (08): the meaning of each. -/

namespace Sys2Proof.Machine

/-- A signal moves in event-clock period `q`: cells are 0 to 407, tin_i is 408 + i (R80, R233 to R238, R242, R243).
-/
def execTdcHit (id : Fin 412) (q : Fin 4) (snap : Snapshots) (move : Swing) (s : State) : Host.Outcome State Fault
    Refusal :=
  s.actAwake fun h => h.tdcHit id q (snapOf snap) move

/-- TDC_CFG.EN takes effect (R238). -/
def execTdcEnableChange (j : Fin 24) (c : Fin 17) (s : State) : Host.Outcome State Fault Refusal :=
  s.actAwake fun h => h.takeTdcEnable j c

/-- The density oscillator takes a snapshot (R239). -/
def execCdSnapshot (t : Fin 28) (bin : Fin 1024) (q : Fin 4) (s : State) : Host.Outcome State Fault Refusal :=
  s.actAwake fun h => h.cdSnapshot t bin q

/-- A table of 2^20 snapshots is judged (R240). -/
def execCdTableComplete (t : Fin 28) (s : State) : Host.Outcome State Fault Refusal :=
  s.actAwake fun h => h.cdComplete t

/-- TDC_TIN_FIFO is read at +0 (R242). -/
def execTinFifoPop (m t : Fin 4) (s : State) : Host.Outcome State Fault Refusal :=
  s.actAwake fun h => h.busRead m (TDC_TIN_FIFO t).addr

/-- TDC_LAST is read at +0 (R254). -/
def execTdcLastRead (m : Fin 4) (j : Fin 24) (c : Fin 17) (s : State) : Host.Outcome State Fault Refusal :=
  s.actAwake fun h => h.busRead m (TDC_LAST j c).addr

end Sys2Proof.Machine
end

