-- ==== Sys2Proof/Machine/Trigger.lean ====
section
/-! DEFINITION. Trigger commands (06): the meaning of each. -/

namespace Sys2Proof.Machine

/-- The ACCEPT fast command acts (R172). -/
def execAccept (s : State) : Host.Outcome State Fault Refusal :=
  s.actAwake fun h => h.accept

/-- The trigger bus is sampled high (R174). -/
def execTbTrigger (s : State) : Host.Outcome State Fault Refusal :=
  s.actAwake fun h => h.tbTrigger

/-- The conditions of a label BX are decided (R175 to R180). -/
def execTrellisDecision (s : State) : Host.Outcome State Fault Refusal :=
  s.actAwake fun h => h.trellisDecision

/-- The bus is driven, or a drive is late (R173). -/
def execTbDrive (s : State) : Host.Outcome State Fault Refusal :=
  s.actAwake fun h => h.tbDrive

/-- The allocation cycle of a BX (R181, R184, R185, R377). -/
def execSlotAllocation (s : State) : Host.Outcome State Fault Refusal :=
  s.actAwake fun h => h.slotAllocation.leafCopyNew

/-- The BX at which EVT_LOAD acts (R183). -/
def execTrgEvtLoad (s : State) : Host.Outcome State Fault Refusal :=
  s.actAwake fun h => if h.on TRG_CTRL_EVT_LOAD then h.evtLoad else h

/-- The BX at which CLR_DT acts (R191). -/
def execTrgClrDt (s : State) : Host.Outcome State Fault Refusal :=
  s.actAwake fun h => if h.on TRG_CTRL_CLR_DT then h.clearDeadTime else h

/-- BLK_SNAP_CTRL.ARM is written (R188). -/
def execSnapArm (m : Fin 4) (j : Fin 24) (s : State) : Host.Outcome State Fault Refusal :=
  s.actAwake fun h => h.writeTo m (BLK_SNAP_CTRL j) 1

/-- BLK_SNAP_CTRL.FREEZE is written (R188). -/
def execSnapFreeze (m : Fin 4) (j : Fin 24) (s : State) : Host.Outcome State Fault Refusal :=
  s.actAwake fun h => h.writeTo m (BLK_SNAP_CTRL j) 4

/-- BLK_SNAP_CTRL.RELEASE is written (R189). -/
def execSnapRelease (m : Fin 4) (j : Fin 24) (s : State) : Host.Outcome State Fault Refusal :=
  s.actAwake fun h => h.writeTo m (BLK_SNAP_CTRL j) 2

/-- The freeze trigger's post-samples have committed (R188). -/
def execSnapFrozen (j : Fin 24) (s : State) : Host.Outcome State Fault Refusal :=
  s.actAwake fun h => h.snapFrozen j

end Sys2Proof.Machine
end

