-- ==== Sys2Proof/Machine/Update.lean ====
section
/-! DEFINITION. Image update commands (17): the meaning of each. -/

namespace Sys2Proof.Machine

/-- The BEGIN step (R478). -/
def execUpdBegin (m : Fin 4) (s : State) : Host.Outcome State Fault Refusal :=
  s.actAwake fun h => h.serve m KPR_UPD_CTRL true (.step 1)

/-- The erase ends (R478). -/
def execUpdEraseDone (ok : Bool) (s : State) : Host.Outcome State Fault Refusal :=
  s.actAwake fun h => h.updEraseDone ok

/-- A KPR_UPD_DATA word (R478). -/
def execUpdData (m : Fin 4) (v : Word) (s : State) : Host.Outcome State Fault Refusal :=
  s.actAwake fun h => h.serve m KPR_UPD_DATA true (.data v.toNat)

/-- The END step (R478). -/
def execUpdEnd (m : Fin 4) (s : State) : Host.Outcome State Fault Refusal :=
  s.actAwake fun h => h.serve m KPR_UPD_CTRL true (.step 2)

/-- Verification of the image ends (R478). -/
def execUpdVerifyDone (flashOk sigOk formatOk : Bool) (version : Word) (s : State) : Host.Outcome State Fault
    Refusal :=
  s.actAwake fun h => h.updVerifyDone flashOk sigOk formatOk version.toNat

/-- The PROVE step (R478). -/
def execUpdProve (m : Fin 4) (s : State) : Host.Outcome State Fault Refusal :=
  s.actAwake fun h => h.serve m KPR_UPD_CTRL true (.step 4)

/-- The standby has proven the new image, or failed (R478). -/
def execUpdProveDone (ok : Bool) (s : State) : Host.Outcome State Fault Refusal :=
  s.actAwake fun h => h.updProveDone ok

/-- Proving has taken 5 s (R478). -/
def execUpdProveTimeout (s : State) : Host.Outcome State Fault Refusal :=
  s.actAwake fun h => h.updProveTimeout

/-- The COMPLETE step (R478). -/
def execUpdComplete (m : Fin 4) (s : State) : Host.Outcome State Fault Refusal :=
  s.actAwake fun h => h.serve m KPR_UPD_CTRL true (.step 8)

/-- The former active keeper has proven the new image, or failed (R478). -/
def execUpdFinishDone (ok : Bool) (s : State) : Host.Outcome State Fault Refusal :=
  s.actAwake fun h => h.updFinishDone ok

/-- The ABORT step (R478). -/
def execUpdAbort (m : Fin 4) (s : State) : Host.Outcome State Fault Refusal :=
  s.actAwake fun h => h.serve m KPR_UPD_CTRL true (.step 16)

end Sys2Proof.Machine
end

