-- ==== Sys2Proof/Machine/Dispatch.lean ====
section
/-! DEFINITION. The dispatch: one arm per command. -/

namespace Sys2Proof.Machine

/-- The effect of a command on everything but the queue. -/
def exec (i : Instr) (s : State) : Host.Outcome State Fault Refusal :=
  match i with
  -- Bus, alarm and queue commands (01, 18)
  | .registerWrite m addr v => Sys2Proof.Machine.execRegisterWrite m addr v s
  | .read64Low m addr => Sys2Proof.Machine.execRead64Low m addr s
  | .write64Pair m addr lo hi => Sys2Proof.Machine.execWrite64Pair m addr lo hi s
  | .alarmForward => Sys2Proof.Machine.execAlarmForward s
  | .keeperHealth => Sys2Proof.Machine.execKeeperHealth s
  | .summary => Sys2Proof.Machine.execSummary s
  | .queuePush q data mark pop => Sys2Proof.Machine.execQueuePush q data mark pop s
  | .queuePop q err => Sys2Proof.Machine.execQueuePop q err s
  | .queueFlush m q => Sys2Proof.Machine.execQueueFlush m q s
  -- Commands of the time base (02)
  | .ctlOscSwap => Sys2Proof.Machine.execCtlOscSwap s
  | .gzbStop => Sys2Proof.Machine.execGzbStop s
  | .downlinkSwitch => Sys2Proof.Machine.execDownlinkSwitch s
  | .downlinkRevert => Sys2Proof.Machine.execDownlinkRevert s
  | .clkDlSelWrite => Sys2Proof.Machine.execClkDlSelWrite s
  | .clkHoldForce m on => Sys2Proof.Machine.execClkHoldForce m on s
  | .clkRelock m => Sys2Proof.Machine.execClkRelock m s
  | .relockDone => Sys2Proof.Machine.execRelockDone s
  | .ocxoWarmChange warm => Sys2Proof.Machine.execOcxoWarmChange warm s
  | .refLost => Sys2Proof.Machine.execRefLost s
  | .refFreqCheck hz => Sys2Proof.Machine.execRefFreqCheck hz s
  | .refColdClear => Sys2Proof.Machine.execRefColdClear s
  | .refReturn => Sys2Proof.Machine.execRefReturn s
  | .localModeEnter => Sys2Proof.Machine.execLocalModeEnter s
  | .localModeExit hz => Sys2Proof.Machine.execLocalModeExit hz s
  | .holdoverLong => Sys2Proof.Machine.execHoldoverLong s
  | .holdoverExit err => Sys2Proof.Machine.execHoldoverExit err s
  | .holdoverSlewDone => Sys2Proof.Machine.execHoldoverSlewDone s
  | .holdoverPhaseStep => Sys2Proof.Machine.execHoldoverPhaseStep s
  | .holdoverQualified => Sys2Proof.Machine.execHoldoverQualified s
  | .machinePllLock hz => Sys2Proof.Machine.execMachinePllLock hz s
  | .bxSet => Sys2Proof.Machine.execBxSet s
  -- Alignment and orangery commands (02)
  | .alignCompute m => Sys2Proof.Machine.execAlignCompute m s
  | .alignArm m => Sys2Proof.Machine.execAlignArm m s
  | .alignCancel m => Sys2Proof.Machine.execAlignCancel m s
  | .alignApply => Sys2Proof.Machine.execAlignApply s
  | .orgCtrlWrite m en setpoint => Sys2Proof.Machine.execOrgCtrlWrite m en setpoint s
  | .orgWarmAssert => Sys2Proof.Machine.execOrgWarmAssert s
  | .orgWarmDeassert => Sys2Proof.Machine.execOrgWarmDeassert s
  -- Commands of the signal cells (03)
  | .cellFrontEndChange j c => Sys2Proof.Machine.execCellFrontEndChange j c s
  | .cellEnableChange j c => Sys2Proof.Machine.execCellEnableChange j c s
  | .cellRedundError j c => Sys2Proof.Machine.execCellRedundError j c s
  | .cellHealthWindowEnd j c => Sys2Proof.Machine.execCellHealthWindowEnd j c s
  | .cellHealthClear m j c => Sys2Proof.Machine.execCellHealthClear m j c s
  | .discEnableChange j c level => Sys2Proof.Machine.execDiscEnableChange j c level s
  | .discSettingsChange j c level => Sys2Proof.Machine.execDiscSettingsChange j c level s
  -- Commands of the spares and hinges (04)
  | .hngMoveShadow m j t => Sys2Proof.Machine.execHngMoveShadow m j t s
  | .hngMoveCover m j t => Sys2Proof.Machine.execHngMoveCover m j t s
  | .hngMoveRetire m j t => Sys2Proof.Machine.execHngMoveRetire m j t s
  | .hngMoveCalibrate m j t => Sys2Proof.Machine.execHngMoveCalibrate m j t s
  | .spareRetire m j => Sys2Proof.Machine.execSpareRetire m j s
  | .spareRestore m j => Sys2Proof.Machine.execSpareRestore m j s
  | .hingeDischargeDone j => Sys2Proof.Machine.execHingeDischargeDone j s
  | .hingeSettled j => Sys2Proof.Machine.execHingeSettled j s
  | .dwellEnd j => Sys2Proof.Machine.execDwellEnd j s
  | .hngCommitToSpare m j c => Sys2Proof.Machine.execHngCommitToSpare m j c s
  | .hngCommitBack m j c => Sys2Proof.Machine.execHngCommitBack m j c s
  | .handover j => Sys2Proof.Machine.execHandover j s
  | .spareUseSafePoint j => Sys2Proof.Machine.execSpareUseSafePoint j s
  | .blockSelfFail j => Sys2Proof.Machine.execBlockSelfFail j s
  | .blockReset m j => Sys2Proof.Machine.execBlockReset m j s
  -- Commands of the filter chain (05)
  | .delayChange j c => Sys2Proof.Machine.execDelayChange j c s
  | .fltSwap record j c => Sys2Proof.Machine.execFltSwap record j c s
  | .fltSwapForce record j c => Sys2Proof.Machine.execFltSwapForce record j c s
  | .fadeEnd record j c => Sys2Proof.Machine.execFadeEnd record j c s
  | .recordBlock => Sys2Proof.Machine.execRecordBlock s
  | .recSync => Sys2Proof.Machine.execRecSync s
  | .crecRestart m => Sys2Proof.Machine.execCrecRestart m s
  -- Trigger commands (06)
  | .accept => Sys2Proof.Machine.execAccept s
  | .tbTrigger => Sys2Proof.Machine.execTbTrigger s
  | .trellisDecision => Sys2Proof.Machine.execTrellisDecision s
  | .tbDrive => Sys2Proof.Machine.execTbDrive s
  | .slotAllocation => Sys2Proof.Machine.execSlotAllocation s
  | .trgEvtLoad => Sys2Proof.Machine.execTrgEvtLoad s
  | .trgClrDt => Sys2Proof.Machine.execTrgClrDt s
  | .snapArm m j => Sys2Proof.Machine.execSnapArm m j s
  | .snapFreeze m j => Sys2Proof.Machine.execSnapFreeze m j s
  | .snapRelease m j => Sys2Proof.Machine.execSnapRelease m j s
  | .snapFrozen j => Sys2Proof.Machine.execSnapFrozen j s
  -- Event building commands (06, 07)
  | .extractionStart k errs lost => Sys2Proof.Machine.execExtractionStart k errs lost s
  | .ringScrub j err => Sys2Proof.Machine.execRingScrub j err s
  | .diagRingRead m j c w corrected lost => Sys2Proof.Machine.execDiagRingRead m j c w corrected lost s
  | .fragmentAssembly g => Sys2Proof.Machine.execFragmentAssembly g s
  | .unitSent k => Sys2Proof.Machine.execUnitSent k s
  | .slotRelease k => Sys2Proof.Machine.execSlotRelease k s
  | .eventClose k => Sys2Proof.Machine.execEventClose k s
  | .regionReset m g => Sys2Proof.Machine.execRegionReset m g s
  | .regionResetEffect g => Sys2Proof.Machine.execRegionResetEffect g s
  | .leafFragmentComplete k sp => Sys2Proof.Machine.execLeafFragmentComplete k sp s
  -- TDC commands (08)
  | .tdcHit id q snap move => Sys2Proof.Machine.execTdcHit id q snap move s
  | .tdcEnableChange j c => Sys2Proof.Machine.execTdcEnableChange j c s
  | .cdSnapshot t bin q => Sys2Proof.Machine.execCdSnapshot t bin q s
  | .cdTableComplete t => Sys2Proof.Machine.execCdTableComplete t s
  | .tinFifoPop m t => Sys2Proof.Machine.execTinFifoPop m t s
  | .tdcLastRead m j c => Sys2Proof.Machine.execTdcLastRead m j c s
  -- Interval, round-trip and frequency commands (08)
  | .ivlArm m e => Sys2Proof.Machine.execIvlArm m e s
  | .ivlCancel m e => Sys2Proof.Machine.execIvlCancel m e s
  | .ivlFirstEdge e edge v => Sys2Proof.Machine.execIvlFirstEdge e edge v s
  | .ivlResult e x => Sys2Proof.Machine.execIvlResult e x s
  | .ivlOvf e => Sys2Proof.Machine.execIvlOvf e s
  | .rttMeasureStart => Sys2Proof.Machine.execRttMeasureStart s
  | .rttEchoReply ps => Sys2Proof.Machine.execRttEchoReply ps s
  | .rttTimeout => Sys2Proof.Machine.execRttTimeout s
  | .frqStart m => Sys2Proof.Machine.execFrqStart m s
  | .frqCancel m => Sys2Proof.Machine.execFrqCancel m s
  | .frqDone n ticks => Sys2Proof.Machine.execFrqDone n ticks s
  | .frqNoEdge n => Sys2Proof.Machine.execFrqNoEdge n s
  -- Monitor and excitation commands (09)
  | .monScanStart => Sys2Proof.Machine.execMonScanStart s
  | .monConversionDone k code => Sys2Proof.Machine.execMonConversionDone k code s
  | .monResultRelease k => Sys2Proof.Machine.execMonResultRelease k s
  | .monUrgentGo m ch => Sys2Proof.Machine.execMonUrgentGo m ch s
  | .monForward => Sys2Proof.Machine.execMonForward s
  | .monWindowCrossing x => Sys2Proof.Machine.execMonWindowCrossing x s
  | .monWindowRearm x => Sys2Proof.Machine.execMonWindowRearm x s
  | .excChange e => Sys2Proof.Machine.execExcChange e s
  | .excBlankEnd e => Sys2Proof.Machine.execExcBlankEnd e s
  | .excComplianceLoss e limit => Sys2Proof.Machine.execExcComplianceLoss e limit s
  | .excComplianceReturn e => Sys2Proof.Machine.execExcComplianceReturn e s
  | .monCalibration k g low level => Sys2Proof.Machine.execMonCalibration k g low level s
  -- Calibration commands (10)
  | .calRefCheck step bad => Sys2Proof.Machine.execCalRefCheck step bad s
  | .calEngineStart j c => Sys2Proof.Machine.execCalEngineStart j c s
  | .calPhaseEnd j sums diff => Sys2Proof.Machine.execCalPhaseEnd j sums diff s
  | .calSweep m => Sys2Proof.Machine.execCalSweep m s
  | .calReq m j c => Sys2Proof.Machine.execCalReq m j c s
  | .calTempCheck => Sys2Proof.Machine.execCalTempCheck s
  | .calAgeExpiry j c => Sys2Proof.Machine.execCalAgeExpiry j c s
  | .calStrobe => Sys2Proof.Machine.execCalStrobe s
  | .calPulseInject => Sys2Proof.Machine.execCalPulseInject s
  -- Lane commands (11)
  | .laneEnable m l => Sys2Proof.Machine.execLaneEnable m l s
  | .laneDisable m l => Sys2Proof.Machine.execLaneDisable m l s
  | .laneRetrain m l => Sys2Proof.Machine.execLaneRetrain m l s
  | .laneLoop m l mode => Sys2Proof.Machine.execLaneLoop m l mode s
  | .trainBackoffEnd l => Sys2Proof.Machine.execTrainBackoffEnd l s
  | .signalDetectRise l => Sys2Proof.Machine.execSignalDetectRise l s
  | .trainCommaFound l => Sys2Proof.Machine.execTrainCommaFound l s
  | .trainSymbolLock l => Sys2Proof.Machine.execTrainSymbolLock l s
  | .trainFrameLock l => Sys2Proof.Machine.execTrainFrameLock l s
  | .trainEqDone l eyes => Sys2Proof.Machine.execTrainEqDone l eyes s
  | .trainIdentDone l => Sys2Proof.Machine.execTrainIdentDone l s
  | .trainTimeout l => Sys2Proof.Machine.execTrainTimeout l s
  | .laneSignalLoss l los => Sys2Proof.Machine.execLaneSignalLoss l los s
  | .laneFrameLockLoss l => Sys2Proof.Machine.execLaneFrameLockLoss l s
  | .eyeUpdate l eye => Sys2Proof.Machine.execEyeUpdate l eye s
  | .ulTxFault l => Sys2Proof.Machine.execUlTxFault l s
  | .ulAckTimeout l => Sys2Proof.Machine.execUlAckTimeout l s
  | .ulSpareTakeover l => Sys2Proof.Machine.execUlSpareTakeover l s
  | .ulPlannedMove m l => Sys2Proof.Machine.execUlPlannedMove m l s
  | .ulPlannedMoveDone l => Sys2Proof.Machine.execUlPlannedMoveDone l s
  | .ulRelock m => Sys2Proof.Machine.execUlRelock m s
  | .lanePllLockLoss => Sys2Proof.Machine.execLanePllLockLoss s
  | .lanePllLock => Sys2Proof.Machine.execLanePllLock s
  | .uplinkFrame l => Sys2Proof.Machine.execUplinkFrame l s
  -- Downlink frames, fast commands and items (12)
  | .dlFrame a b => Sys2Proof.Machine.execDlFrame a b s
  | .echo n ps => Sys2Proof.Machine.execEcho n ps s
  | .hardReset => Sys2Proof.Machine.execHardReset s
  | .runStart => Sys2Proof.Machine.execRunStart s
  | .runStop => Sys2Proof.Machine.execRunStop s
  | .apply => Sys2Proof.Machine.execApply s
  | .wake d => Sys2Proof.Machine.execWake d s
  | .dlReadInc mode target tag addr count => Sys2Proof.Machine.execDlReadInc mode target tag addr count s
  | .dlReadFix mode target tag addr count => Sys2Proof.Machine.execDlReadFix mode target tag addr count s
  | .dlWriteInc mode target tag addr count data => Sys2Proof.Machine.execDlWriteInc mode target tag addr count data s
  | .dlWriteFix mode target tag addr count data => Sys2Proof.Machine.execDlWriteFix mode target tag addr count data s
  | .dlModify mode target tag addr count mask v => Sys2Proof.Machine.execDlModify mode target tag addr count mask v s
  | .ulAck acks => Sys2Proof.Machine.execUlAck acks s
  | .laneBad l => Sys2Proof.Machine.execLaneBad l s
  | .resend l first => Sys2Proof.Machine.execResend l first s
  | .hostIdent d id sentOn => Sys2Proof.Machine.execHostIdent d id sentOn s
  | .ulIdentAck l => Sys2Proof.Machine.execUlIdentAck l s
  | .hrstArm m => Sys2Proof.Machine.execHrstArm m s
  | .hrstArmExpire => Sys2Proof.Machine.execHrstArmExpire s
  -- Spoke and leaf commands (13)
  | .spokeUpstreamFrame sp f => Sys2Proof.Machine.execSpokeUpstreamFrame sp f s
  | .leafIdent sp words => Sys2Proof.Machine.execLeafIdent sp words s
  | .leafReply sp tag status data => Sys2Proof.Machine.execLeafReply sp tag status data s
  | .leafAlarm sp word => Sys2Proof.Machine.execLeafAlarm sp word s
  | .leafRecord sp header hits n => Sys2Proof.Machine.execLeafRecord sp header hits n s
  | .hubIdentResend sp => Sys2Proof.Machine.execHubIdentResend sp s
  | .leafSync m sp => Sys2Proof.Machine.execLeafSync m sp s
  | .leafSyncDone sp => Sys2Proof.Machine.execLeafSyncDone sp s
  | .leafReset m sp => Sys2Proof.Machine.execLeafReset m sp s
  | .leafPresent sp => Sys2Proof.Machine.execLeafPresent sp s
  | .leafWindowAccess m addr ops => Sys2Proof.Machine.execLeafWindowAccess m addr ops s
  | .leafRequestTimeout sp => Sys2Proof.Machine.execLeafRequestTimeout sp s
  | .leafBcastGo m => Sys2Proof.Machine.execLeafBcastGo m s
  | .leafHoldExpire sp => Sys2Proof.Machine.execLeafHoldExpire sp s
  | .leafForwardCommand cal rsync => Sys2Proof.Machine.execLeafForwardCommand cal rsync s
  | .leafIsolationCheck => Sys2Proof.Machine.execLeafIsolationCheck s
  -- Configuration commands (14)
  | .cfgBegin m => Sys2Proof.Machine.execCfgBegin m s
  | .cfgDiscard m => Sys2Proof.Machine.execCfgDiscard m s
  | .cfgArm m => Sys2Proof.Machine.execCfgArm m s
  | .cfgCancel m => Sys2Proof.Machine.execCfgCancel m s
  | .cfgApplyNow m => Sys2Proof.Machine.execCfgApplyNow m s
  | .cfgLoadData m v => Sys2Proof.Machine.execCfgLoadData m v s
  | .cfgLoadStall => Sys2Proof.Machine.execCfgLoadStall s
  | .cfgVerifyDone differs => Sys2Proof.Machine.execCfgVerifyDone differs s
  | .cfgArmDecision => Sys2Proof.Machine.execCfgArmDecision s
  | .cfgApplyEffect levels => Sys2Proof.Machine.execCfgApplyEffect levels s
  | .cfgScrub f shadow rewrote upset => Sys2Proof.Machine.execCfgScrub f shadow rewrote upset s
  -- Session, feature and key commands (15)
  | .sesChallenge m slot => Sys2Proof.Machine.execSesChallenge m slot s
  | .sesRespond m => Sys2Proof.Machine.execSesRespond m s
  | .sesClose m => Sys2Proof.Machine.execSesClose m s
  | .nonceExpire p => Sys2Proof.Machine.execNonceExpire p s
  | .sessionIdleTimeout p => Sys2Proof.Machine.execSessionIdleTimeout p s
  | .featAcceptWrite m lo hi => Sys2Proof.Machine.execFeatAcceptWrite m lo hi s
  | .sesKeyProgram m slot wards => Sys2Proof.Machine.execSesKeyProgram m slot wards s
  | .sesKeyProgramDone good => Sys2Proof.Machine.execSesKeyProgramDone good s
  | .sesKeyRevoke m slot => Sys2Proof.Machine.execSesKeyRevoke m slot s
  -- Serial port and flash commands (16)
  | .portReadInc head count => Sys2Proof.Machine.execPortReadInc head count s
  | .portReadFix head count => Sys2Proof.Machine.execPortReadFix head count s
  | .portWriteInc head count data => Sys2Proof.Machine.execPortWriteInc head count data s
  | .portWriteFix head count data => Sys2Proof.Machine.execPortWriteFix head count data s
  | .portTransactionEnd late => Sys2Proof.Machine.execPortTransactionEnd late s
  | .portCut late => Sys2Proof.Machine.execPortCut late s
  | .portOverclock => Sys2Proof.Machine.execPortOverclock s
  | .flashDiscovery f => Sys2Proof.Machine.execFlashDiscovery f s
  | .flashWindowRead m offset => Sys2Proof.Machine.execFlashWindowRead m offset s
  | .flashLineFetchDone cache bytes => Sys2Proof.Machine.execFlashLineFetchDone cache bytes s
  | .flashEngineCommand => Sys2Proof.Machine.execFlashEngineCommand s
  | .flashEngineDone => Sys2Proof.Machine.execFlashEngineDone s
  -- Keeper commands (17)
  | .keepaliveAbsent beat => Sys2Proof.Machine.execKeepaliveAbsent beat s
  | .keeperless => Sys2Proof.Machine.execKeeperless s
  | .heartbeatAbsent k => Sys2Proof.Machine.execHeartbeatAbsent k s
  | .haspClaim who => Sys2Proof.Machine.execHaspClaim who s
  | .keeperTakeoverComplete => Sys2Proof.Machine.execKeeperTakeoverComplete s
  | .keeperHalt k instr => Sys2Proof.Machine.execKeeperHalt k instr s
  | .pathFaultClear hasp => Sys2Proof.Machine.execPathFaultClear hasp s
  | .journalEntry gap => Sys2Proof.Machine.execJournalEntry gap s
  | .checkpointStart => Sys2Proof.Machine.execCheckpointStart s
  | .checkpointCommit crcOk same => Sys2Proof.Machine.execCheckpointCommit crcOk same s
  | .standbyLost => Sys2Proof.Machine.execStandbyLost s
  | .keeperCommandCommit m => Sys2Proof.Machine.execKeeperCommandCommit m s
  | .keeperMarchStep k bad corrected => Sys2Proof.Machine.execKeeperMarchStep k bad corrected s
  | .keeperInstrCheck k r => Sys2Proof.Machine.execKeeperInstrCheck k r s
  | .keeperReset m k => Sys2Proof.Machine.execKeeperReset m k s
  | .keeperRejoinTimeout k => Sys2Proof.Machine.execKeeperRejoinTimeout k s
  | .keeperSwap m => Sys2Proof.Machine.execKeeperSwap m s
  | .keeperBooted k image => Sys2Proof.Machine.execKeeperBooted k image s
  -- Image update commands (17)
  | .updBegin m => Sys2Proof.Machine.execUpdBegin m s
  | .updEraseDone ok => Sys2Proof.Machine.execUpdEraseDone ok s
  | .updData m v => Sys2Proof.Machine.execUpdData m v s
  | .updEnd m => Sys2Proof.Machine.execUpdEnd m s
  | .updVerifyDone flashOk sigOk formatOk version => Sys2Proof.Machine.execUpdVerifyDone flashOk sigOk formatOk version s
  | .updProve m => Sys2Proof.Machine.execUpdProve m s
  | .updProveDone ok => Sys2Proof.Machine.execUpdProveDone ok s
  | .updProveTimeout => Sys2Proof.Machine.execUpdProveTimeout s
  | .updComplete m => Sys2Proof.Machine.execUpdComplete m s
  | .updFinishDone ok => Sys2Proof.Machine.execUpdFinishDone ok s
  | .updAbort m => Sys2Proof.Machine.execUpdAbort m s
  -- Power, reset and gazebo commands (19)
  | .pwrGo m target => Sys2Proof.Machine.execPwrGo m target s
  | .pwrTransition => Sys2Proof.Machine.execPwrTransition s
  | .pwrChipReset m key => Sys2Proof.Machine.execPwrChipReset m key s
  | .cellReset m j c => Sys2Proof.Machine.execCellReset m j c s
  | .supplyBad k => Sys2Proof.Machine.execSupplyBad k s
  | .supplyGood => Sys2Proof.Machine.execSupplyGood s
  | .resetPin => Sys2Proof.Machine.execResetPin s
  | .bootComplete image => Sys2Proof.Machine.execBootComplete image s
  | .bootTimeout => Sys2Proof.Machine.execBootTimeout s
  | .pwrSupplyMeasure mv => Sys2Proof.Machine.execPwrSupplyMeasure mv s
  | .gzbEnter m => Sys2Proof.Machine.execGzbEnter m s
  | .gzbMonPulse => Sys2Proof.Machine.execGzbMonPulse s
  | .gzbMonEvaluate low high lost limit => Sys2Proof.Machine.execGzbMonEvaluate low high lost limit s
  | .gazeboWake why => Sys2Proof.Machine.execGazeboWake why s
  | .gzbOscReturn => Sys2Proof.Machine.execGzbOscReturn s
  | .dlWakeListen d => Sys2Proof.Machine.execDlWakeListen d s
  -- Test access port commands (20)
  | .tapReset => Sys2Proof.Machine.execTapReset s
  | .extest => Sys2Proof.Machine.execExtest s
  | .samplePreload word => Sys2Proof.Machine.execSamplePreload word s
  | .highz => Sys2Proof.Machine.execHighz s
  | .clamp => Sys2Proof.Machine.execClamp s
  | .extestPulse => Sys2Proof.Machine.execExtestPulse s
  | .extestTrain => Sys2Proof.Machine.execExtestTrain s
  | .bypass => Sys2Proof.Machine.execBypass s
  -- The sample period (02 to 06)
  | .samplePeriod codes found => Sys2Proof.Machine.execSamplePeriod codes found s

end Sys2Proof.Machine
end

