-- ==== Sys2Proof/Safety.lean ====
section
/-! DEFINITION. What counts as a sound machine and a safe run. -/

namespace Sys2Proof.Machine

/-- A sound hub: the frame count has 48 bits and the slot is 0 or 1 (R8 to R10), and the register file is in its
canonical form, so that hubs whose registers read alike have equal register files. -/
def Hub.Sound (h : Hub) : Prop :=
  h.clk.frame < 2 ^ 48 ∧ h.clk.slot < 2 ∧ SMap.wf (resetWord h.fuse) h.regs = true

/-- A machine with a sound hub. -/
def State.Sound (s : State) : Prop := s.hub.Sound

/-- Every command that waits can be sent. -/
def State.Sendable (s : State) : Prop := ∀ c ∈ s.pending, c.wellFormed = true

/-- `n` steps from `s` run without a fault or a refusal. -/
def State.runs : Nat → State → Prop
  | 0, _ => True
  | n + 1, s => ∃ t, step s = .next t ∧ State.runs n t

/-! ## What a command does: the forms in which statements are made -/

/-- `c` takes `s` to a next state: only the hub changes, and the new hub satisfies `P`. -/
def State.Gives (s : State) (c : Instr) (P : Hub → Prop) : Prop :=
  ∃ g, exec c s = .next { s with hub := g } ∧ P g

/-- In every awake hub `c` runs: its effect on the hub is `f`, and the queue is unchanged. -/
def Acts (c : Instr) (f : Hub → Hub) : Prop :=
  ∀ s : State, s.hub.awake = true → exec c s = .next { s with hub := f s.hub }

/-- In every hub, awake or not, `c` runs: its effect on the hub is `f`, and the queue is unchanged. -/
def ActsAlways (c : Instr) (f : Hub → Hub) : Prop := ∀ s : State, exec c s = .next { s with hub := f s.hub }

/-- Between `h` and `g` the registers at `as` may differ, and no other register differs. -/
def Hub.RegsBut (as : List Nat) (h g : Hub) : Prop := ∀ a, a ∉ as → g.rd a = h.rd a

/-- Between `h` and `g` the registers at `as` may differ, and nothing else of the hub differs. -/
def Hub.OnlyRegs (as : List Nat) (h g : Hub) : Prop := g = { h with regs := g.regs } ∧ Hub.RegsBut as h g

/-- Master m waits for nothing: no register of an earlier access, no keeper command. -/
def Hub.Ready (h : Hub) (m : Nat) : Prop := (h.master m).todo = [] ∧ h.waitsForKeeper m = false

/-- A write by master m reaches the register at `addr`: the hub is awake, the access is granted (R424), the register
is presented (R427, R444), and the master waits for nothing. -/
def Hub.Reaches (h : Hub) (m addr : Nat) : Prop := h.awake = true ∧ h.mayWrite m addr = true ∧ h.Ready m

/-- The same for a read. -/
def Hub.ReachesRead (h : Hub) (m addr : Nat) : Prop :=
  h.awake = true ∧ h.granted m addr false = true ∧ h.presented m addr false = true ∧ h.Ready m

/-- The hub in which an access of one register by master m acts: the access has its number. -/
def Hub.entered (h : Hub) (m : Nat) : Hub :=
  let h := h.nextAccess
  h.setMaster m { h.master m with todo := [] }

/-- The same for a write: the master's write latch is empty (R448). -/
def Hub.enteredWrite (h : Hub) (m : Nat) : Hub :=
  let h := h.nextAccess
  h.setMaster m { h.master m with todo := [], latch := none }

/-- A write of the register `l` at `addr` by master m whose action is `act`: frames of configuration memory that hold
the register are rewritten (R400), and the access has its result. -/
def Hub.writeEffect (h : Hub) (m addr : Nat) (l : Loc) (act : Hub → Hub) : Hub :=
  Hub.runTodo m 1 (((act (h.enteredWrite m)).writeTouch l (keyOf m addr l)).resolve (whoOf m) (h.access + 1) 0
    [(0, false)])

/-- A read of the register `l` at `addr` by master m (R345, R447). -/
def Hub.readEffect (h : Hub) (m addr : Nat) (l : Loc) : Hub :=
  let r := (h.entered m).readLoc m addr l
  let g := if r.2.2 then r.1.markStale (whoOf m) (h.access + 1) else r.1
  Hub.runTodo m 1 (g.resolve (whoOf m) (h.access + 1) 0 [(r.2.1, false)])

/-- Wherever its write reaches the register, `c` runs as a write of register `l` at `addr` with action `act`. -/
def Writes (c : Instr) (m addr : Nat) (l : Loc) (act : Hub → Hub) : Prop :=
  ∀ s : State, s.hub.Reaches m addr → exec c s = .next { s with hub := s.hub.writeEffect m addr l act }

/-- Wherever its read reaches the register, `c` runs as a read of register `l` at `addr`. -/
def Reads (c : Instr) (m addr : Nat) (l : Loc) : Prop :=
  ∀ s : State, s.hub.ReachesRead m addr → exec c s = .next { s with hub := s.hub.readEffect m addr l }

/-- While a keeper serves, `c` runs for every master that may write the register at `addr`: its effect is `f`. -/
def Serves (c : Instr) (m addr : Nat) (f : Hub → Hub) : Prop :=
  ∀ s : State, s.hub.awake = true → s.hub.mayWrite m addr = true → s.hub.on KPR_STATUS_KEEPERLESS = false →
    exec c s = .next { s with hub := f s.hub }

/-- The CTRL register of lane l as a place of the map. -/
def laneLoc (l : Nat) : Loc :=
  if l < 12 then ⟨.UL_CTRL, l, 0, false⟩
  else if l < 14 then ⟨.DL_CTRL, l - 12, 0, false⟩
  else ⟨.SPK_CTRL, l - 14, 0, false⟩

end Sys2Proof.Machine
end

