-- ==== Sys2Proof/Certificates/Slice0/Obligations.lean ====
section
/-! DEFINITION. The statements for the provers. -/

open Sys2Proof Sys2Proof.Machine

/-- For every state and every command c, a step with c in front of the queue is exec of c on the state with the rest
of the queue. With an empty queue a step is one microsecond of the CONTROL clock (the model's choice, log entry 3).
-/
def Obligations.StepTakesFront : Prop :=
  (∀ (s : State) (c : Instr) (rest : List Instr),
    step { s with pending := c :: rest } = exec c { s with pending := rest }) ∧
  ∀ s : State, step { s with pending := [] } = .next { s with pending := [], hub := s.hub.microsecond }

/-- From every state whose waiting commands are all well formed, a step answers a next state whose queue is the tail
of the old one; so its waiting commands are well formed too, and every number of steps runs. -/
def Obligations.SendableStepsRun : Prop :=
  ∀ s : State, s.Sendable →
    (∃ t, step s = .next t ∧ t.pending = s.pending.tail ∧ t.Sendable) ∧ ∀ n, State.runs n s

/-- From every state with a sound hub (frame count below 2^48, slot 0 or 1, register file in canonical form) every
step that answers a next state answers one with a sound hub. -/
def Obligations.StepKeepsSound : Prop :=
  ∀ s t : State, s.Sound → step s = .next t → t.Sound

/-- After reset the hub is sound, in BOOT with PWR_STATUS.STATE = 1 (R494, R509), numbering is not valid, ORG_CTRL
reads EN = 1 and SETPOINT = 700 (R65), every CELL_CTRL reads 0x00201403 (R88), every HNG_ROT_MASK 0xFFFF (R125) and
every HNG_TOL 48 (R124), every queue is empty, no slot is allocated, and no command waits. -/
def Obligations.ResetState : Prop :=
  State.reset.Sound ∧ State.reset.pending = [] ∧
  State.reset.hub.pwr.state = .boot ∧
  State.reset.hub.get PWR_STATUS_STATE = 1 ∧
  State.reset.hub.on TIME_STATUS_BX_VALID = false ∧
  State.reset.hub.rd ORG_CTRL.addr = 0x102BC ∧
  (∀ (j : Fin 24) (c : Fin 17), State.reset.hub.rd (CELL_CTRL j c).addr = 0x00201403) ∧
  (∀ j : Fin 24, State.reset.hub.rd (HNG_ROT_MASK j).addr = 0xFFFF ∧ State.reset.hub.rd (HNG_TOL j).addr = 48) ∧
  (∀ q, (State.reset.hub.queue q).words = []) ∧ ∀ k, State.reset.hub.slot k = none

/-- Two sound hubs with the same fuses in which every register reads alike have equal register files. -/
def Obligations.RegistersCanonical : Prop :=
  ∀ h g : Hub, h.Sound → g.Sound → h.fuse = g.fuse → (∀ a, h.rd a = g.rd a) → h.regs = g.regs

/-- From a sound state every command but SES_KEY_PROGRAM_DONE leaves the keys of all slots as they are, whatever the
command does: resets, loss of supplies and the test access port included (R415, R505). -/
def Obligations.KeysChangeOnlyByProgramming : Prop :=
  ∀ (s t : State) (c : Instr), s.Sound → (∀ good, c ≠ .sesKeyProgramDone good) → exec c s = .next t →
    t.hub.keys = s.hub.keys

/-- From a sound state every command but the eight of the test access port leaves its instruction and its boundary
register as they are (R528). -/
def Obligations.TapChangesOnlyByTap : Prop :=
  ∀ (s t : State) (c : Instr), s.Sound →
    (c ≠ .tapReset ∧ c ≠ .extest ∧ c ≠ .highz ∧ c ≠ .clamp ∧ c ≠ .extestPulse ∧ c ≠ .extestTrain ∧ c ≠ .bypass ∧
      ∀ w, c ≠ .samplePreload w) →
    exec c s = .next t → t.hub.tap = s.hub.tap

/-- From a sound state no command lowers the number of nonces drawn: the free value of a nonce, indexed by that
number, is a fresh one each time (R418), across every reset. -/
def Obligations.NoncesNeverReused : Prop :=
  ∀ (s t : State) (c : Instr), s.Sound → exec c s = .next t → s.hub.nonces ≤ t.hub.nonces

/-- A command that no sender can form (a received frame without 16 groups, equalizer openings for other than 32
steps, an identity item without seven words, a flash line without 64 bytes, a supply measurement without five
values, a window access outside the leaf windows) ends in the fault illFormed (the model's choice, log entry 37); no
other command faults. -/
def Obligations.IllFormedFaults : Prop :=
  (∀ (c : Instr) (s : State), c.wellFormed = false → exec c s = .fault .illFormed) ∧
  ∀ (c : Instr) (s : State) (f : Fault), exec c s = .fault f → c.wellFormed = false

/-- Every bus, alarm and queue command runs and has its effect. -/
def Obligations.BusCompletes : Prop :=
  (∀ (m : Fin 4) (addr v : Word), Acts (.registerWrite m addr v) fun h => h.act m addr.toNat [.write v.toNat]) ∧
    (∀ (m : Fin 4) (addr v : Word) (l : Loc), place addr.toNat = .reg l → (regDesc l.name).wide = false → served
    l.name = false → addr.toNat % 4 = 0 → Writes (.registerWrite m addr v) m addr.toNat l fun h => h.writeReg m l
    (keyOf m addr.toNat l) v.toNat) ∧
  (∀ (m : Fin 4) (addr : Word), Acts (.read64Low m addr) fun h => h.act m addr.toNat [.read]) ∧ (∀ (m : Fin 4)
    (addr : Word) (l : Loc), place addr.toNat = .reg l → addr.toNat % 4 = 0 → Reads (.read64Low m addr) m
    addr.toNat l) ∧
  (∀ (m : Fin 4) (addr lo hi : Word), Acts (.write64Pair m addr lo hi) fun h => h.act m addr.toNat [.write
    lo.toNat, .write hi.toNat]) ∧
  (Acts .alarmForward fun h => h.alarmForward) ∧
  (Acts .keeperHealth fun h => h.keeperHealth) ∧
  (Acts .summary fun h => h.summary) ∧
  (∀ (q : Fin 8) (data : Word) (mark pop : Bool), Acts (.queuePush q data mark pop) fun h => h.qPush q data.toNat
    mark pop) ∧
  (∀ (q : Fin 8) (err : QErr), Acts (.queuePop q err) fun h => h.queuePop q err) ∧
  (∀ (m : Fin 4) (q : Fin 8), Writes (.queueFlush m q) m (Q_CTRL q).addr ⟨.Q_CTRL, q, 0, false⟩ fun h =>
    h.flushQueue q)

/-- Every time-base command runs and has its effect. -/
def Obligations.ClockCompletes : Prop :=
  (Acts .ctlOscSwap fun h => h.ctlOscSwap) ∧
  (ActsAlways .gzbStop fun h => h.gzbStop) ∧
  (Acts .downlinkSwitch fun h => h.downlinkSwitch) ∧
  (Acts .downlinkRevert fun h => h.downlinkRevert) ∧
  (Acts .clkDlSelWrite fun h => h.takePolicy) ∧
  (∀ (m : Fin 4) (on : Bool), Writes (.clkHoldForce m on) m CLK_CTRL.addr ⟨.CLK_CTRL, 0, 0, false⟩ fun h =>
    h.writeClkCtrl ⟨.CLK_CTRL, 0, 0, false⟩ CLK_CTRL.addr (setBits (setBits (h.rd CLK_CTRL.addr) 7 7 0) 3 3 (b2n
    on))) ∧
  (∀ (m : Fin 4), Writes (.clkRelock m) m CLK_CTRL.addr ⟨.CLK_CTRL, 0, 0, false⟩ fun h => h.writeClkCtrl
    ⟨.CLK_CTRL, 0, 0, false⟩ CLK_CTRL.addr (setBits (h.rd CLK_CTRL.addr) 7 7 1)) ∧
  (Acts .relockDone fun h => h.relockDone) ∧
  (∀ (warm : Bool), ActsAlways (.ocxoWarmChange warm) fun h => h.ocxoLevel warm) ∧
  (Acts .refLost fun h => h.refLostAll) ∧
  (∀ (hz : Word), Acts (.refFreqCheck hz) fun h => h.refFreqCheck hz.toNat) ∧
  (Acts .refColdClear fun h => h.refreshRef) ∧
  (Acts .refReturn fun h => h.refReturn) ∧
  (Acts .localModeEnter fun h => h.localEnter) ∧
  (∀ (hz : Word), Acts (.localModeExit hz) fun h => h.localExit hz.toNat) ∧
  (Acts .holdoverLong fun h => h.holdoverLong) ∧
  (∀ (err : Int), Acts (.holdoverExit err) fun h => h.holdoverExit err) ∧
  (Acts .holdoverSlewDone fun h => h.slewDone) ∧
  (Acts .holdoverPhaseStep fun h => h.phaseStep) ∧
  (Acts .holdoverQualified fun h => h.holdoverQualified) ∧
  (∀ (hz : Word), Acts (.machinePllLock hz) fun h => h.pllLock hz.toNat) ∧
  (Acts .bxSet fun h => h.bxSet)

/-- Every alignment and orangery command runs and has its effect. -/
def Obligations.AlignCompletes : Prop :=
  (∀ (m : Fin 4), Writes (.alignCompute m) m TIME_ALIGN_CTRL.addr ⟨.TIME_ALIGN_CTRL, 0, 0, false⟩ fun h =>
    h.alignCompute) ∧
  (∀ (m : Fin 4), Writes (.alignArm m) m TIME_ALIGN_CTRL.addr ⟨.TIME_ALIGN_CTRL, 0, 0, false⟩ fun h => h.alignArm) ∧
  (∀ (m : Fin 4), Writes (.alignCancel m) m TIME_ALIGN_CTRL.addr ⟨.TIME_ALIGN_CTRL, 0, 0, false⟩ fun h =>
    h.alignCancel) ∧
  (Acts .alignApply fun h => h.alignTake) ∧
  (∀ (m : Fin 4) (en : Bool) (setpoint : BitVec 10), Writes (.orgCtrlWrite m en setpoint) m ORG_CTRL.addr
    ⟨.ORG_CTRL, 0, 0, false⟩ fun h => (h.orgCtrlWrite (b2n en) setpoint.toNat).skewsCold) ∧
  (Acts .orgWarmAssert fun h => h.warmAssert) ∧
  (Acts .orgWarmDeassert fun h => h.warmDeassert.skewsCold)

/-- Every sample-period and signal-cell command runs and has its effect. -/
def Obligations.CellsComplete : Prop :=
  (∀ (codes : List Conversion) (found : List Measure), ActsAlways (.samplePeriod codes found) fun h =>
    h.samplePeriod codes found) ∧
  (∀ (j : Fin 24) (c : Fin 17), Acts (.cellFrontEndChange j c) fun h => h.takeFrontEnd j c) ∧
  (∀ (j : Fin 24) (c : Fin 17), Acts (.cellEnableChange j c) fun h => h.takeEnable j c) ∧
  (∀ (j : Fin 24) (c : Fin 17), Acts (.cellRedundError j c) fun h => if h.sampling then h.redundError j c else h) ∧
  (∀ (j : Fin 24) (c : Fin 17), Acts (.cellHealthWindowEnd j c) fun h => h.healthWindow j c) ∧
  (∀ (m : Fin 4) (j : Fin 24) (c : Fin 17), Writes (.cellHealthClear m j c) m (CELL_HEALTH j c).addr
    ⟨.CELL_HEALTH, j, c, false⟩ fun h => (h.writeFields ⟨.CELL_HEALTH, j, c, false⟩ (CELL_HEALTH j c).addr
    0x8000).healthClear j c) ∧
  (∀ (j : Fin 24) (c : Fin 16) (level : Int), Acts (.discEnableChange j c level) fun h => h.takeDiscEnable j c
    level) ∧
  (∀ (j : Fin 24) (c : Fin 16) (level : Int), Acts (.discSettingsChange j c level) fun h => h.takeDiscSettings j c
    level)

/-- Every spare and hinge command runs and has its effect. -/
def Obligations.HingeCompletes : Prop :=
  (∀ (m : Fin 4) (j : Fin 24) (t : BitVec 5), Writes (.hngMoveShadow m j t) m (HNG_MOVE j).addr ⟨.HNG_MOVE, j, 0,
    false⟩ fun h => if t.toNat < 16 then h.moveShadow j t.toNat else if t.toNat = 16 then h.spareRestore j else
    h.moveIllegal j) ∧
  (∀ (m : Fin 4) (j : Fin 24) (t : BitVec 5), Writes (.hngMoveCover m j t) m (HNG_MOVE j).addr ⟨.HNG_MOVE, j, 0,
    false⟩ fun h => h.moveUse j t.toNat useCover) ∧
  (∀ (m : Fin 4) (j : Fin 24) (t : BitVec 5), Writes (.hngMoveRetire m j t) m (HNG_MOVE j).addr ⟨.HNG_MOVE, j, 0,
    false⟩ fun h => if t.toNat = 16 then h.spareRetire j else h.moveUse j t.toNat useRetire) ∧
  (∀ (m : Fin 4) (j : Fin 24) (t : BitVec 5), Writes (.hngMoveCalibrate m j t) m (HNG_MOVE j).addr ⟨.HNG_MOVE, j,
    0, false⟩ fun h => h.moveUse j t.toNat useCalibrate) ∧
  (∀ (m : Fin 4) (j : Fin 24), Writes (.spareRetire m j) m (HNG_MOVE j).addr ⟨.HNG_MOVE, j, 0, false⟩ fun h =>
    h.spareRetire j) ∧
  (∀ (m : Fin 4) (j : Fin 24), Writes (.spareRestore m j) m (HNG_MOVE j).addr ⟨.HNG_MOVE, j, 0, false⟩ fun h =>
    h.spareRestore j) ∧
  (∀ (j : Fin 24), Acts (.hingeDischargeDone j) fun h => h.dischargeDone j) ∧
  (∀ (j : Fin 24), Acts (.hingeSettled j) fun h => h.hingeSettled j) ∧
  (∀ (j : Fin 24), Acts (.dwellEnd j) fun h => h.dwellEnd j) ∧
  (∀ (m : Fin 4) (j : Fin 24) (c : Fin 16), Writes (.hngCommitToSpare m j c) m (HNG_COMMIT j).addr ⟨.HNG_COMMIT,
    j, 0, false⟩ fun h => h.commitToSpare j c) ∧
  (∀ (m : Fin 4) (j : Fin 24) (c : Fin 16), Writes (.hngCommitBack m j c) m (HNG_COMMIT j).addr ⟨.HNG_COMMIT, j,
    0, false⟩ fun h => h.commitBack j c) ∧
  (∀ (j : Fin 24), Acts (.handover j) fun h => h.handover j) ∧
  (∀ (j : Fin 24), Acts (.spareUseSafePoint j) fun h => h.safePoint j) ∧
  (∀ (j : Fin 24), Acts (.blockSelfFail j) fun h => h.selfFail j) ∧
  (∀ (m : Fin 4) (j : Fin 24), Writes (.blockReset m j) m (BLK_CTRL j).addr ⟨.BLK_CTRL, j, 0, false⟩ fun h =>
    ((h.writeFields ⟨.BLK_CTRL, j, 0, false⟩ (BLK_CTRL j).addr (setBits (h.rd (BLK_CTRL j).addr) 1 1
    1)).refreshBlk j).blockResetGo j)

/-- Every filter-chain command runs and has its effect. -/
def Obligations.FilterCompletes : Prop :=
  (∀ (j : Fin 24) (c : Fin 16), Acts (.delayChange j c) fun h => h.takeDelay j c) ∧
  (∀ (record : Bool) (j : Fin 24) (c : Fin 16), Acts (.fltSwap record j c) fun h => h.swapTake (stageOf record) j
    c false) ∧
  (∀ (record : Bool) (j : Fin 24) (c : Fin 16), Acts (.fltSwapForce record j c) fun h => h.swapTake (stageOf
    record) j c true) ∧
  (∀ (record : Bool) (j : Fin 24) (c : Fin 16), Acts (.fadeEnd record j c) fun h => h.fadeEnd (stageOf record) j
    c) ∧
  (Acts .recordBlock fun h => h.recordBlock) ∧
  (Acts .recSync fun h => h.recSync) ∧
  (∀ (m : Fin 4), Writes (.crecRestart m) m CREC_CTRL.addr ⟨.CREC_CTRL, 0, 0, false⟩ fun h => h.writeCrecCtrl 1)

/-- Every trigger and event-building command runs and has its effect. -/
def Obligations.EventsComplete : Prop :=
  (Acts .accept fun h => h.accept) ∧
  (Acts .tbTrigger fun h => h.tbTrigger) ∧
  (Acts .trellisDecision fun h => h.trellisDecision) ∧
  (Acts .tbDrive fun h => h.tbDrive) ∧
  (Acts .slotAllocation fun h => h.slotAllocation.leafCopyNew) ∧
  (Acts .trgEvtLoad fun h => if h.on TRG_CTRL_EVT_LOAD then h.evtLoad else h) ∧
  (Acts .trgClrDt fun h => if h.on TRG_CTRL_CLR_DT then h.clearDeadTime else h) ∧
  (∀ (m : Fin 4) (j : Fin 24), Writes (.snapArm m j) m (BLK_SNAP_CTRL j).addr ⟨.BLK_SNAP_CTRL, j, 0, false⟩ fun h
    => h.snapArm j) ∧
  (∀ (m : Fin 4) (j : Fin 24), Writes (.snapFreeze m j) m (BLK_SNAP_CTRL j).addr ⟨.BLK_SNAP_CTRL, j, 0, false⟩ fun
    h => h.snapFreeze j) ∧
  (∀ (m : Fin 4) (j : Fin 24), Writes (.snapRelease m j) m (BLK_SNAP_CTRL j).addr ⟨.BLK_SNAP_CTRL, j, 0, false⟩
    fun h => h.snapRelease j) ∧
  (∀ (j : Fin 24), Acts (.snapFrozen j) fun h => h.snapFrozen j) ∧
  (∀ (k : Fin 128) (errs : List RingError) (lost : List HitError), Acts (.extractionStart k errs lost) fun h =>
    h.extractionStart k (errs.map eccErr) (lost.map hitErr)) ∧
  (∀ (j : Fin 24) (err : Option Bool), Acts (.ringScrub j err) fun h => h.ringScrub j err) ∧
  (∀ (m : Fin 4) (j : Fin 24) (c : Fin 17) (w : Fin 1024) (corrected lost : List RingGroup), Acts (.diagRingRead m
    j c w corrected lost) fun h => h.diagRingRead m j c w (groupErrs corrected lost)) ∧
  (∀ (g : Fin 6), Acts (.fragmentAssembly g) fun h => h.assemblyTurn g) ∧
  (∀ (k : Fin 14), Acts (.unitSent k) fun h => h.unitSent k) ∧
  (∀ (k : Fin 128), Acts (.slotRelease k) fun h => h.slotRelease k) ∧
  (∀ (k : Fin 128), Acts (.eventClose k) fun h => h.eventClose k) ∧
  (∀ (m : Fin 4) (g : Fin 6), Writes (.regionReset m g) m (RGN_CTRL g).addr ⟨.RGN_CTRL, g, 0, false⟩ fun h =>
    ((h.writeFields ⟨.RGN_CTRL, g, 0, false⟩ (RGN_CTRL g).addr (setBits (h.rd (RGN_CTRL g).addr) 2 2
    1)).refreshLags).regionReset g) ∧
  (∀ (g : Fin 6), Acts (.regionResetEffect g) fun h => h.regionResetEffect g) ∧
  (∀ (k : Fin 128) (sp : Fin 16), Acts (.leafFragmentComplete k sp) fun h => h.leafFragment k sp)

/-- Every TDC, interval, round-trip and frequency command runs and has its effect. -/
def Obligations.TimingCompletes : Prop :=
  (∀ (id : Fin 412) (q : Fin 4) (snap : Snapshots) (move : Swing), Acts (.tdcHit id q snap move) fun h => h.tdcHit
    id q (snapOf snap) move) ∧
  (∀ (j : Fin 24) (c : Fin 17), Acts (.tdcEnableChange j c) fun h => h.takeTdcEnable j c) ∧
  (∀ (t : Fin 28) (bin : Fin 1024) (q : Fin 4), Acts (.cdSnapshot t bin q) fun h => h.cdSnapshot t bin q) ∧
  (∀ (t : Fin 28), Acts (.cdTableComplete t) fun h => h.cdComplete t) ∧
  (∀ (m t : Fin 4), Reads (.tinFifoPop m t) m (TDC_TIN_FIFO t).addr ⟨.TDC_TIN_FIFO, t, 0, false⟩) ∧
  (∀ (m : Fin 4) (j : Fin 24) (c : Fin 17), Reads (.tdcLastRead m j c) m (TDC_LAST j c).addr ⟨.TDC_LAST, j, c,
    false⟩) ∧
  (∀ (m e : Fin 4), Writes (.ivlArm m e) m (IVL_CTRL e).addr ⟨.IVL_CTRL, e, 0, false⟩ fun h => h.ivlArm e) ∧
  (∀ (m e : Fin 4), Writes (.ivlCancel m e) m (IVL_CTRL e).addr ⟨.IVL_CTRL, e, 0, false⟩ fun h => h.ivlCancel e) ∧
  (∀ (e : Fin 4) (edge : Edge) (v : BitVec 63), Acts (.ivlFirstEdge e edge v) fun h => h.ivlFirst e edge.source
    edge.falling v.toNat) ∧
  (∀ (e : Fin 4) (x : TimedEdge), Acts (.ivlResult e x) fun h => h.ivlSecond e x.edge.source x.edge.falling
    x.value.toNat) ∧
  (∀ (e : Fin 4), Acts (.ivlOvf e) fun h => h.ivlOvf e) ∧
  (Acts .rttMeasureStart fun h => h.rttStart) ∧
  (∀ (ps : Word), Acts (.rttEchoReply ps) fun h => h.rttReply ps.toNat) ∧
  (Acts .rttTimeout fun h => h.rttTimeout) ∧
  (∀ (m : Fin 4), Writes (.frqStart m) m FRQ_CTRL.addr ⟨.FRQ_CTRL, 0, 0, false⟩ fun h => h.frqStart) ∧
  (∀ (m : Fin 4), Writes (.frqCancel m) m FRQ_CTRL.addr ⟨.FRQ_CTRL, 0, 0, false⟩ fun h => h.frqCancel) ∧
  (∀ (n : Word) (ticks : BitVec 64), Acts (.frqDone n ticks) fun h => h.frqDone n.toNat ticks.toNat) ∧
  (∀ (n : Word), Acts (.frqNoEdge n) fun h => h.frqNoEdge n.toNat)

/-- Every monitor and excitation command runs and has its effect. -/
def Obligations.MonitorsComplete : Prop :=
  (Acts .monScanStart fun h => h.monScanStart) ∧
  (∀ (k : Fin 2) (code : BitVec 12), Acts (.monConversionDone k code) fun h => h.monDone k code.toNat) ∧
  (∀ (k : Fin 2), Acts (.monResultRelease k) fun h => h.monResultRelease k) ∧
  (∀ (m : Fin 4) (ch : BitVec 6), Writes (.monUrgentGo m ch) m MON_URGENT.addr ⟨.MON_URGENT, 0, 0, false⟩ fun h =>
    h.writeUrgent ⟨.MON_URGENT, 0, 0, false⟩ MON_URGENT.addr (2 ^ 31 + ch.toNat)) ∧
  (Acts .monForward fun h => h.monForward) ∧
  (∀ (x : WindowInput), Acts (.monWindowCrossing x) fun h => h.winInput x.window x.code.toNat) ∧
  (∀ (x : WindowInput), Acts (.monWindowRearm x) fun h => h.winInput x.window x.code.toNat) ∧
  (∀ (e : Fin 8), Acts (.excChange e) fun h => h.excChange e) ∧
  (∀ (e : Fin 8), Acts (.excBlankEnd e) fun h => h.excBlankEnd e) ∧
  (∀ (e : Fin 8) (limit : Bool), Acts (.excComplianceLoss e limit) fun h => h.excLoss e limit) ∧
  (∀ (e : Fin 8), Acts (.excComplianceReturn e) fun h => h.excReturn e) ∧
  (∀ (k g : Fin 2) (low level : BitVec 16), Acts (.monCalibration k g low level) fun h => h.monCalibration k g
    low.toNat level.toNat)

/-- Every calibration command runs and has its effect. -/
def Obligations.CalibrationCompletes : Prop :=
  (∀ (step : Option (Fin 24)) (bad : Bool), Acts (.calRefCheck step bad) fun h => h.calRefCheck (step.map Fin.val)
    bad) ∧
  (∀ (j : Fin 24) (c : Fin 17), Acts (.calEngineStart j c) fun h => h.calStart j c) ∧
  (∀ (j : Fin 24) (sums : StepSums) (diff : Int), Acts (.calPhaseEnd j sums diff) fun h => h.calPhaseEnd j sums
    diff) ∧
  (∀ (m : Fin 4) (s : State), s.hub.awake = true → s.hub.mayWrite m CAL_CTRL.addr = true → s.hub.on
    KPR_STATUS_KEEPERLESS = false → s.hub.on CAL_CTRL_SWEEP = false → exec (.calSweep m) s = .next { s with hub :=
    s.hub.calSweep }) ∧
  (∀ (m : Fin 4) (j : Fin 24) (c : Fin 17), Serves (.calReq m j c) m CAL_REQ.addr fun h => h.calQueue j c 1 false) ∧
  (Acts .calTempCheck fun h => h.calTempCheck) ∧
  (∀ (j : Fin 24) (c : Fin 17), Acts (.calAgeExpiry j c) fun h => h.calAge j c) ∧
  (Acts .calStrobe fun h => h.fcGate DL_FC_EN_CAL_STROBE Hub.calStrobe) ∧
  (Acts .calPulseInject fun h => h.calPulse)

/-- Every lane command runs and has its effect. -/
def Obligations.LanesComplete : Prop :=
  (∀ (m : Fin 4) (l : Fin 30), Writes (.laneEnable m l) m (laneBase l) (laneLoc l) fun h => h.writeLaneCtrl l
    (setBits (h.laneCtrlWord l) 0 0 1)) ∧
  (∀ (m : Fin 4) (l : Fin 30), Writes (.laneDisable m l) m (laneBase l) (laneLoc l) fun h => h.writeLaneCtrl l
    (setBits (h.laneCtrlWord l) 0 0 0)) ∧
  (∀ (m : Fin 4) (l : Fin 30), Writes (.laneRetrain m l) m (laneBase l) (laneLoc l) fun h => h.writeLaneCtrl l
    (setBits (h.laneCtrlWord l) 3 3 1)) ∧
  (∀ (m : Fin 4) (l : Fin 30) (mode : BitVec 2), Writes (.laneLoop m l mode) m (laneBase l) (laneLoc l) fun h =>
    h.writeLaneCtrl l (setBits (h.laneCtrlWord l) 5 4 mode.toNat)) ∧
  (∀ (l : Fin 30), Acts (.trainBackoffEnd l) fun h => h.backoffEnd l) ∧
  (∀ (l : Fin 18), ActsAlways (.signalDetectRise l) fun h => h.signalLevel (12 + l) true false) ∧
  (∀ (l : Fin 18), Acts (.trainCommaFound l) fun h => h.trainStep (12 + l) 2) ∧
  (∀ (l : Fin 18), Acts (.trainSymbolLock l) fun h => h.trainStep (12 + l) 3) ∧
  (∀ (l : Fin 18), Acts (.trainFrameLock l) fun h => h.trainStep (12 + l) 4) ∧
  (∀ (l : Fin 18) (eyes : List (BitVec 8)), (eyes.length == 32) = true → Acts (.trainEqDone l eyes) fun h =>
    h.eqDone (12 + l) (nats eyes)) ∧
  (∀ (l : Fin 30), Acts (.trainIdentDone l) fun h => h.identDone l) ∧
  (∀ (l : Fin 30), Acts (.trainTimeout l) fun h => h.trainTimeout l) ∧
  (∀ (l : Fin 18) (los : Bool), ActsAlways (.laneSignalLoss l los) fun h => h.signalLevel (12 + l) false los) ∧
  (∀ (l : Fin 18), Acts (.laneFrameLockLoss l) fun h => h.frameLockLoss (12 + l)) ∧
  (∀ (l : Fin 18) (eye : BitVec 8), Acts (.eyeUpdate l eye) fun h => h.eyeUpdate (12 + l) eye.toNat) ∧
  (∀ (l : Fin 12), Acts (.ulTxFault l) fun h => h.ulTxFault l) ∧
  (∀ (l : Fin 12), Acts (.ulAckTimeout l) fun h => if h.ulActive l && h.dlUp then h.ulLost l 7 else h) ∧
  (∀ (l : Fin 12), Acts (.ulSpareTakeover l) fun h => h.spareTakeover l) ∧
  (∀ (m : Fin 4) (l : BitVec 4), Writes (.ulPlannedMove m l) m UL_SPARE.addr ⟨.UL_SPARE, 0, 0, false⟩ fun h =>
    h.writeSpare (setBits (h.rd UL_SPARE.addr) 3 0 l.toNat)) ∧
  (∀ (l : Fin 12), Acts (.ulPlannedMoveDone l) fun h => h.plannedMoveDone l) ∧
  (∀ (m : Fin 4), Writes (.ulRelock m) m UL_COMMON_CTRL.addr ⟨.UL_COMMON_CTRL, 0, 0, false⟩ fun h => if h.on
    UL_COMMON_CTRL_RELOCK then h else h.ulRelock) ∧
  (Acts .lanePllLockLoss fun h => h.lanePllLoss) ∧
  (Acts .lanePllLock fun h => h.lanePllLock) ∧
  (∀ (l : Fin 12), Acts (.uplinkFrame l) fun h => h.uplinkFrame l)

/-- Every downlink frame, fast-command and item command runs and has its effect. -/
def Obligations.DownlinkCompletes : Prop :=
  (∀ (a b : Option RxFrame), (rxOkIf a && rxOkIf b) = true → ActsAlways (.dlFrame a b) fun h => h.dlReceive (a.map
    lineFrameOf) (b.map lineFrameOf)) ∧
  (∀ (n ps : Word), Acts (.echo n ps) fun h => h.echo n.toNat ps.toNat) ∧
  (Acts .hardReset fun h => h.hardReset) ∧
  (Acts .runStart fun h => h.fcGate DL_FC_EN_RUN_START Hub.runStart) ∧
  (Acts .runStop fun h => h.fcGate DL_FC_EN_RUN_STOP Hub.runStop) ∧
  (Acts .apply fun h => h.fcGate DL_FC_EN_APPLY Hub.cfgApplyFast) ∧
  (∀ (d : Fin 2), ActsAlways (.wake d) fun h => h.wakeFrame d) ∧
  (∀ (mode : Fin 3) (target tag : BitVec 8) (addr : Word) (count : Fin 64), Acts (.dlReadInc mode target tag addr
    count) fun h => h.dlRead mode target.toNat tag.toNat addr.toNat (count + 1) false) ∧
  (∀ (mode : Fin 3) (target tag : BitVec 8) (addr : Word) (count : Fin 64), Acts (.dlReadFix mode target tag addr
    count) fun h => h.dlRead mode target.toNat tag.toNat addr.toNat (count + 1) true) ∧
  (∀ (mode : Fin 3) (target tag : BitVec 8) (addr : Word) (count : Fin 64) (data : List Word), Acts (.dlWriteInc
    mode target tag addr count data) fun h => h.dlWrite mode target.toNat tag.toNat addr.toNat (count + 1) (nats
    data) false) ∧
  (∀ (mode : Fin 3) (target tag : BitVec 8) (addr : Word) (count : Fin 64) (data : List Word), Acts (.dlWriteFix
    mode target tag addr count data) fun h => h.dlWrite mode target.toNat tag.toNat addr.toNat (count + 1) (nats
    data) true) ∧
  (∀ (mode : Fin 3) (target tag : BitVec 8) (addr : Word) (count : Fin 64) (mask v : Word), Acts (.dlModify mode
    target tag addr count mask v) fun h => h.dlModify mode target.toNat tag.toNat addr.toNat count mask.toNat
    v.toNat) ∧
  (∀ (acks : List (Fin 12 × BitVec 16)), Acts (.ulAck acks) fun h => acks.foldl (fun h a => h.ulAck a.1 a.2.toNat)
    h) ∧
  (∀ (l : BitVec 4), Acts (.laneBad l) fun h => h.laneBad l.toNat) ∧
  (∀ (l : BitVec 4) (first : Word), Acts (.resend l first) fun h => h.resend l.toNat first.toNat) ∧
  (∀ (d : Fin 2) (id : Word) (sentOn : Fin 2), Acts (.hostIdent d id sentOn) fun h => h.hostIdent d id.toNat
    sentOn) ∧
  (∀ (l : BitVec 4), Acts (.ulIdentAck l) fun h => h.ulIdentAck l.toNat) ∧
  (∀ (m : Fin 4), Writes (.hrstArm m) m DL_HRST_ARM.addr ⟨.DL_HRST_ARM, 0, 0, false⟩ fun h => h.hrstArm) ∧
  (Acts .hrstArmExpire fun h => h.hrstExpire)

/-- Every spoke and leaf command runs and has its effect. -/
def Obligations.LeavesComplete : Prop :=
  (∀ (sp : Fin 16) (f : RxFrame), (rxOk f) = true → Acts (.spokeUpstreamFrame sp f) fun h => h.spokeFrame sp
    (lineFrameOf f)) ∧
  (∀ (sp : Fin 16) (words : List Word), (words.length == 7) = true → Acts (.leafIdent sp words) fun h =>
    h.leafIdent sp (nats words)) ∧
  (∀ (sp : Fin 16) (tag : BitVec 8) (status : Fin 16) (data : List Word), Acts (.leafReply sp tag status data) fun
    h => h.leafReply sp tag.toNat status (nats data)) ∧
  (∀ (sp : Fin 16) (word : Word), Acts (.leafAlarm sp word) fun h => h.leafAlarm sp word.toNat) ∧
  (∀ (sp : Fin 16) (header : Word) (hits : List Word) (n : BitVec 16), Acts (.leafRecord sp header hits n) fun h
    => h.leafRecord sp header.toNat (nats hits) n.toNat) ∧
  (∀ (sp : Fin 16), Acts (.hubIdentResend sp) fun h => h.hubIdentResend sp) ∧
  (∀ (m : Fin 4) (sp : Fin 16), Writes (.leafSync m sp) m (LEAF_CTRL sp).addr ⟨.LEAF_CTRL, sp, 0, false⟩ fun h =>
    h.writeLeafCtrl ⟨.LEAF_CTRL, sp, 0, false⟩ (LEAF_CTRL sp).addr (setBits (h.rd (LEAF_CTRL sp).addr) 2 1 2)) ∧
  (∀ (sp : Fin 16), Acts (.leafSyncDone sp) fun h => h.leafSyncDone sp) ∧
  (∀ (m : Fin 4) (sp : Fin 16), Writes (.leafReset m sp) m (LEAF_CTRL sp).addr ⟨.LEAF_CTRL, sp, 0, false⟩ fun h =>
    h.writeLeafCtrl ⟨.LEAF_CTRL, sp, 0, false⟩ (LEAF_CTRL sp).addr (setBits (h.rd (LEAF_CTRL sp).addr) 2 1 1)) ∧
  (∀ (sp : Fin 16), Acts (.leafPresent sp) fun h => h.leafPresentNow sp) ∧
  (∀ (m : Fin 4) (addr : Word) (ops : List Access), (windowOk addr ops) = true → Acts (.leafWindowAccess m addr
    ops) fun h => h.act m addr.toNat (ops.map busOp)) ∧
  (∀ (sp : Fin 16), Acts (.leafRequestTimeout sp) fun h => h.leafTimeout sp) ∧
  (∀ (m : Fin 4), Writes (.leafBcastGo m) m LEAF_BCAST_CTRL.addr ⟨.LEAF_BCAST_CTRL, 0, 0, false⟩ fun h =>
    (h.writeFields ⟨.LEAF_BCAST_CTRL, 0, 0, false⟩ LEAF_BCAST_CTRL.addr 1).bcastGo) ∧
  (∀ (sp : Fin 16), Acts (.leafHoldExpire sp) fun h => h.leafHoldExpire sp) ∧
  (∀ (cal rsync : Bool), Acts (.leafForwardCommand cal rsync) fun h => h.leafForward cal rsync) ∧
  (Acts .leafIsolationCheck fun h => h.leafIsolation)

/-- Every configuration command runs and has its effect. -/
def Obligations.ConfigurationCompletes : Prop :=
  (∀ (m : Fin 4), Writes (.cfgBegin m) m CFG_CTRL.addr ⟨.CFG_CTRL, 0, 0, false⟩ fun h => h.cfgBegin m) ∧
  (∀ (m : Fin 4), Writes (.cfgDiscard m) m CFG_CTRL.addr ⟨.CFG_CTRL, 0, 0, false⟩ fun h => h.cfgDiscard) ∧
  (∀ (m : Fin 4), Writes (.cfgArm m) m CFG_CTRL.addr ⟨.CFG_CTRL, 0, 0, false⟩ fun h => h.cfgArm) ∧
  (∀ (m : Fin 4), Writes (.cfgCancel m) m CFG_CTRL.addr ⟨.CFG_CTRL, 0, 0, false⟩ fun h => h.cfgCancel) ∧
  (∀ (m : Fin 4), Writes (.cfgApplyNow m) m CFG_CTRL.addr ⟨.CFG_CTRL, 0, 0, false⟩ fun h => h.cfgApplyNow) ∧
  (∀ (m : Fin 4) (v : Word), Writes (.cfgLoadData m v) m CFG_LOAD_DATA.addr ⟨.CFG_LOAD_DATA, 0, 0, false⟩ fun h =>
    h.cfgLoadData m v.toNat) ∧
  (Acts .cfgLoadStall fun h => h.cfgStall) ∧
  (∀ (differs : Bool), Acts (.cfgVerifyDone differs) fun h => h.verifyDone differs) ∧
  (Acts .cfgArmDecision fun h => h.cfgArmDecision) ∧
  (∀ (levels : List (Fin 408 × Int)), Acts (.cfgApplyEffect levels) fun h => h.applyEffect (levels.map fun p =>
    (p.1.val, p.2))) ∧
  (∀ (f : FrameId) (shadow rewrote : Bool) (upset : Option (List (Fin 32 × Word))), Acts (.cfgScrub f shadow
    rewrote upset) fun h => h.cfgScrub (frameAddress f) shadow rewrote (upset.map fun l => l.map fun p =>
    (p.1.val, p.2.toNat)))

/-- Every session, feature and key command runs and has its effect. -/
def Obligations.SessionsComplete : Prop :=
  (∀ (m : Fin 4) (slot : BitVec 2), Writes (.sesChallenge m slot) m SES_CTRL.addr ⟨.SES_CTRL, 0, 0, false⟩ fun h
    => if pathOf m = 3 ∧ h.pwr.state = .boot then h.bootSession else h.challenge (pathOf m) slot.toNat) ∧
  (∀ (m : Fin 4), Writes (.sesRespond m) m SES_CTRL.addr ⟨.SES_CTRL, 0, 0, false⟩ fun h => h.respond (pathOf m)) ∧
  (∀ (m : Fin 4), Writes (.sesClose m) m SES_CTRL.addr ⟨.SES_CTRL, 0, 0, false⟩ fun h => h.sesClose (pathOf m)) ∧
  (∀ (p : Fin 3), Acts (.nonceExpire p) fun h => h.nonceExpire (p + 1)) ∧
  (∀ (p : Fin 3), Acts (.sessionIdleTimeout p) fun h => h.sesIdle (p + 1)) ∧
  (∀ (m : Fin 4) (lo hi : Word), Acts (.featAcceptWrite m lo hi) fun h => h.act m FEAT_ACCEPT.addr [.write
    lo.toNat, .write hi.toNat]) ∧
  (∀ (m : Fin 4) (slot : BitVec 2) (wards : BitVec 6), Writes (.sesKeyProgram m slot wards) m SES_KEY_CTRL.addr
    ⟨.SES_KEY_CTRL, 0, 0, false⟩ fun h => (h.writeFields ⟨.SES_KEY_CTRL, 0, 0, false⟩ SES_KEY_CTRL.addr
    (wards.toNat * 256 + slot.toNat * 16 + 1)).keyProgram slot.toNat wards.toNat) ∧
  (∀ (good : Bool), Acts (.sesKeyProgramDone good) fun h => h.keyDone good) ∧
  (∀ (m : Fin 4) (slot : BitVec 2), Writes (.sesKeyRevoke m slot) m SES_KEY_CTRL.addr ⟨.SES_KEY_CTRL, 0, 0, false⟩
    fun h => (h.writeFields ⟨.SES_KEY_CTRL, 0, 0, false⟩ SES_KEY_CTRL.addr (slot.toNat * 16 + 2)).keyRevoke
    (pathOf m) slot.toNat)

/-- Every serial-port and flash command runs and has its effect. -/
def Obligations.PortCompletes : Prop :=
  (∀ (head : PortHead) (count : BitVec 8), Acts (.portReadInc head count) fun h => h.portRead head.id.toNat
    head.addr.toNat (count.toNat + 1) false) ∧
  (∀ (head : PortHead) (count : BitVec 8), Acts (.portReadFix head count) fun h => h.portRead head.id.toNat
    head.addr.toNat (count.toNat + 1) true) ∧
  (∀ (head : PortHead) (count : BitVec 8) (data : List Word), Acts (.portWriteInc head count data) fun h =>
    h.portWrite head.id.toNat head.addr.toNat (count.toNat + 1) (nats data) false) ∧
  (∀ (head : PortHead) (count : BitVec 8) (data : List Word), Acts (.portWriteFix head count data) fun h =>
    h.portWrite head.id.toNat head.addr.toNat (count.toNat + 1) (nats data) true) ∧
  (∀ (late : Bool), Acts (.portTransactionEnd late) fun h => h.portTransactionEnd late) ∧
  (∀ (late : Bool), Acts (.portCut late) fun h => h.portCut late) ∧
  (Acts .portOverclock fun h => h.portOverclock) ∧
  (∀ (f : FlashTables), Acts (.flashDiscovery f) fun h => h.flashDiscovered f.id.toNat f.signature.toNat
    f.head0.toNat f.head1.toNat (nats f.table)) ∧
  (∀ (m : Fin 4) (offset : BitVec 24), Acts (.flashWindowRead m offset) fun h => h.busRead m (0x10000000 +
    offset.toNat)) ∧
  (∀ (cache : Option (BitVec 18)) (bytes : List Byte), (bytes.length == 64) = true → Acts (.flashLineFetchDone
    cache bytes) fun h => h.fetchDone (cache.map fun l => 64 * l.toNat) (nats bytes)) ∧
  (Acts .flashEngineCommand fun h => h.flashEngine) ∧
  (Acts .flashEngineDone fun h => h.flashEngineDone)

/-- Every keeper and image-update command runs and has its effect. -/
def Obligations.KeepersComplete : Prop :=
  (∀ (beat : Bool), Acts (.keepaliveAbsent beat) fun h => h.keepaliveAbsent beat) ∧
  (Acts .keeperless fun h => h.keeperless) ∧
  (∀ (k : Fin 2), Acts (.heartbeatAbsent k) fun h => h.heartbeatAbsent k) ∧
  (∀ (who : Claimants), Acts (.haspClaim who) fun h => h.haspClaims who.a who.b) ∧
  (Acts .keeperTakeoverComplete fun h => h.takeoverDone) ∧
  (∀ (k : Fin 2) (instr : Bool), Acts (.keeperHalt k instr) fun h => h.keeperHalt k instr) ∧
  (∀ (hasp : Bool), Acts (.pathFaultClear hasp) fun h => h.pathClear hasp) ∧
  (∀ (gap : Bool), Acts (.journalEntry gap) fun h => h.journalEntry gap) ∧
  (Acts .checkpointStart fun h => h.checkpointStart) ∧
  (∀ (crcOk same : Bool), Acts (.checkpointCommit crcOk same) fun h => h.checkpointCommit crcOk same) ∧
  (Acts .standbyLost fun h => h.standbyLost) ∧
  (∀ (m : Fin 4), Acts (.keeperCommandCommit m) fun h => h.keeperCommit m) ∧
  (∀ (k : Fin 2) (bad : Bool) (corrected : BitVec 16), Acts (.keeperMarchStep k bad corrected) fun h =>
    h.marchStep k bad corrected.toNat) ∧
  (∀ (k : Fin 2) (r : SelfCheck), Acts (.keeperInstrCheck k r) fun h => h.instrCheck k r.pass r.corrected.toNat) ∧
  (∀ (m : Fin 4) (k : Fin 2), Serves (.keeperReset m k) m KPR_CTRL.addr fun h => h.keeperReset k) ∧
  (∀ (k : Fin 2), Acts (.keeperRejoinTimeout k) fun h => h.rejoinTimeout k) ∧
  (∀ (m : Fin 4), Serves (.keeperSwap m) m KPR_CTRL.addr fun h => h.keeperSwap) ∧
  (∀ (k : Fin 2) (image : Option Word), Acts (.keeperBooted k image) fun h => h.keeperBooted k (image.map
    BitVec.toNat)) ∧
  (∀ (m : Fin 4), Serves (.updBegin m) m KPR_UPD_CTRL.addr fun h => h.updBegin) ∧
  (∀ (ok : Bool), Acts (.updEraseDone ok) fun h => h.updEraseDone ok) ∧
  (∀ (m : Fin 4) (v : Word), Serves (.updData m v) m KPR_UPD_DATA.addr fun h => h.updData) ∧
  (∀ (m : Fin 4), Serves (.updEnd m) m KPR_UPD_CTRL.addr fun h => h.updEnd) ∧
  (∀ (flashOk sigOk formatOk : Bool) (version : Word), Acts (.updVerifyDone flashOk sigOk formatOk version) fun h
    => h.updVerifyDone flashOk sigOk formatOk version.toNat) ∧
  (∀ (m : Fin 4), Serves (.updProve m) m KPR_UPD_CTRL.addr fun h => h.updProve) ∧
  (∀ (ok : Bool), Acts (.updProveDone ok) fun h => h.updProveDone ok) ∧
  (Acts .updProveTimeout fun h => h.updProveTimeout) ∧
  (∀ (m : Fin 4), Serves (.updComplete m) m KPR_UPD_CTRL.addr fun h => h.updComplete) ∧
  (∀ (ok : Bool), Acts (.updFinishDone ok) fun h => h.updFinishDone ok) ∧
  (∀ (m : Fin 4), Serves (.updAbort m) m KPR_UPD_CTRL.addr fun h => h.updAbort)

/-- Every power, reset, gazebo and test-port command runs and has its effect. -/
def Obligations.PowerCompletes : Prop :=
  (∀ (m : Fin 4) (target : BitVec 3), Writes (.pwrGo m target) m PWR_CTRL.addr ⟨.PWR_CTRL, 0, 0, false⟩ fun h =>
    if target.toNat < 2 ∨ 4 < target.toNat then h.set1 PWR_STATUS_CFG_ILLEGAL else h.pwrGo target.toNat) ∧
  (Acts .pwrTransition fun h => h.pwrTransition) ∧
  (∀ (m : Fin 4) (key : BitVec 8), Writes (.pwrChipReset m key) m PWR_CTRL.addr ⟨.PWR_CTRL, 0, 0, false⟩ fun h =>
    if key.toNat = 0xA5 then h.chipReset whyRegister else h.set1 PWR_STATUS_CFG_ILLEGAL) ∧
  (∀ (m : Fin 4) (j : Fin 24) (c : Fin 17), Writes (.cellReset m j c) m PWR_CELL_RESET.addr ⟨.PWR_CELL_RESET, 0,
    0, false⟩ fun h => h.cellResetGo (cellResetWord j c)) ∧
  (∀ (k : Fin 5), ActsAlways (.supplyBad k) fun h => h.supplyBad k) ∧
  (ActsAlways .supplyGood fun h => h.supplyGood) ∧
  (ActsAlways .resetPin fun h => h.resetPinLow) ∧
  (∀ (image : Bool), Acts (.bootComplete image) fun h => h.bootOver image) ∧
  (Acts .bootTimeout fun h => h.bootLate) ∧
  (∀ (mv : List (BitVec 16)), (mv.length == 5) = true → Acts (.pwrSupplyMeasure mv) fun h => h.supplyMeasure (nats
    mv)) ∧
  (∀ (m : Fin 4), Writes (.gzbEnter m) m GZB_CTRL.addr ⟨.GZB_CTRL, 0, 0, false⟩ fun h => h.gzbEnter) ∧
  (ActsAlways .gzbMonPulse fun h => h.gzbMonPulse) ∧
  (∀ (low high : BitVec 48) (lost limit : BitVec 8), ActsAlways (.gzbMonEvaluate low high lost limit) fun h =>
    h.gzbMonEvaluate (packedCodes low high) lost.toNat limit.toNat) ∧
  (∀ (why : Fin 7), ActsAlways (.gazeboWake why) fun h => h.gazeboWake why) ∧
  (ActsAlways .gzbOscReturn fun h => h.gzbOscReturn) ∧
  (∀ (d : Fin 2), ActsAlways (.dlWakeListen d) fun h => h.wakeListen d) ∧
  (ActsAlways .tapReset fun h => h.tapLoad .bypass) ∧
  (ActsAlways .extest fun h => h.tapLoad .extest) ∧
  (∀ (word : BitVec 74), ActsAlways (.samplePreload word) fun h => h.tapPreload word.toNat) ∧
  (ActsAlways .highz fun h => h.tapLoad .highz) ∧
  (ActsAlways .clamp fun h => h.tapLoad .clamp) ∧
  (ActsAlways .extestPulse fun h => h.tapLoad .extestPulse) ∧
  (ActsAlways .extestTrain fun h => h.tapLoad .extestTrain) ∧
  (ActsAlways .bypass fun h => h.tapLoad .bypass)

/-- Bit 15 of a sample word is G, 0 for high gain and 1 for low gain; bit 14 is Q; bits 13:0 are the raw code of the
converter that G names (R74). -/
def Obligations.SampleWordLayout : Prop :=
  (∀ (g q : Bool) (code : Nat), code < 2 ^ 14 →
    bits (sampleWord g q code) 15 15 = b2n g ∧ bits (sampleWord g q code) 14 14 = b2n q ∧
    bits (sampleWord g q code) 13 0 = code ∧ sampleWord g q code < 2 ^ 16) ∧
  ∀ w : CellWord, (w.g = false → w.code = w.h) ∧ (w.g = true → w.code = w.l)

/-- The sample period after that of label n has label n + 1 modulo 2^49 while WHOLE stands (R10, R40, R47), and its
tick is one more. A label is a time word with the BX count in bits 63:16, the slot in bits 15:14 and fine time 0,
and the time word gives the label back (R8). -/
def Obligations.LabelsAdvance : Prop :=
  (∀ h : Hub, h.Sound → h.whole < 2 ^ 20 →
    h.advance.label = (h.label + 1) % 2 ^ 49 ∧ h.advance.clk.tick = h.clk.tick + 1 ∧ h.advance.Sound) ∧
  ∀ l : Nat, l < 2 ^ 49 →
    bits (timeWord l) 63 16 = l / 2 ∧ bits (timeWord l) 15 14 = l % 2 ∧ bits (timeWord l) 13 0 = 0 ∧
    timeWord l < 2 ^ 64 ∧ labelOf (timeWord l) = l

/-- A 32-bit word names a frame exactly when it is the address word of one of the 450 frames of R388, and two frames
have two address words. -/
def Obligations.FrameAddressesOfR388 : Prop :=
  (∀ a : Nat, a < 2 ^ 32 → (frameAddrOk a = true ↔ ∃ f : FrameId, frameAddress f = a)) ∧
  ∀ f g : FrameId, frameAddress f = frameAddress g → f = g

/-- Register k of an _INC access lies at the first address plus 4 k, through unimplemented addresses alike, until it
would pass 0xFFFF_FFFC; from then on every further register uses 0xFFFF_FFFC again, and a register there gives VOID
whatever the access does; a write there also discards the master's held +0, as any other write does (R445, R448). -/
def Obligations.AddressStepping : Prop :=
  (∀ (access addr : Nat) (ops : List BusOp) (k : Nat) (hk : k < ops.length), ∃ i : BusItem,
    (busItems access addr false ops)[k]? = some i ∧ i.pos = k ∧ i.op = ops[k] ∧
    i.addr = if addr + 4 * k ≤ 0xFFFFFFFC then addr + 4 * k else 0xFFFFFFFC) ∧
  ∀ (h : Hub) (m : Nat) (i : BusItem), i.addr = 0xFFFFFFFC →
    h.doItem m i = (h.dropLatch m i.op.writes).result m i 0 true

/-- A write of the low half of TIME_BX_PRESET or TIME_ALIGN_BX changes no register; the write of the high half after
it writes both halves together. A pair with any of bits 15:0 set, slot values 2 and 3 included, is not applied: the
register keeps its value and TIME_STATUS.WORD_ILLEGAL is set, and no other register changes (R43). -/
def Obligations.TimeWordPairs : Prop :=
  ∀ (h : Hub) (m : Nat) (r : RF) (n : RegName) (lo hi : Word),
    (n = .TIME_BX_PRESET ∧ r = TIME_BX_PRESET ∨ n = .TIME_ALIGN_BX ∧ r = TIME_ALIGN_BX) →
    let g := (h.writeLoc m r.addr ⟨n, 0, 0, false⟩ lo.toNat).1
    let f := (g.writeLoc m (r.addr + 4) ⟨n, 0, 0, true⟩ hi.toNat).1
    g.regs = h.regs ∧
    (lo.toNat % 65536 = 0 → f.r64 r = hi.toNat * 2 ^ 32 + lo.toNat ∧ Hub.RegsBut [r.addr, r.addr + 4] h f) ∧
    (lo.toNat % 65536 ≠ 0 → f.r64 r = h.r64 r ∧ f.on TIME_STATUS_WORD_ILLEGAL = true ∧
      Hub.RegsBut [TIME_STATUS.addr] h f)

/-- After master m has read the +0 half of a 64-bit value, its read of the +4 half gives the high half of that same
instant without STALE, whatever has happened to the registers since, as long as the master's shadow stands. A read
of +4 with no shadow of it gives the live value with STALE (R447). -/
def Obligations.ShadowReadsAreCoherent : Prop :=
  ∀ (h g : Hub) (m a : Nat) (l : Loc), l.name ≠ .TDC_TIN_FIFO →
    (h.readLow m a l).2.1 = h.readReg l (keyOf m a l) ∧ (h.readLow m a l).2.2 = false ∧
    (g.master m = ((h.readLow m a l).1).master m →
      g.readHigh m (a + 4) { l with high := true } =
        (g, h.readReg { l with high := true } (keyOf m a l + 4), false)) ∧
    ((g.master m).shadow = none →
      g.readHigh m (a + 4) { l with high := true } =
        (g, g.readReg { l with high := true } (keyOf m (a + 4) { l with high := true }), true))

/-- A push into a queue with room, nothing held back, appends the word with its MARK and touches no other queue; a
push without a coincident pop into a queue of 32 words leaves its words as they are and counts in Q_PUSH_FULL. A pop
delivers the oldest word and leaves the rest, a corrected single-bit error counting in Q_CORR; the pop of a word
that does not end an item, or that ends one of no agent of the hub, is all the command does. A pop of an empty queue
counts in Q_POP_EMPTY. Q_COUNT.COUNT follows the depth and no other register changes (R484, R486, R487, R489). -/
def Obligations.QueuesAreFifo : Prop :=
  ∀ (s : State) (q : Fin 8), s.hub.awake = true →
    let x := s.hub.queue q
    (∀ (data : Word) (mark : Bool), s.hub.on (Q_STATUS_TAIL_DROP q) = false → x.drop = false → x.part = false →
      x.words.length < 32 → (mark = true → x.held = []) →
      s.Gives (.queuePush q data mark false) fun g =>
        (g.queue q).words = x.words ++ [⟨data.toNat, mark, .plain⟩] ∧
        g.get (Q_COUNT_COUNT q) = x.words.length + 1 ∧
        g.on (Q_STATUS_OPEN q) = !mark ∧ (∀ k, k ≠ q.val → g.queue k = s.hub.queue k) ∧
        g = { s.hub with regs := g.regs, queues := g.queues } ∧
        Hub.RegsBut [(Q_COUNT q).addr, (Q_STATUS q).addr] s.hub g) ∧
    (∀ (data : Word) (mark : Bool), s.hub.on (Q_STATUS_TAIL_DROP q) = false → x.drop = false → x.part = false →
      x.words.length = 32 →
      s.Gives (.queuePush q data mark false) fun g =>
        (g.queue q).words = x.words ∧ (∀ k, k ≠ q.val → g.queue k = s.hub.queue k) ∧
        g.get (Q_PUSH_FULL q) = (s.hub.get (Q_PUSH_FULL q) + 1) % 2 ^ 32) ∧
    (∀ (w : QWord) (t : List QWord) (err : QErr), x.words = w :: t → x.skip = false → x.held = [] →
      err ≠ .uncorrectable → t.length < 32 →
      let g := s.hub.qPop q err
      ((g.queue q).words = t ∧ (g.queue q).last = some w ∧ g.get (Q_COUNT_COUNT q) = t.length ∧
        g.get (Q_CORR q) = (s.hub.get (Q_CORR q) + b2n (decide (err = .corrected))) % 2 ^ 32 ∧
        (∀ k, k ≠ q.val → g.queue k = s.hub.queue k) ∧
        g = { s.hub with regs := g.regs, queues := g.queues } ∧
        Hub.RegsBut [(Q_COUNT q).addr, (Q_CORR q).addr] s.hub g) ∧
      (w.mark = false ∨ (w.item = .plain ∧ q.val ≠ 0 ∧ q.val ≠ 5 ∧ q.val ≠ 6) →
        s.Gives (.queuePop q err) fun f => f = g)) ∧
    ∀ err : QErr, x.words = [] → x.held = [] →
      s.Gives (.queuePop q err) fun g =>
        (g.queue q).words = [] ∧ g.get (Q_POP_EMPTY q) = (s.hub.get (Q_POP_EMPTY q) + 1) % 2 ^ 32 ∧
        (∀ k, k ≠ q.val → g.queue k = s.hub.queue k) ∧
        g = { s.hub with regs := g.regs, queues := g.queues } ∧
        Hub.RegsBut [(Q_COUNT q).addr, (Q_POP_EMPTY q).addr] s.hub g

/-- In RUN an armed change whose WHOLE differs from the current one is not applied at its BX:
TIME_STATUS.ALIGN_WHOLE_RUN is set, TIME_ALIGN stands, and only TIME_STATUS changes. No ALIGN_APPLY in RUN changes
WHOLE at all (R50). -/
def Obligations.AlignmentInRun : Prop :=
  ∀ s : State, s.hub.awake = true → s.hub.inRun = true →
    (s.hub.on TIME_STATUS_ALIGN_ARMED = true → s.hub.nextFrame = s.hub.clk.armedBx →
      s.hub.rd TIME_ALIGN_NEXT.addr / 4096 ≠ s.hub.rd TIME_ALIGN.addr / 4096 →
      s.Gives .alignApply fun g =>
        g.on TIME_STATUS_ALIGN_WHOLE_RUN = true ∧ g.rd TIME_ALIGN.addr = s.hub.rd TIME_ALIGN.addr ∧
        Hub.OnlyRegs [TIME_STATUS.addr] s.hub g) ∧
    s.Gives .alignApply fun g => g.whole = s.hub.whole

/-- The sample period after a BX_SET has the count of TIME_BX_PRESET bits 63:16; TIME_BX_PRESET keeps its value,
TIME_STATUS.BX_VALID is set, TIME_BXSET_COUNT counts, and TIME_GZB_AT_SET takes gazebo time. A change of a valid
count, and only that, sets TIME_STATUS.BX_JUMP; without a change only these registers and the clock change (R40 to
R42). -/
def Obligations.BxSetLoadsTheCount : Prop :=
  ∀ (h : Hub) (gzb : Nat), h.Sound →
    let r := h.bxSetCount gzb
    r.1.nextFrame = h.r64 TIME_BX_PRESET / 2 ^ 16 ∧ r.1.clk.slot = h.clk.slot ∧
    r.1.r64 TIME_BX_PRESET = h.r64 TIME_BX_PRESET ∧ r.1.on TIME_STATUS_BX_VALID = true ∧
    r.1.get TIME_BXSET_COUNT = (h.get TIME_BXSET_COUNT + 1) % 2 ^ 32 ∧
    r.1.r64 TIME_GZB_AT_SET = gzb % 2 ^ 48 ∧
    (r.2 = true ↔ h.r64 TIME_BX_PRESET / 2 ^ 16 ≠ h.nextFrame) ∧
    r.1.on TIME_STATUS_BX_JUMP =
      (h.on TIME_STATUS_BX_JUMP || (h.on TIME_STATUS_BX_VALID && decide (h.r64 TIME_BX_PRESET / 2 ^ 16 ≠ h.nextFrame))) ∧
    (r.2 = false → r.1 = { h with regs := r.1.regs, clk := r.1.clk } ∧
      Hub.RegsBut [TIME_STATUS.addr, TIME_BXSET_COUNT.addr, TIME_GZB_AT_SET.addr, TIME_GZB_AT_SET.addr + 4] h r.1)

/-- BX_SET, REC_SYNC, RUN_START, RUN_STOP, APPLY and CAL_STROBE with their DL_FC_EN bit clear, and HARD_RESET while
it is not armed, increment DL_FC_IGNORED and set their DL_CTL_STATUS flag; nothing else of the hub changes (R335).
-/
def Obligations.DisabledFastCommands : Prop :=
  ∀ s : State, s.hub.awake = true →
    let quiet : Instr → RF → Prop := fun c flag => s.Gives c fun g =>
      g.get DL_FC_IGNORED = (s.hub.get DL_FC_IGNORED + 1) % 2 ^ 32 ∧ g.on flag = true ∧
      Hub.OnlyRegs [DL_FC_IGNORED.addr, DL_CTL_STATUS.addr] s.hub g
    (s.hub.on DL_FC_EN_BX_SET = false → quiet .bxSet DL_CTL_STATUS_FC_IGNORED) ∧
    (s.hub.on DL_FC_EN_REC_SYNC = false → quiet .recSync DL_CTL_STATUS_FC_IGNORED) ∧
    (s.hub.on DL_FC_EN_RUN_START = false → quiet .runStart DL_CTL_STATUS_FC_IGNORED) ∧
    (s.hub.on DL_FC_EN_RUN_STOP = false → quiet .runStop DL_CTL_STATUS_FC_IGNORED) ∧
    (s.hub.on DL_FC_EN_APPLY = false → quiet .apply DL_CTL_STATUS_FC_IGNORED) ∧
    (s.hub.on DL_FC_EN_CAL_STROBE = false → quiet .calStrobe DL_CTL_STATUS_FC_IGNORED) ∧
    (s.hub.hrstArmed = false → quiet .hardReset DL_CTL_STATUS_HRST_IGNORED)

/-- After a change of ocxo_warm or a measurement of the oscillator CLK_STATUS.REF_COLD is set exactly while
ocxo_warm is low, the oscillator is lost, or outside local mode the frequency measured differs by more than 100 ppm
from the REF_KHZ taken up; while it is set HOLD_UNQUAL is set. No register but CLK_STATUS changes (R33, R34, R36).
-/
def Obligations.ReferenceColdFollowsItsConditions : Prop :=
  ∀ (s : State) (warm : Bool) (hz : Word), s.hub.awake = true →
    let nominal := s.hub.clk.refKhz * 1000
    let off := max nominal hz.toNat - min nominal hz.toNat
    let cold : Instr → Bool → Bool → Prop := fun c warm freq => s.Gives c fun g =>
      g.on CLK_STATUS_REF_COLD =
        (!warm || s.hub.on CLK_STATUS_REF_LOST || (freq && !s.hub.on CLK_STATUS_LOCAL)) ∧
      (g.on CLK_STATUS_REF_COLD = true → g.on CLK_STATUS_HOLD_UNQUAL = true) ∧
      g = { s.hub with regs := g.regs, clk := g.clk } ∧ Hub.RegsBut [CLK_STATUS.addr] s.hub g
    cold (.ocxoWarmChange warm) warm s.hub.freqBad ∧
    cold (.refFreqCheck hz) s.hub.clk.ocxoWarm (decide (nominal < off * 10000))

/-- In RUN an ACCEPT with TRG_CFG.ACC_EN = 1 adds one trigger with CAUSE bit 0, at the time word TRG_LATENCY BX
before the BX it acts in; with ACC_EN = 0 it increments TRG_ACC_IGNORED and changes nothing else; in READY it only
advances event numbering, and outside READY and RUN it does nothing (R172). -/
def Obligations.AcceptTriggers : Prop :=
  ∀ s : State, s.hub.awake = true →
    (s.hub.on TRG_CFG_ACC_EN = true → s.hub.inRun = true →
      s.Gives .accept fun g =>
        g.trig = { s.hub.trig with pend := s.hub.trig.pend ++
          [⟨bxBack s.hub.nextFrame (s.hub.get TRG_LATENCY_LAT) * 2 ^ 16, 1, 0, s.hub.actTick⟩] } ∧
        g = { s.hub with regs := g.regs, trig := g.trig, blks := g.blks } ∧
        Hub.RegsBut ((List.range 24).map fun j => (BLK_SNAP_STATUS j).addr) s.hub g) ∧
    (s.hub.on TRG_CFG_ACC_EN = false →
      s.Gives .accept fun g =>
        g.get TRG_ACC_IGNORED = (s.hub.get TRG_ACC_IGNORED + 1) % 2 ^ 32 ∧
        Hub.OnlyRegs [TRG_ACC_IGNORED.addr] s.hub g) ∧
    (s.hub.on TRG_CFG_ACC_EN = true → s.hub.pwr.state = .ready →
      s.Gives .accept fun g =>
        g.get TRG_EVT_NEXT = (s.hub.get TRG_EVT_NEXT + 1) % 2 ^ 32 ∧ Hub.OnlyRegs [TRG_EVT_NEXT.addr] s.hub g) ∧
    (s.hub.on TRG_CFG_ACC_EN = true → s.hub.sampling = false → exec .accept s = .next s)

/-- A move of the signal through the threshold in the direction of POL, from a level that rearms the discriminator
or with the discriminator armed, is a hit of an enabled one. A hit in an event-clock period in which its TDC has
already recorded a hit is not recorded: TDC_DROP_COUNT increments, and the discriminator alone takes note. A hit
outside the dead time and that period is measured: TDC_HIT_COUNT increments, TDC_LAST takes its time word,
TDC_LAST_FLAGS says VALID with COLD while the orangery is not warm and without PILE; no other register changes (R80,
R233, R235 to R237). -/
def Obligations.TdcHits : Prop :=
  ∀ (s : State) (j : Fin 24) (c : Fin 17) (id : Fin 412) (q : Fin 4) (snap : Snapshots) (move : Swing),
    s.hub.awake = true → s.hub.sampling = true → id.val = cellId j c →
    (∀ x : Cell, ctrlEn x.ctrl = true → bit x.disc 16 = true → x.blankTick = none →
      let t : Int := 8192 + 16 * ((bits x.disc 9 0 : Int) - 512)
      let a : Int := t - 16 * (bits x.disc 12 10 : Int)
      let b : Int := t + 16 * (bits x.disc 12 10 : Int)
      (bit x.disc 15 = false → (discHit x s.hub.clk.tick move = true ↔
        move.start < t ∧ t ≤ move.stop ∧ (x.armed = true ∨ move.start < a))) ∧
      (bit x.disc 15 = true → (discHit x s.hub.clk.tick move = true ↔
        t < move.start ∧ move.stop ≤ t ∧ (x.armed = true ∨ b < move.start)))) ∧
    (discHit (s.hub.cell (cellId j c)) s.hub.clk.tick move = true → (s.hub.tdc (cellId j c)).en = true →
    ((s.hub.tdc (cellId j c)).period = some (4 * s.hub.clk.tick + q) →
      s.Gives (.tdcHit id q snap move) fun g =>
        g.get (TDC_DROP_COUNT j c) = (s.hub.get (TDC_DROP_COUNT j c) + 1) % 2 ^ 32 ∧
        g.hitStores = s.hub.hitStores ∧ (∀ k, g.tdc k = s.hub.tdc k) ∧
        Hub.RegsBut [(TDC_DROP_COUNT j c).addr] s.hub g) ∧
    ((s.hub.tdc (cellId j c)).period ≠ some (4 * s.hub.clk.tick + q) →
      s.hub.tdcWaking (s.hub.tdc (cellId j c)) = false →
      s.hub.inDeadTime (s.hub.tdc (cellId j c)) (s.hub.edgeTime (cellId j c) q (snapOf snap)) = false →
      s.Gives (.tdcHit id q snap move) fun g =>
        g.get (TDC_HIT_COUNT j c) = (s.hub.get (TDC_HIT_COUNT j c) + 1) % 2 ^ 32 ∧
        g.r64 (TDC_LAST j c) = valueWord
          (s.hub.measuredValue (cellId j c) q (s.hub.tdc (cellId j c)).skew (snapOf snap)) % 2 ^ 64 ∧
        g.rd (TDC_LAST_FLAGS j c).addr = 4 + b2n (!s.hub.warm) ∧
        (g.tdc (cellId j c)).period = some (4 * s.hub.clk.tick + q) ∧ (g.cell (cellId j c)).armed = false ∧
        Hub.RegsBut [(TDC_HIT_COUNT j c).addr, (TDC_LAST j c).addr, (TDC_LAST j c).addr + 4,
          (TDC_LAST_FLAGS j c).addr] s.hub g))

/-- An edge of the source and direction that IVL_CFG gives the start, or of those it gives the stop, moves an armed
engine to state 2, the start where it is both; an edge that is neither changes nothing. Then an edge of the other
kind writes the signed difference stop minus start in bits 39:0 of IVL_RESULT with VALID, TIE, ORDER and COLD, which
is set where the orangery was cold at either edge (log entry 58), counts, sets DONE and, without re-arming, leaves
the engine idle; an edge that is not of the other kind changes nothing. Only the engine and its registers change
(R243, R245, R257). -/
def Obligations.IntervalMeasurement : Prop :=
  ∀ (s : State) (e : Fin 4) (src : Fin 10) (falling : Bool) (v : BitVec 63), s.hub.awake = true →
    let x := s.hub.ivl e
    let at_ : Nat → Nat → Bool := fun sel fall => sel == src.val && (4 ≤ src.val || (fall == 1) == falling)
    let start := at_ (bits x.cfg 4 1) (bits x.cfg 5 5)
    let stop := at_ (bits x.cfg 12 9) (bits x.cfg 13 13)
    (s.hub.get (IVL_STATUS_STATE e) = 1 → x.armFrom ≤ s.hub.clk.tick →
      ((start || stop) = true → s.Gives (.ivlFirstEdge e ⟨src, falling⟩ v) fun g =>
        g.ivl e = { x with first := some (!start, v.toNat, !s.hub.warm) } ∧
        g.get (IVL_STATUS_STATE e) = 2 ∧ (∀ k, k ≠ e.val → g.ivl k = s.hub.ivl k) ∧
        g = { s.hub with regs := g.regs, ivls := g.ivls } ∧ Hub.RegsBut [(IVL_STATUS e).addr] s.hub g) ∧
      ((start || stop) = false → exec (.ivlFirstEdge e ⟨src, falling⟩ v) s = .next s)) ∧
    ∀ (first : Bool) (v0 : Nat) (cold : Bool), x.first = some (first, v0, cold) → bit x.cfg 16 = false →
      let d := if first then valueDiff v0 v.toNat else valueDiff v.toNat v0
      ((if first then start else stop) = false → exec (.ivlResult e ⟨⟨src, falling⟩, v⟩) s = .next s) ∧
      ((if first then start else stop) = true → s.Gives (.ivlResult e ⟨⟨src, falling⟩, v⟩) fun g =>
        bits (g.r64 (IVL_RESULT e)) 39 0 = unsgn 40 d ∧ bit (g.r64 (IVL_RESULT e)) 63 = true ∧
        bit (g.r64 (IVL_RESULT e)) 62 = (cold || !s.hub.warm) ∧ bit (g.r64 (IVL_RESULT e)) 61 = (d == 0) ∧
        bit (g.r64 (IVL_RESULT e)) 60 = decide (d < 0) ∧
        g.get (IVL_COUNT e) = (s.hub.get (IVL_COUNT e) + 1) % 2 ^ 32 ∧ g.on (IVL_STATUS_DONE e) = true ∧
        g.get (IVL_STATUS_STATE e) = 0 ∧ g.ivl e = {} ∧
        g = { s.hub with regs := g.regs, ivls := g.ivls } ∧
        Hub.RegsBut [(IVL_RESULT e).addr, (IVL_RESULT e).addr + 4, (IVL_COUNT e).addr, (IVL_STATUS e).addr] s.hub g)

/-- While the cells sample, a redundancy error of a cell increments CELL_REDUND_COUNT and marks the newest
conversion, which then carries Q (R83); a comparison of the spare that this sample took part in is taken back
(R103). Where it is not the error that reaches REDUND_LIMIT in the window, nothing else of the hub changes (R84).
Outside READY and RUN it changes nothing. -/
def Obligations.RedundancyErrors : Prop :=
  ∀ (s : State) (j : Fin 24) (c : Fin 17), s.hub.awake = true →
    (s.hub.sampling = true →
      (s.hub.get (CELL_HLTH_CFG_REDUND_LIMIT j c) = 0 ∨
        (s.hub.cell (cellId j c)).redundWin + 1 ≠ s.hub.get (CELL_HLTH_CFG_REDUND_LIMIT j c)) →
      s.Gives (.cellRedundError j c) fun g =>
        g.get (CELL_REDUND_COUNT j c) = (s.hub.get (CELL_REDUND_COUNT j c) + 1) % 2 ^ 32 ∧
        (∀ x t, (s.hub.cell (cellId j c)).conv = x :: t →
          (g.cell (cellId j c)).conv = { x with causes := x.causes ||| 2 ^ qRedund } :: t) ∧
        (∀ k, k ≠ cellId j c → g.cell k = s.hub.cell k) ∧ (∀ i, i ≠ j.val → g.blk i = s.hub.blk i) ∧
        g.blk j = { s.hub.blk j with dwell := (g.blk j).dwell } ∧
        ((∀ d, (s.hub.blk j).dwell = some d → c.val ≠ 16 ∧ c.val ≠ d.cell) → g.blk j = s.hub.blk j) ∧
        (∀ d o diff, (s.hub.blk j).dwell = some d → c.val = 16 ∨ c.val = d.cell → d.last = some (o, diff) →
          (g.blk j).dwell.map Dwell.compared = some (d.compared - 1)) ∧
        g = { s.hub with regs := g.regs, cells := g.cells, blks := g.blks } ∧
        Hub.RegsBut [(CELL_REDUND_COUNT j c).addr] s.hub g) ∧
    (s.hub.sampling = false → exec (.cellRedundError j c) s = .next s) ∧
    ∀ (x : Cell) (k : Nat) (v : Conv) (w : CellWord), x.conv[k]? = some v → bit v.causes qRedund = true →
      cellWordAt x k = some w → w.q = true

/-- A COVER, RETIRE or CALIBRATE with a target above 15, a SHADOW of a cell that does not qualify, a retirement of a
spare that serves, and a restoration of a spare that is not retired set HNG_STATUS.MOVE_ILLEGAL; nothing else of the
hub changes (R112, R118, R129). -/
def Obligations.MovesRefused : Prop :=
  ∀ (h : Hub) (j : Fin 24),
    let illegal : Hub → Prop := fun g =>
      g.on (HNG_STATUS_MOVE_ILLEGAL j) = true ∧ Hub.OnlyRegs [(HNG_STATUS j).addr] h g
    (∀ t use, 16 ≤ t → illegal (h.moveUse j t use)) ∧
    (∀ c, h.qualifies j c = false → illegal (h.moveShadow j c)) ∧
    ((h.blk j).serving.isSome = true → illegal (h.spareRetire j)) ∧
    (h.health j 16 ≠ 3 → illegal (h.spareRestore j))

/-- A DELAY_CHANGE that finds CELL_DLY unchanged changes nothing. Otherwise the delay of the channel from the next
sample on is INT × 16 + FRAC, and max(1, the distance in samples rounded up) samples from the next one on carry the
delay mark; no register and no other channel changes (R132, R133). -/
def Obligations.DelayChangeMarks : Prop :=
  ∀ (s : State) (j : Fin 24) (c : Fin 16), s.hub.awake = true →
    let n := chanOf j c
    let x := s.hub.chan n
    let new := s.hub.get (CELL_DLY_INT j c) * 16 + s.hub.get (CELL_DLY_FRAC j c)
    let old := delayAt x.dly (s.hub.clk.tick + 1)
    (new = old → exec (.delayChange j c) s = .next s) ∧
    (new ≠ old → s.Gives (.delayChange j c) fun g =>
      delayAt (g.chan n).dly (s.hub.clk.tick + 1) = new ∧
      (g.chan n).marks = x.marks ++ [⟨qDelay, s.hub.clk.tick + 1,
        s.hub.clk.tick + 1 + max 1 (((max new old - min new old) + 15) / 16)⟩] ∧
      (∀ k, k ≠ n → g.chan k = s.hub.chan k) ∧ g = { s.hub with chans := g.chans })

/-- A MODIFY with COUNT other than 0, or a WRITE without a word for each register, that addresses this hub while
fewer than 96 requests are outstanding executes nothing: its reply is status bit 27 alone. With the queues to and
from the control agent idle and no earlier reply waiting the reply leaves at once, and of all registers only
DL_OUTSTANDING and the counts of those queues change. A request that does not address this hub changes nothing at
all (R341 to R343). -/
def Obligations.MalformedRequests : Prop :=
  ∀ (s : State) (mode : Fin 3) (target tag : BitVec 8) (addr : Word) (count : Fin 64), s.hub.awake = true →
    let idle : Nat → Prop := fun q =>
      (s.hub.queue q).words = [] ∧ (s.hub.queue q).held = [] ∧ s.hub.on (Q_STATUS_OPEN q) = false
    let bad : Instr → Prop := fun c =>
      (s.hub.addressed mode target.toNat = false → exec c s = .next s) ∧
      (s.hub.addressed mode target.toNat = true → s.hub.rd DL_OUTSTANDING.addr < 96 → s.hub.lom.replies = [] →
        idle 0 → idle 1 → s.Gives c fun g =>
          g.rd DL_OUTSTANDING.addr = s.hub.rd DL_OUTSTANDING.addr + 1 ∧ g.lom = s.hub.lom ∧
          (g.txOf 12).map TxUnit.words =
            (s.hub.txOf 12).map TxUnit.words ++ [[s.hub.replyHeader mode tag.toNat 1, 2 ^ 27]] ∧
          (∀ q, q ≠ 0 → q ≠ 1 → g.queue q = s.hub.queue q) ∧ (g.queue 0).words = [] ∧ (g.queue 1).words = [] ∧
          g = { s.hub with regs := g.regs, tx := g.tx, queues := g.queues } ∧
          Hub.RegsBut [DL_OUTSTANDING.addr, (Q_COUNT 0).addr, (Q_COUNT 1).addr] s.hub g)
    (∀ mask v : Word, count.val ≠ 0 → bad (.dlModify mode target tag addr count mask v)) ∧
    (∀ data : List Word, data.length ≠ count.val + 1 → bad (.dlWriteInc mode target tag addr count data)) ∧
    ∀ data : List Word, data.length ≠ count.val + 1 → bad (.dlWriteFix mode target tag addr count data)

/-- Without an open session a path writes and reads nothing outside 0x0000_0000 to 0x0000_0107 and 0x0000_0200 to
0x0000_030F but SES_IDLE_LIMIT. With one, a write of an implemented and accepted register in a window of the RUN,
SHAPE, TRIM or FIRMWARE ward, or of SES_KEY_CTRL or SES_KEY_DATA, without that ward, and a read of any implemented
register without OBSERVE, change nothing either (R423, R424). -/
def Obligations.AccessesNeedTheirWards : Prop :=
  ∀ (s : State) (m : Fin 4) (addr v : Word), s.hub.awake = true → m.val < 2 → addr.toNat % 4 = 0 →
    let a := addr.toNat
    let p := pathOf m
    let lacks : Nat → Prop := fun w => bit (s.hub.get (bank p SES_STATUS_WARDS)) w = false
    let inside : Nat → Nat → Prop := fun lo hi => lo ≤ a ∧ a < hi
    (s.hub.sesOpen p = false → 0x108 ≤ a → (a < 0x200 ∨ 0x310 ≤ a ∨ a = SES_IDLE_LIMIT.addr) →
      exec (.registerWrite m addr v) s = .next s ∧ exec (.read64Low m addr) s = .next s) ∧
    (s.hub.sesOpen p = true → s.hub.presented m a true = true →
      ((inside 0x10000 0x30000 ∨ inside 0x50000 0xB0000 ∨ inside 0xD0000 0xF0000) ∧ lacks 1 ∨
        (inside 0x40000 0x50000 ∨ inside 0xB0000 0xD0000) ∧ lacks 2 ∨ inside 0xF0000 0x100000 ∧ lacks 3 ∨
        inside 0x30000 0x40000 ∧ lacks 4 ∨
        (a = SES_KEY_CTRL.addr ∨ ∃ k : Fin 8, a = (SES_KEY_DATA k).addr) ∧ lacks 5) →
      exec (.registerWrite m addr v) s = .next s) ∧
    (s.hub.sesOpen p = true → s.hub.presented m a false = true → 0x310 ≤ a → lacks 0 →
      exec (.read64Low m addr) s = .next s)

/-- A CHALLENGE of a locked, unrevoked slot on a path that is not locked out puts a nonce never drawn before into
SES_NONCE and makes it the path's outstanding nonce for that slot. A CHALLENGE of an unlocked slot, of a revoked
slot, or during a lockout draws none, leaves no nonce outstanding and reports why in SES_STATUS.WHY. Only SES_STATUS
and SES_NONCE of the path, its session record and the count of nonces change. The value of a nonce is free (R418,
R419, R543). -/
def Obligations.ChallengeDrawsAFreshNonce : Prop :=
  ∀ (h : Hub) (p : Nat) (n : Fin 4), p < 4 →
    let g := h.challenge p n
    (g = { h with regs := g.regs, sess := g.sess, nonces := g.nonces } ∧
      Hub.RegsBut ((bank p SES_STATUS).addr :: (List.range 4).map fun k => (bank p (SES_NONCE k)).addr) h g ∧
      ∀ q, q ≠ p → g.ses q = h.ses q) ∧
    let refused : Nat → Prop := fun why =>
      (g.ses p).nonce = false ∧ g.nonces = h.nonces ∧ g.get (bank p SES_STATUS_WHY) = why
    (h.on (SES_SLOT_LOCKED n) = true → h.on (SES_SLOT_REVOKED n) = false → (h.ses p).lockTo ≤ h.clk.usec →
      g.nonceWords p = nonceSplit (Config.nonce h.nonces).toNat ∧ g.nonces = h.nonces + 1 ∧
      (g.ses p).nonce = true ∧ (g.ses p).slot = n) ∧
    (h.on (SES_SLOT_LOCKED n) = false → refused 3) ∧
    (h.on (SES_SLOT_LOCKED n) = true → h.on (SES_SLOT_REVOKED n) = true → refused 4) ∧
    (h.on (SES_SLOT_LOCKED n) = true → h.on (SES_SLOT_REVOKED n) = false → h.clk.usec < (h.ses p).lockTo →
      refused 5)

/-- REVOKE, while no programming runs and not by a session of the slot itself, sets the revoke bit of the slot;
every chip reset leaves it set. A challenge of a revoked slot issues no nonce, and a response under a nonce issued
before opens no session. Sessions already open stay as they are. REVOKE of the slot of the writing session is
refused and sets FAIL. SES_KEY_CTRL and every SES_KEY_DATA word need the KEYS ward (R417). -/
def Obligations.RevocationIsForGood : Prop :=
  ∀ (h : Hub) (p : Nat) (n : Fin 4), p < 4 → h.on SES_KEY_CTRL_BUSY = false →
    ((h.sesOpen p = false ∨ h.get (bank p SES_STATUS_SLOT) ≠ n) →
      (h.keyRevoke p n).on (SES_SLOT_REVOKED n) = true ∧
      (∀ why, ((h.keyRevoke p n).chipReset why).on (SES_SLOT_REVOKED n) = true) ∧
      ∀ k, (h.keyRevoke p n).rd (bank k SES_STATUS).addr = h.rd (bank k SES_STATUS).addr) ∧
    (h.sesOpen p = true → h.get (bank p SES_STATUS_SLOT) = n →
      (h.keyRevoke p n).on SES_KEY_CTRL_FAIL = true ∧ Hub.OnlyRegs [SES_KEY_CTRL.addr] h (h.keyRevoke p n)) ∧
    (h.on (SES_SLOT_REVOKED n) = true →
      ((h.challenge p n).ses p).nonce = false ∧
      ((h.ses p).nonce = true → (h.ses p).slot = n →
        (h.respond p).get (bank p SES_STATUS_SLOT) = h.get (bank p SES_STATUS_SLOT) ∧
        ((h.respond p).sesOpen p = true → h.sesOpen p = true) ∧ ((h.respond p).ses p).nonce = false)) ∧
    writeWards SES_KEY_CTRL.addr = wKeys ∧ ∀ k : Fin 8, writeWards (SES_KEY_DATA k).addr = wKeys

/-- While a keeper owns the hasp and its keepalive toggles, or has been absent for less than 8 µs, a claim of a
booting or fit standby keeper is refused: HASP_STATUS.CLAIM_REFUSED is set and nothing else of the hub changes. A
claim of any other keeper changes nothing (R462, R464). -/
def Obligations.ClaimsWaitForTheKeepalive : Prop :=
  ∀ (s : State) (a b : Bool), s.hub.awake = true →
    let claims : Nat → Prop := fun k =>
      (k = 0 ∧ a = true ∨ k = 1 ∧ b = true) ∧ (s.hub.kSt k = kBooting ∨ s.hub.fitStandby k = true)
    ((claims 0 ∨ claims 1) → s.hub.owner ≠ none →
      (s.hub.get HASP_STATUS_ABSENT_US < 8 ∨ s.hub.toggling = true) →
      s.Gives (.haspClaim ⟨a, b⟩) fun g =>
        g.on HASP_STATUS_CLAIM_REFUSED = true ∧ g.owner = s.hub.owner ∧ Hub.OnlyRegs [HASP_STATUS.addr] s.hub g) ∧
    (¬ claims 0 → ¬ claims 1 → exec (.haspClaim ⟨a, b⟩) s = .next s)

/-- While a keeper serves, a BEGIN outside IDLE, DONE and FAILED, an END outside RECEIVING, a PROVE outside
VERIFIED, a COMPLETE outside PROVEN, an ABORT outside ERASING to PROVEN and an image word outside ERASING and
RECEIVING, or beyond KPR_UPD_LEN, do nothing but set KPR_UPD_STATUS.STEP_REFUSED; the update's state stands (R478).
-/
def Obligations.UpdateStepsInOrder : Prop :=
  ∀ (s : State) (m : Fin 4), s.hub.awake = true → s.hub.on KPR_STATUS_KEEPERLESS = false →
    let st := s.hub.updState
    let refused : Instr → Prop := fun c => s.Gives c fun g =>
      g.on KPR_UPD_STATUS_STEP_REFUSED = true ∧ g.updState = st ∧ Hub.OnlyRegs [KPR_UPD_STATUS.addr] s.hub g
    (s.hub.mayWrite m KPR_UPD_CTRL.addr = true →
      (st ≠ 0 → st ≠ 8 → st ≠ 9 → refused (.updBegin m)) ∧ (st ≠ 2 → refused (.updEnd m)) ∧
      (st ≠ 4 → refused (.updProve m)) ∧ (st ≠ 6 → refused (.updComplete m)) ∧
      ((st < 1 ∨ 6 < st) → refused (.updAbort m))) ∧
    (s.hub.mayWrite m KPR_UPD_DATA.addr = true →
      (st ≠ 1 → st ≠ 2 → ∀ v, refused (.updData m v)) ∧
      (s.hub.rd KPR_UPD_LEN.addr < s.hub.rd KPR_UPD_COUNT.addr + 4 → ∀ v, refused (.updData m v)))

/-- A GO to a state the table does not list from the present one, or to READY without a clock, sets
PWR_STATUS.GOTO_REFUSED and nothing else, a reserved code sets CFG_ILLEGAL and nothing else, a GO while one waits is
ignored, and a listed one waits for its BX boundary. There a GO to RUN from READY enters RUN and a GO to READY from
RUN enters READY, PWR_STATUS.STATE follows, and GO reads 0 (R494, R495, R509). -/
def Obligations.PowerTransitions : Prop :=
  (∀ (h : Hub) (t : Nat), t < 8 →
    let g := h.pwrCtrlWrite (8 + t)
    (t < 2 ∨ 4 < t → g.on PWR_STATUS_CFG_ILLEGAL = true ∧ Hub.OnlyRegs [PWR_STATUS.addr] h g) ∧
    (2 ≤ t → t ≤ 4 → h.on PWR_CTRL_GO = true → g = h) ∧
    (2 ≤ t → t ≤ 4 → h.on PWR_CTRL_GO = false → (h.goListed t = false ∨ h.goReady t = false) →
      g.on PWR_STATUS_GOTO_REFUSED = true ∧ Hub.OnlyRegs [PWR_STATUS.addr] h g) ∧
    (2 ≤ t → t ≤ 4 → h.on PWR_CTRL_GO = false → h.goListed t = true → h.goReady t = true →
      g.pwr = { h.pwr with goTarget := some t } ∧ g.on PWR_CTRL_GO = true ∧
      g = { h with regs := g.regs, pwr := g.pwr } ∧ Hub.RegsBut [PWR_CTRL.addr] h g)) ∧
  ∀ s : State,
    (s.hub.pwr.state = .ready → s.hub.pwr.goTarget = some 4 →
      s.Gives .pwrTransition fun g =>
        g.pwr = { s.hub.pwr with state := .run, goTarget := none } ∧ g.get PWR_STATUS_STATE = 4 ∧
        g.on PWR_CTRL_GO = false ∧ Hub.RegsBut [PWR_STATUS.addr, PWR_CTRL.addr] s.hub g) ∧
    (s.hub.pwr.state = .run → s.hub.pwr.goTarget = some 3 →
      s.Gives .pwrTransition fun g =>
        g.pwr = { s.hub.pwr with state := .ready, goTarget := none } ∧ g.get PWR_STATUS_STATE = 3 ∧
        g.on PWR_CTRL_GO = false ∧ Hub.RegsBut [PWR_STATUS.addr, PWR_CTRL.addr] s.hub g)

/-- After a chip reset the hub is in BOOT; every register of the gazebo domain, every fuse and every key reads as
before, but that GZB_CTRL.ENTER reads 0; PWR_RESET_COUNT has counted and PWR_STATUS.RESET_WHY names the cause; every
other register but PWR_STATUS reads its reset value, and every queue and slot is empty. An armed HARD_RESET and a
low reset pin are such resets (R335, R505). -/
def Obligations.ChipResetKeepsTheGazeboDomain : Prop :=
  (∀ (h : Hub) (why : Nat), why < 8 →
    let g := h.chipReset why
    g.pwr.state = .boot ∧ g.fuse = h.fuse ∧ g.keys = h.keys ∧
    g.get PWR_STATUS_RESET_WHY = why ∧ g.get PWR_STATUS_STATE = 1 ∧
    g.rd PWR_RESET_COUNT.addr = (h.rd PWR_RESET_COUNT.addr + 1) % 2 ^ 32 ∧
    (∀ a, gazeboKey a = true → a ≠ GZB_CTRL.addr → g.rd a = h.rd a) ∧
    g.rd GZB_CTRL.addr = setBits (h.rd GZB_CTRL.addr) 0 0 0 ∧
    (∀ a, gazeboKey a = false → a ≠ PWR_RESET_COUNT.addr → a ≠ PWR_STATUS.addr →
      g.rd a = (resetWord h.fuse a).toNat) ∧
    (∀ q, g.queue q = {}) ∧ (∀ k, g.slot k = none) ∧ g.lom = {} ∧ g.port = {}) ∧
  ∀ s : State, s.hub.awake = true →
    (s.hub.hrstArmed = true → exec .hardReset s = .next { s with hub := s.hub.chipReset whyHard }) ∧
    exec .resetPin s = .next { s with hub := s.hub.chipReset whyPin }

/-- Loading EXTEST, EXTEST_PULSE, EXTEST_TRAIN, CLAMP or HIGHZ changes the instruction alone. Loading BYPASS, or
resetting the port, from an instruction that does not take the balls changes the instruction alone; from one that
does, outside OFF and GAZEBO, it also resets the chip as the reset pin does. SAMPLE/PRELOAD loads the 74 cells of
the boundary register (R528; the reset on leaving is log entry 34). -/
def Obligations.TestAccessPort : Prop :=
  ∀ s : State,
    let loads : Instr → TapInstr → Prop := fun c i =>
      exec c s = .next { s with hub := { s.hub with tap := { s.hub.tap with instr := i } } }
    loads .extest .extest ∧ loads .extestPulse .extestPulse ∧ loads .extestTrain .extestTrain ∧
    loads .clamp .clamp ∧ loads .highz .highz ∧
    (s.hub.tap.instr.takesBalls = false →
      loads .bypass .bypass ∧ loads .tapReset .bypass ∧
      ∀ w : BitVec 74, exec (.samplePreload w) s =
        .next { s with hub := { s.hub with tap := { instr := .samplePreload, boundary := w.toNat } } }) ∧
    (s.hub.tap.instr.takesBalls = true → s.hub.awake = true →
      ∀ c, (c = Instr.bypass ∨ c = Instr.tapReset) →
        exec c s = .next { s with hub :=
          { s.hub.chipReset whyPin with tap := { s.hub.tap with instr := .bypass } } })

/-- A single-ended input lies outside a window exactly when its code is below LOW or above HIGH. An input at a
disabled comparator changes nothing. One outside the window of an enabled comparator that has not tripped sets SEEN
and OUTSIDE, counts, trips it, and with room in the alarm queue and no item open or waiting there appends the five
words of alarm 0x08: type 1, the label's time word, the word with NO_VALID, the code and the comparator as WHERE,
and MON_WIN_STATUS. One inside the window clears OUTSIDE, and rearms the comparator only if it lies inside by HYST;
with a tripped comparator and one outside nothing is counted (R16, R275). -/
def Obligations.WindowCrossings : Prop :=
  ∀ (s : State) (w : Fin 16) (code : BitVec 12), s.hub.awake = true →
    let low := s.hub.get (MON_WIN_THR_LOW w)
    let high := s.hub.get (MON_WIN_THR_HIGH w)
    let hyst := s.hub.get (MON_WIN_CFG_HYST w)
    let tripped := bit s.hub.mon.tripped w
    let quiet : Bool → Bool → Prop := fun out trip => s.Gives (.monWindowCrossing ⟨w, code⟩) fun g =>
      bit (g.get MON_WIN_STATUS_OUTSIDE) w = out ∧ bit g.mon.tripped w = trip ∧
      g.get MON_WIN_STATUS_SEEN = s.hub.get MON_WIN_STATUS_SEEN ∧
      g.mon = { s.hub.mon with tripped := g.mon.tripped } ∧ g = { s.hub with regs := g.regs, mon := g.mon } ∧
      Hub.RegsBut [MON_WIN_STATUS.addr] s.hub g
    (s.hub.on (MON_CH_CFG_DIFF (s.hub.get (MON_WIN_CFG_CH w))) = false →
      (s.hub.winBeyond w code.toNat 0 = true ↔ code.toNat < low ∨ high < code.toNat) ∧
      (s.hub.winBeyond w code.toNat (-(hyst : Int)) = true ↔
        code.toNat < low + hyst ∨ high < code.toNat + hyst)) ∧
    (s.hub.on (MON_WIN_CFG_EN w) = false →
      exec (.monWindowCrossing ⟨w, code⟩) s = .next s ∧ exec (.monWindowRearm ⟨w, code⟩) s = .next s) ∧
    (s.hub.on (MON_WIN_CFG_EN w) = true →
      (s.hub.winBeyond w code.toNat 0 = true → tripped = true → quiet true true) ∧
      (s.hub.winBeyond w code.toNat 0 = false →
        quiet false (tripped && s.hub.winBeyond w code.toNat (-(hyst : Int))))) ∧
    (s.hub.on (MON_WIN_CFG_EN w) = true → s.hub.winBeyond w code.toNat 0 = true → tripped = false →
      s.hub.on (MON_WIN_CFG_CAPTURE w) = false → s.hub.on (Q_STATUS_OPEN 6) = false →
      (s.hub.queue 6).held = [] → (s.hub.queue 6).words.length ≤ 27 →
      s.Gives (.monWindowCrossing ⟨w, code⟩) fun g =>
        bit (g.get MON_WIN_STATUS_SEEN) w = true ∧ bit (g.get MON_WIN_STATUS_OUTSIDE) w = true ∧
        g.get (MON_WIN_COUNT w) = (s.hub.get (MON_WIN_COUNT w) + 1) % 2 ^ 32 ∧ bit g.mon.tripped w = true ∧
        (g.queue 6).words.map QWord.data = (s.hub.queue 6).words.map QWord.data ++
          [0x10000000, timeWord s.hub.label % 2 ^ 32, timeWord s.hub.label / 2 ^ 32,
           b2n (!s.hub.on TIME_STATUS_BX_VALID) * 2 ^ 30 + 0x08 * 2 ^ 16 + (0x8000 + w), g.rd MON_WIN_STATUS.addr] ∧
        (g.queue 6).words.map QWord.mark = (s.hub.queue 6).words.map QWord.mark ++
          [false, false, false, false, true] ∧
        (∀ q, q ≠ 6 → g.queue q = s.hub.queue q) ∧
        Hub.RegsBut [MON_WIN_STATUS.addr, (MON_WIN_COUNT w).addr, (Q_COUNT 6).addr] s.hub g)

/-- A request for a cell that is already queued leaves every cell in its place of its block's queue; that the host
has asked for it is noted (the model's choice, log entry 63). Another one joins the end of the queue as a host
request. CAL_BLK_STATUS.QUEUED shows exactly the cells queued; no other register and no other block's queue changes
(R294, R303). -/
def Obligations.OneQueuedCalibrationPerCell : Prop :=
  ∀ (s : State) (m : Fin 4) (j : Fin 24) (c : Fin 17), s.hub.awake = true → s.hub.mayWrite m CAL_REQ.addr = true →
    s.hub.on KPR_STATUS_KEEPERLESS = false →
    let q := (s.hub.calBlk j).queue
    s.Gives (.calReq m j c) fun g =>
      ((q.any fun r => r.cell == c) = true →
        (g.calBlk j).queue.map CalReq.cell = q.map CalReq.cell ∧
        (g.calBlk j).queue = q.map fun r => if r.cell = c.val then { r with host := true } else r) ∧
      ((q.any fun r => r.cell == c) = false → (g.calBlk j).queue = q ++ [⟨c, 1, true, false⟩]) ∧
      (∀ k : Fin 17, bit (g.get (CAL_BLK_STATUS_QUEUED j)) k = (g.calBlk j).queue.any fun r => r.cell == k) ∧
      (g.calBlk j).run = (s.hub.calBlk j).run ∧ (∀ i, i ≠ j.val → g.calBlk i = s.hub.calBlk i) ∧
      g = { s.hub with regs := g.regs, cal := g.cal } ∧ Hub.RegsBut [(CAL_BLK_STATUS j).addr] s.hub g

/-- A lane in COMMA, SYMBOL, FRAME, EQ or IDENT that does not reach UP within 2 ms enters DOWN with CAUSE 1; its run
of failures counts up to 11 and its total saturates. Only its STATUS and failure registers change. A lane in any
other state changes nothing (R311, R312). -/
def Obligations.TrainingTimeout : Prop :=
  ∀ (s : State) (l : Fin 30), s.hub.awake = true →
    (2 ≤ s.hub.ls l → s.hub.ls l ≤ 6 →
      s.Gives (.trainTimeout l) fun g =>
        g.ls l = 1 ∧ g.get (lCause l) = 1 ∧
        g.get (lRun l) = (if s.hub.get (lRun l) < 11 then s.hub.get (lRun l) + 1 else 11) ∧
        g.get (lTotal l) = (if s.hub.get (lTotal l) < 65535 then s.hub.get (lTotal l) + 1 else s.hub.get (lTotal l)) ∧
        Hub.OnlyRegs [laneBase l + 8, laneBase l + 12] s.hub g) ∧
    ((s.hub.ls l < 2 ∨ 6 < s.hub.ls l) → exec (.trainTimeout l) s = .next s)

/-- Leaf window s starts at 0x0200_0000 + s × 0x0010_0000 and holds 16,384 endpoint slots of 64 bytes, endpoint e at
+ e × 0x40: every address in it lies in a leaf window, at leaf s, endpoint e and register r. While leaf s is absent
no access of any master to any address of its window is presented (R24). -/
def Obligations.LeafWindows : Prop :=
  ∀ (sp : Fin 16) (e : Fin 16384) (r : Fin 16),
    let a := 0x02000000 + sp.val * 0x00100000 + e.val * 0x40 + 4 * r.val
    place a = .leaf ∧ leafPlace a = (sp.val, e.val, r.val) ∧
    ∀ h : Hub, h.leafPresent sp = false → ∀ m w, h.presented m a w = false

/-- A word written to CFG_LOAD_DATA outside LOADING, or by a master that does not own the load, sets
CFG_STATUS.LOAD_REFUSED; APPLY_NOW in RUN sets RUN_LOCKED; an ARM for a BX less than 2 or 2^47 or more ahead sets
ARM_LATE. Nothing else of the hub changes. A load that stalls for 1 s fails with FAIL_WHY 14, and outside LOADING
the stall changes nothing (R401, R402, R404, R407). -/
def Obligations.ConfigurationRefusals : Prop :=
  (∀ (h : Hub) (m v : Nat), (h.get CFG_STATUS_STATE ≠ 1 ∨ h.get CFG_STATUS_OWNER ≠ ownerOf m) →
    (h.cfgLoadData m v).on CFG_STATUS_LOAD_REFUSED = true ∧
    Hub.OnlyRegs [CFG_STATUS.addr] h (h.cfgLoadData m v)) ∧
  (∀ h : Hub, h.inRun = true →
    h.cfgApplyNow.on CFG_STATUS_RUN_LOCKED = true ∧ Hub.OnlyRegs [CFG_STATUS.addr] h h.cfgApplyNow) ∧
  (∀ h : Hub, (aheadMod (2 ^ 48) (h.r64 CFG_APPLY_BX / 2 ^ 16) h.clk.frame < 2 ∨
      2 ^ 47 ≤ aheadMod (2 ^ 48) (h.r64 CFG_APPLY_BX / 2 ^ 16) h.clk.frame) →
    h.cfgArm.on CFG_STATUS_ARM_LATE = true ∧ Hub.OnlyRegs [CFG_STATUS.addr] h h.cfgArm) ∧
  ∀ s : State, s.hub.awake = true →
    (s.hub.get CFG_STATUS_STATE ≠ 1 → exec .cfgLoadStall s = .next s) ∧
    (s.hub.get CFG_STATUS_STATE = 1 → s.Gives .cfgLoadStall fun g => g.get CFG_STATUS_FAIL_WHY = 14)

/-- The release handshake of an allocated slot whose six region fragments and leaf fragments have all been sent
frees it, counts in EVT_RELEASED and leaves every other slot; otherwise it changes nothing (R220, R221). -/
def Obligations.SlotsReleased : Prop :=
  ∀ (s : State) (k : Fin 128), s.hub.awake = true →
    (s.hub.slot k = none → exec (.slotRelease k) s = .next s) ∧
    ∀ x : Slot, s.hub.slot k = some x →
      (x.done = false → exec (.slotRelease k) s = .next s) ∧
      (x.done = true → s.Gives (.slotRelease k) fun g =>
        g.slot k = none ∧ (∀ i, i ≠ k.val → g.slot i = s.hub.slot i) ∧
        g.trig = { s.hub.trig with slots := g.trig.slots } ∧
        g.r64 EVT_RELEASED = (s.hub.r64 EVT_RELEASED + 1) % 2 ^ 64 ∧
        g.rd TRG_FREE_SLOTS.addr = g.freeSlots.length)

/-- A SWAP that waits is taken up with SWAP reading 0. While a fade runs it sets SWAP_BUSY and nothing else; with
NEXT equal to CUR it changes nothing else; otherwise a fade from CUR to NEXT over 8 × 2^FADE_LEN outputs starts,
FADING reads 1, CUR stands until its end, and only the channel and the stage's register change (R147, R148). -/
def Obligations.FilterSwaps : Prop :=
  ∀ (s : State) (record : Bool) (j : Fin 24) (c : Fin 16), s.hub.awake = true →
    let r := stageReg (stageOf record) j c
    bit (s.hub.rd r.addr) 31 = true → bit (s.hub.rd r.addr) 30 = false →
    (s.hub.on (fFading r) = true → s.Gives (.fltSwap record j c) fun g =>
      g.get (fSwap r) = 0 ∧ g.on (CELL_FLT_STATUS_SWAP_BUSY j c) = true ∧
      Hub.OnlyRegs [r.addr, (CELL_FLT_STATUS j c).addr] s.hub g) ∧
    (s.hub.on (fFading r) = false → s.hub.get (fNext r) = s.hub.get (fCur r) →
      s.Gives (.fltSwap record j c) fun g => g.get (fSwap r) = 0 ∧ Hub.OnlyRegs [r.addr] s.hub g) ∧
    (s.hub.on (fFading r) = false → s.hub.get (fNext r) ≠ s.hub.get (fCur r) →
      s.Gives (.fltSwap record j c) fun g =>
        g.get (fSwap r) = 0 ∧ g.on (fFading r) = true ∧ g.get (fCur r) = s.hub.get (fCur r) ∧
        g.fadeOf (stageOf record) (chanOf j c) =
          some ⟨s.hub.get (fCur r), s.hub.get (fNext r), 0, 8 * 2 ^ s.hub.get (fFadeLen r)⟩ ∧
        (∀ k, k ≠ chanOf j c → g.chan k = s.hub.chan k) ∧
        g = { s.hub with regs := g.regs, chans := g.chans } ∧ Hub.RegsBut [r.addr] s.hub g)
end

