-- ==== Sys2Proof/Laws/Map.lean ====
section
/-! SUPPORT. Sparse tables: a read after a write, and that every write keeps the canonical form. -/

namespace Sys2Proof.Machine

variable {α : Type}

theorem SMap.get_erase_self (d : Nat → α) (m : SMap α) (k : Nat) : SMap.get d (SMap.erase k m) k = d k := by
  induction m with
  | nil => rfl
  | cons p t ih =>
    obtain ⟨a, v⟩ := p
    by_cases h : a = k <;> simp [SMap.erase, SMap.get, h, ih]

theorem SMap.get_erase_ne (d : Nat → α) (m : SMap α) {j k : Nat} (h : k ≠ j) :
    SMap.get d (SMap.erase j m) k = SMap.get d m k := by
  induction m with
  | nil => rfl
  | cons p t ih =>
    obtain ⟨a, v⟩ := p
    by_cases e : a = j
    · have n : a ≠ k := fun c => h (c.symm.trans e)
      simp only [SMap.erase, if_pos e, SMap.get, if_neg n, ih]
    · simp [SMap.erase, SMap.get, e, ih]

theorem SMap.get_insert_ne (d : Nat → α) (m : SMap α) {j k : Nat} (v : α) (h : k ≠ j) :
    SMap.get d (SMap.insert j v m) k = SMap.get d m k := by
  induction m with
  | nil => simp [SMap.insert, SMap.get, Ne.symm h]
  | cons p t ih =>
    obtain ⟨a, w⟩ := p
    by_cases e : j < a
    · simp [SMap.insert, SMap.get, e, Ne.symm h]
    · simp [SMap.insert, SMap.get, e, ih]

theorem SMap.get_insert_erase (d : Nat → α) (m : SMap α) (k : Nat) (v : α) :
    SMap.get d (SMap.insert k v (SMap.erase k m)) k = v := by
  induction m with
  | nil => simp [SMap.erase, SMap.insert, SMap.get]
  | cons p t ih =>
    obtain ⟨a, w⟩ := p
    by_cases e : a = k
    · simp only [SMap.erase, if_pos e, ih]
    · by_cases l : k < a
      · simp [SMap.erase, SMap.insert, SMap.get, e, l]
      · simp [SMap.erase, SMap.insert, SMap.get, e, l, ih]

/-- A read after a write: the written key gives the value, every other key what it gave before. -/
theorem SMap.get_set [DecidableEq α] (d : Nat → α) (m : SMap α) (j k : Nat) (v : α) :
    SMap.get d (SMap.set d m j v) k = if k = j then v else SMap.get d m k := by
  unfold SMap.set
  by_cases h : k = j
  · subst h
    by_cases e : v = d k
    · simp [e, SMap.get_erase_self]
    · simp [e, SMap.get_insert_erase]
  · by_cases e : v = d j
    · simp [e, h, SMap.get_erase_ne]
    · simp [e, h, SMap.get_insert_ne, SMap.get_erase_ne]

theorem SMap.above_erase {k j : Nat} {m : SMap α} (h : SMap.above k m = true) :
    SMap.above k (SMap.erase j m) = true := by
  induction m with
  | nil => rfl
  | cons p t ih =>
    obtain ⟨a, v⟩ := p
    simp only [SMap.above, Bool.and_eq_true, decide_eq_true_eq] at h
    by_cases e : a = j
    · rw [SMap.erase, if_pos e]; exact ih h.2
    · rw [SMap.erase, if_neg e]; simp [SMap.above, h.1, ih h.2]

theorem SMap.above_insert {k j : Nat} {v : α} {m : SMap α} (l : k < j) (h : SMap.above k m = true) :
    SMap.above k (SMap.insert j v m) = true := by
  induction m with
  | nil => simp [SMap.insert, SMap.above, l]
  | cons p t ih =>
    obtain ⟨a, w⟩ := p
    simp only [SMap.above, Bool.and_eq_true, decide_eq_true_eq] at h
    by_cases e : j < a <;> simp [SMap.insert, SMap.above, e, l, h.1, h.2, ih h.2]

theorem SMap.above_trans {k j : Nat} {m : SMap α} (l : k < j) (h : SMap.above j m = true) :
    SMap.above k m = true := by
  induction m with
  | nil => rfl
  | cons p t ih =>
    obtain ⟨a, w⟩ := p
    simp only [SMap.above, Bool.and_eq_true, decide_eq_true_eq] at h ⊢
    exact ⟨by omega, ih h.2⟩

/-- No entry of the table has key `k`. -/
theorem SMap.erase_no_key {k : Nat} {m : SMap α} : ∀ p ∈ SMap.erase k m, p.1 ≠ k := by
  induction m with
  | nil => intro p h; cases h
  | cons q t ih =>
    obtain ⟨a, v⟩ := q
    intro p h
    by_cases e : a = k
    · rw [SMap.erase, if_pos e] at h
      exact ih p h
    · rw [SMap.erase, if_neg e] at h
      cases h with
      | head => exact e
      | tail _ h => exact ih p h

theorem SMap.above_filter {k : Nat} {p : Nat × α → Bool} {m : SMap α} (h : SMap.above k m = true) :
    SMap.above k (m.filter p) = true := by
  induction m with
  | nil => rfl
  | cons q t ih =>
    obtain ⟨a, v⟩ := q
    simp only [SMap.above, Bool.and_eq_true] at h
    by_cases e : p (a, v) = true
    · rw [List.filter_cons_of_pos e]
      simp only [SMap.above, Bool.and_eq_true]
      exact ⟨h.1, ih h.2⟩
    · rw [List.filter_cons_of_neg e]
      exact ih h.2

variable [DecidableEq α]

theorem SMap.wf_erase {d : Nat → α} {k : Nat} {m : SMap α} (h : SMap.wf d m = true) :
    SMap.wf d (SMap.erase k m) = true := by
  induction m with
  | nil => rfl
  | cons p t ih =>
    obtain ⟨a, v⟩ := p
    simp only [SMap.wf, Bool.and_eq_true] at h
    by_cases e : a = k
    · rw [SMap.erase, if_pos e]; exact ih h.2
    · rw [SMap.erase, if_neg e]
      simp only [SMap.wf, Bool.and_eq_true]
      exact ⟨⟨h.1.1, SMap.above_erase h.1.2⟩, ih h.2⟩

theorem SMap.wf_insert {d : Nat → α} {k : Nat} {v : α} {m : SMap α} (hv : v ≠ d k) (hk : ∀ p ∈ m, p.1 ≠ k)
    (h : SMap.wf d m = true) : SMap.wf d (SMap.insert k v m) = true := by
  induction m with
  | nil => simp [SMap.insert, SMap.wf, SMap.above, hv]
  | cons p t ih =>
    obtain ⟨a, w⟩ := p
    have h' := h
    simp only [SMap.wf, Bool.and_eq_true] at h
    have na : a ≠ k := hk (a, w) (List.mem_cons_self)
    by_cases e : k < a
    · rw [SMap.insert, if_pos e]
      simp only [SMap.wf, Bool.and_eq_true] at h' ⊢
      exact ⟨⟨by simpa using hv, by simp [SMap.above, e, SMap.above_trans e h.1.2]⟩, h'⟩
    · rw [SMap.insert, if_neg e]
      simp only [SMap.wf, Bool.and_eq_true]
      exact ⟨⟨h.1.1, SMap.above_insert (by omega) h.1.2⟩, ih (fun q hq => hk q (List.mem_cons_of_mem _ hq)) h.2⟩

/-- A write keeps the canonical form. -/
theorem SMap.wf_set {d : Nat → α} {m : SMap α} (k : Nat) (v : α) (h : SMap.wf d m = true) :
    SMap.wf d (SMap.set d m k v) = true := by
  unfold SMap.set
  split
  · exact SMap.wf_erase h
  · exact SMap.wf_insert ‹_› SMap.erase_no_key (SMap.wf_erase h)

/-- The canonical form rests on the defaults of the keys that are listed. -/
theorem SMap.wf_congr {d d' : Nat → α} {m : SMap α} (e : ∀ p ∈ m, d p.1 = d' p.1) (h : SMap.wf d m = true) :
    SMap.wf d' m = true := by
  induction m with
  | nil => rfl
  | cons p t ih =>
    obtain ⟨a, v⟩ := p
    simp only [SMap.wf, Bool.and_eq_true] at h ⊢
    exact ⟨⟨by rw [← e (a, v) List.mem_cons_self]; exact h.1.1, h.1.2⟩,
      ih (fun q hq => e q (List.mem_cons_of_mem _ hq)) h.2⟩

/-- Leaving entries out keeps the canonical form. -/
theorem SMap.wf_filter {d : Nat → α} {p : Nat × α → Bool} {m : SMap α} (h : SMap.wf d m = true) :
    SMap.wf d (m.filter p) = true := by
  induction m with
  | nil => rfl
  | cons q t ih =>
    obtain ⟨a, v⟩ := q
    simp only [SMap.wf, Bool.and_eq_true] at h
    by_cases e : p (a, v) = true
    · rw [List.filter_cons_of_pos e]
      simp only [SMap.wf, Bool.and_eq_true]
      exact ⟨⟨h.1.1, SMap.above_filter h.1.2⟩, ih h.2⟩
    · rw [List.filter_cons_of_neg e]
      exact ih h.2


/-- A write keeps the canonical form for defaults that have changed at the written key alone. -/
theorem SMap.wf_set_of_agree {d d' : Nat → α} {m : SMap α} {k : Nat} {v : α} (e : ∀ j, j ≠ k → d' j = d j)
    (h : SMap.wf d m = true) : SMap.wf d' (SMap.set d' m k v) = true := by
  have w : SMap.wf d' (SMap.erase k m) = true :=
    SMap.wf_congr (fun p hp => (e p.1 (SMap.erase_no_key p hp)).symm) (SMap.wf_erase h)
  unfold SMap.set
  split
  · exact w
  · exact SMap.wf_insert ‹_› SMap.erase_no_key w

end Sys2Proof.Machine
end

