-- ==== Sys2Proof/Laws/Regs.lean ====
section
/-! SUPPORT. Registers and fields: a read after a write. One lemma for each way two fields can lie to each other. -/

namespace Sys2Proof.Machine

/-! ## Bits -/

/-- A replaced field splits a number into what lies above it, the field and what lies below it. -/
theorem setBits_eq (old hi lo n : Nat) :
    setBits old hi lo n =
      (old / 2 ^ lo / 2 ^ (hi - lo + 1) * 2 ^ (hi - lo + 1) + n % 2 ^ (hi - lo + 1)) * 2 ^ lo + old % 2 ^ lo := by
  unfold setBits bits
  generalize 2 ^ lo = A
  generalize 2 ^ (hi - lo + 1) = B
  have h1 : old / A * A + old % A = old := Nat.div_add_mod' old A
  have h2 : old / A / B * B + old / A % B = old / A := Nat.div_add_mod' (old / A) B
  have h3 : (old / A / B * B + old / A % B) * A = old / A * A := by rw [h2]
  rw [Nat.add_mul] at h3 ⊢
  omega

/-- The field reads as the value it was set to. -/
theorem bits_setBits_self (old hi lo n : Nat) : bits (setBits old hi lo n) hi lo = n % 2 ^ (hi - lo + 1) := by
  rw [setBits_eq, bits, Nat.add_comm _ (old % 2 ^ lo), Nat.add_mul_div_right _ _ (Nat.two_pow_pos lo),
    Nat.div_eq_of_lt (Nat.mod_lt _ (Nat.two_pow_pos lo)), Nat.zero_add, Nat.add_comm, Nat.add_mul_mod_self_right,
    Nat.mod_mod]

/-- Dropping bits above a field leaves it as it is. -/
theorem bits_mod (x a b m : Nat) (hb : b ≤ a) (h : a < m) : bits (x % 2 ^ m) a b = bits x a b := by
  have l : 2 ^ m = 2 ^ b * (2 ^ (a - b + 1) * 2 ^ (m - a - 1)) := by
    rw [← Nat.pow_add, ← Nat.pow_add]
    congr 1
    omega
  unfold bits
  rw [l, Nat.mod_mul_right_div_self, Nat.mod_mod_of_dvd _ (Nat.dvd_mul_right _ _)]

/-- A field below the one that was set keeps its value. -/
theorem bits_setBits_below (old hi lo n a b : Nat) (hb : b ≤ a) (h : a < lo) :
    bits (setBits old hi lo n) a b = bits old a b := by
  rw [← bits_mod _ a b lo hb h, ← bits_mod old a b lo hb h, setBits_eq, Nat.mul_comm _ (2 ^ lo), Nat.mul_add_mod,
    Nat.mod_mod]

/-- A field above the one that was set keeps its value. -/
theorem bits_setBits_above (old hi lo n a b : Nat) (hl : lo ≤ hi) (h : hi < b) :
    bits (setBits old hi lo n) a b = bits old a b := by
  have e : 2 ^ b = 2 ^ lo * (2 ^ (hi - lo + 1) * 2 ^ (b - hi - 1)) := by
    rw [← Nat.pow_add, ← Nat.pow_add]
    congr 1
    omega
  have d : setBits old hi lo n / 2 ^ lo / 2 ^ (hi - lo + 1) = old / 2 ^ lo / 2 ^ (hi - lo + 1) := by
    rw [setBits_eq, Nat.add_comm _ (old % 2 ^ lo), Nat.add_mul_div_right _ _ (Nat.two_pow_pos lo),
      Nat.div_eq_of_lt (Nat.mod_lt _ (Nat.two_pow_pos lo)), Nat.zero_add, Nat.add_comm,
      Nat.add_mul_div_right _ _ (Nat.two_pow_pos _), Nat.div_eq_of_lt (Nat.mod_lt _ (Nat.two_pow_pos _)), Nat.zero_add]
  unfold bits
  rw [e, ← Nat.div_div_eq_div_mul, ← Nat.div_div_eq_div_mul, d, ← Nat.div_div_eq_div_mul, ← Nat.div_div_eq_div_mul]

/-! ## Registers -/

/-- A register holds 32 bits. -/
theorem Hub.rd_lt (h : Hub) (k : Nat) : h.rd k < 2 ^ 32 := (SMap.get (resetWord h.fuse) h.regs k).isLt

/-- A register read after a register write. -/
theorem Hub.rd_wr (h : Hub) (j k v : Nat) : (h.wr j v).rd k = if k = j then v % 2 ^ 32 else h.rd k := by
  unfold Hub.wr Hub.rd
  dsimp only
  rw [SMap.get_set]
  split <;> simp

theorem Hub.rd_wr_self (h : Hub) (k v : Nat) : (h.wr k v).rd k = v % 2 ^ 32 := by simp [Hub.rd_wr]

theorem Hub.rd_wr_ne (h : Hub) {j k : Nat} (v : Nat) (e : k ≠ j) : (h.wr j v).rd k = h.rd k := by
  simp [Hub.rd_wr, e]

/-- A field of a register after the whole register is written. -/
theorem Hub.get_wr_self (h : Hub) (f : RF) (v : Nat) (hl : f.lo ≤ f.hi) (hh : f.hi < 32) :
    (h.wr f.addr v).get f = bits v f.hi f.lo := by
  unfold Hub.get
  rw [Hub.rd_wr_self, bits_mod _ _ _ _ hl hh]

theorem Hub.get_wr_ne (h : Hub) (f : RF) {k : Nat} (v : Nat) (e : f.addr ≠ k) : (h.wr k v).get f = h.get f := by
  unfold Hub.get
  rw [Hub.rd_wr_ne _ _ e]

/-- A field reads as it was set. -/
theorem Hub.get_put_self (h : Hub) (f : RF) (n : Nat) (hl : f.lo ≤ f.hi) (hh : f.hi < 32) :
    (h.put f n).get f = n % 2 ^ (f.hi - f.lo + 1) := by
  unfold Hub.put
  rw [Hub.get_wr_self _ _ _ hl hh, bits_setBits_self]

/-- Setting a field leaves other registers alone. -/
theorem Hub.rd_put_ne (h : Hub) (f : RF) (n : Nat) {k : Nat} (e : k ≠ f.addr) : (h.put f n).rd k = h.rd k :=
  Hub.rd_wr_ne _ _ e

theorem Hub.get_put_ne (h : Hub) (f g : RF) (n : Nat) (e : g.addr ≠ f.addr) : (h.put f n).get g = h.get g :=
  Hub.get_wr_ne _ _ _ e

/-- Setting a field leaves the fields below it alone. -/
theorem Hub.get_put_below (h : Hub) (f g : RF) (n : Nat) (hg : g.lo ≤ g.hi) (hh : g.hi < 32) (l : g.hi < f.lo) :
    (h.put f n).get g = h.get g := by
  by_cases e : g.addr = f.addr
  · unfold Hub.put Hub.get
    rw [e, Hub.rd_wr_self, bits_mod _ _ _ _ hg hh, bits_setBits_below _ _ _ _ _ _ hg l]
  · exact Hub.get_put_ne _ _ _ _ e

/-- Setting a field leaves the fields above it alone. -/
theorem Hub.get_put_above (h : Hub) (f g : RF) (n : Nat) (hf : f.lo ≤ f.hi) (hg : g.lo ≤ g.hi) (hh : g.hi < 32)
    (l : f.hi < g.lo) : (h.put f n).get g = h.get g := by
  by_cases e : g.addr = f.addr
  · unfold Hub.put Hub.get
    rw [e, Hub.rd_wr_self, bits_mod _ _ _ _ hg hh, bits_setBits_above _ _ _ _ _ _ hf l]
  · exact Hub.get_put_ne _ _ _ _ e

/-- A 64-bit value reads as it was written. -/
theorem Hub.r64_w64 (h : Hub) (f : RF) (v : Nat) : (h.w64 f v).r64 f = v % 2 ^ 64 := by
  have e : f.addr ≠ f.addr + 4 := by omega
  unfold Hub.w64 Hub.r64
  rw [Hub.rd_wr_ne _ _ e, Hub.rd_wr_self, Hub.rd_wr_self]
  omega

/-! ## Tables -/

theorem Hub.cell_setCell (h : Hub) (a b : Nat) (x : Cell) :
    (h.setCell a x).cell b = if b = a then x else h.cell b := SMap.get_set _ _ _ _ _
theorem Hub.chan_setChan (h : Hub) (a b : Nat) (x : Chan) :
    (h.setChan a x).chan b = if b = a then x else h.chan b := SMap.get_set _ _ _ _ _
theorem Hub.blk_setBlk (h : Hub) (a b : Nat) (x : Blk) :
    (h.setBlk a x).blk b = if b = a then x else h.blk b := SMap.get_set _ _ _ _ _
theorem Hub.ring_setRing (h : Hub) (a b : Nat) (x : Ring) :
    (h.setRing a x).ring b = if b = a then x else h.ring b := SMap.get_set _ _ _ _ _
theorem Hub.slot_setSlot (h : Hub) (a b : Nat) (x : Option Slot) :
    (h.setSlot a x).slot b = if b = a then x else h.slot b := SMap.get_set _ _ _ _ _
theorem Hub.lane_setLane (h : Hub) (a b : Nat) (x : Lane) :
    (h.setLane a x).lane b = if b = a then x else h.lane b := SMap.get_set _ _ _ _ _
theorem Hub.leaf_setLeaf (h : Hub) (a b : Nat) (x : Leaf) :
    (h.setLeaf a x).leaf b = if b = a then x else h.leaf b := SMap.get_set _ _ _ _ _
theorem Hub.ul_setUl (h : Hub) (a b : Nat) (x : Uplink) :
    (h.setUl a x).ul b = if b = a then x else h.ul b := SMap.get_set _ _ _ _ _
theorem Hub.master_setMaster (h : Hub) (a b : Nat) (x : Master) :
    (h.setMaster a x).master b = if b = a then x else h.master b := SMap.get_set _ _ _ _ _
theorem Hub.txOf_setTx (h : Hub) (a b : Nat) (x : List TxUnit) :
    (h.setTx a x).txOf b = if b = a then x else h.txOf b := SMap.get_set _ _ _ _ _

/-! ## Labels (R8, R47) -/

/-- A label is the label of its time word. -/
theorem labelOf_timeWord (l : Nat) : labelOf (timeWord l) = l := by
  unfold labelOf timeWord
  omega

end Sys2Proof.Machine
end

