-- ==== Sys2Proof/Laws/Access.lean ====
section
/-! SUPPORT. What one access of one register by a bus master comes to, once it reaches its register: a write runs the
register's own action, a read runs the register's own read. -/

namespace Sys2Proof.Machine

variable {α : Type}

theorem SMap.erase_insert_self (m : SMap α) (k : Nat) (v : α) :
    SMap.erase k (SMap.insert k v m) = SMap.erase k m := by
  induction m with
  | nil => simp [SMap.insert, SMap.erase]
  | cons p t ih =>
    obtain ⟨j, w⟩ := p
    by_cases l : k < j
    · simp [SMap.insert, SMap.erase, l]
    · by_cases e : j = k <;> simp [SMap.insert, SMap.erase, l, e, ih]

theorem SMap.erase_erase_self (m : SMap α) (k : Nat) : SMap.erase k (SMap.erase k m) = SMap.erase k m := by
  induction m with
  | nil => rfl
  | cons p t ih =>
    obtain ⟨j, w⟩ := p
    by_cases e : j = k <;> simp [SMap.erase, e, ih]

theorem SMap.erase_set_self [DecidableEq α] (d : Nat → α) (m : SMap α) (k : Nat) (v : α) :
    SMap.erase k (SMap.set d m k v) = SMap.erase k m := by
  unfold SMap.set
  split
  · exact SMap.erase_erase_self m k
  · rw [SMap.erase_insert_self, SMap.erase_erase_self]

/-- The later of two writes of an entry stands. -/
theorem SMap.set_set [DecidableEq α] (d : Nat → α) (m : SMap α) (k : Nat) (v w : α) :
    SMap.set d (SMap.set d m k v) k w = SMap.set d m k w := by
  rw [SMap.set, SMap.erase_set_self]
  rfl

theorem Hub.setMaster_setMaster (h : Hub) (m : Nat) (x y : Master) :
    (h.setMaster m x).setMaster m y = h.setMaster m y := by
  unfold Hub.setMaster
  dsimp only
  rw [SMap.set_set]

/-- The one register of an access of one register. -/
theorem busItems_one (access addr : Nat) (op : BusOp) (hl : addr ≤ 0xFFFFFFFC) :
    busItems access addr false [op] = [{ access := access, pos := 0, addr := addr, op := op, fix := false }] := by
  have e : stepAddr addr 0 false = addr := by
    simp [stepAddr]
    omega
  simp [busItems, List.range_succ, e]

/-- A register write that reaches its register runs the register's action. -/
theorem Hub.writeTo_eq {h : Hub} {m : Nat} {r : RF} {v : Nat} {l : Loc} (hr : h.Reaches m r.addr)
    (hp : place r.addr = .reg l) (ha : r.addr % 4 = 0) (hl : r.addr ≤ 0xFFFFFFFC)
    (hw : (regDesc l.name).wide = false) (hs : served l.name = false) :
    h.writeTo m r v = h.writeEffect m r.addr l fun h => h.writeReg m l (keyOf m r.addr l) v := by
  obtain ⟨h1, h2, h3, h4⟩ := hr
  simp only [Hub.mayWrite, Bool.and_eq_true] at h2
  unfold Hub.writeTo Hub.busWrite Hub.act Hub.allGranted
  simp only [busItems_one _ _ _ hl, List.all_cons, List.all_nil, h1, h2, Bool.not_true, BusOp.writes]
  simp only [Hub.submit, Hub.runMaster, busItems_one _ _ _ hl]
  have hm : (h.nextAccess.master m).todo = [] := h3
  simp only [hm, List.nil_append]
  rw [Hub.master_setMaster]
  simp only [if_true, List.length_cons, List.length_nil, Nat.zero_add]
  have hwk : ∀ x, (h.nextAccess.setMaster m x).waitsForKeeper m = false := fun _ => h4
  rw [Hub.runTodo]
  simp only [hwk, Hub.master_setMaster, if_true, hp, reduceCtorEq, if_false, Bool.false_eq_true]
  rw [Hub.setMaster_setMaster]
  have hpres : ∀ x, (h.nextAccess.setMaster m x).presented m r.addr true = true := fun _ => h2.2
  simp only [Hub.doItem, Hub.dropLatch, Hub.latched, ha, hs, Nat.sub_zero, hpres, Bool.not_true, Bool.not_false,
    Bool.and_true, Bool.and_false, Bool.false_eq_true, if_false, BusOp.writes, hp]
  rw [Hub.doReg]
  simp only [BusOp.writes, BusOp.value, hs, Bool.not_true, Bool.false_eq_true, if_false]
  rw [Hub.writeLoc]
  simp only [hw, Bool.not_false, if_true, Hub.stale, Bool.false_eq_true, if_false]
  rw [Hub.setMaster_setMaster, Hub.master_setMaster]
  simp only [if_true, Hub.writeEffect, Hub.enteredWrite, Hub.result]
  rfl

/-- A register read that reaches its register runs the register's read. -/
theorem Hub.busRead_eq {h : Hub} {m a : Nat} {l : Loc} (hr : h.ReachesRead m a) (hp : place a = .reg l)
    (ha : a % 4 = 0) (hl : a ≤ 0xFFFFFFFC) : h.busRead m a = h.readEffect m a l := by
  obtain ⟨h1, h2, h5, h3, h4⟩ := hr
  unfold Hub.busRead Hub.act Hub.allGranted
  simp only [busItems_one _ _ _ hl, List.all_cons, List.all_nil, h1, h2, Bool.not_true, BusOp.writes]
  simp only [Hub.submit, Hub.runMaster, busItems_one _ _ _ hl]
  have hm : (h.nextAccess.master m).todo = [] := h3
  simp only [hm, List.nil_append]
  rw [Hub.master_setMaster]
  simp only [if_true, List.length_cons, List.length_nil, Nat.zero_add]
  have hwk : ∀ x, (h.nextAccess.setMaster m x).waitsForKeeper m = false := fun _ => h4
  rw [Hub.runTodo]
  simp only [hwk, Hub.master_setMaster, if_true, hp, reduceCtorEq, if_false, Bool.false_eq_true]
  rw [Hub.setMaster_setMaster]
  have hpres : ∀ x, (h.nextAccess.setMaster m x).presented m a false = true := fun _ => h5
  simp only [Hub.doItem, Hub.dropLatch, ha, Nat.sub_zero, hpres, Bool.not_true, Bool.false_and, Bool.false_eq_true,
    if_false, BusOp.writes, hp]
  rw [Hub.doReg]
  simp only [BusOp.writes, Bool.not_false, if_true, Hub.stale, Hub.result]
  rfl

end Sys2Proof.Machine
end

