-- ==== Sys2Proof/Laws/Kept.lean ====
section
/-! SUPPORT. What every operation of the hub keeps (`Hub.Kept`): the numbering of sample periods, the canonical form
of the register file, the OTP keys, the state of the test access port, and that no nonce is drawn twice. One lemma per
operation; this file has the lemmas for record updates and control flow. -/

namespace Sys2Proof.Machine

/-- What the commands keep, but for those that program a key or act on the test access port: the hub is sound, its
keys are `K`, its test access port is in state `T`, and at least `N` nonces have been drawn. -/
structure Hub.Kept (K : SMap (List Nat)) (T : Tap) (N : Nat) (h : Hub) : Prop where
  sound : h.Sound
  keys : h.keys = K
  tap : h.tap = T
  nonces : N ≤ h.nonces

namespace Hub

variable {K : SMap (List Nat)} {T : Tap} {N : Nat} {h : Hub}

/-- A sound hub keeps what it has. -/
theorem kept_self (H : h.Sound) : Kept h.keys h.tap h.nonces h := ⟨H, rfl, rfl, Nat.le_refl _⟩

theorem kept_hub {x0 x1 x2 x3 x4 x5 x6 x7 x8 x9 x10 x11 x12 x13 x14 x15 x16 x17 x18 x19 x20 x21 x22 x23 x24 x25 x26
    x27 x28 x29 x30 x31 x32} (H : Kept K T N h) : Kept K T N (Hub.mk h.regs h.fuse h.clk x0 x1 x2 x3 x4 x5 x6 x7 x8
    x9 x10 x11 x12 x13 x14 x15 x16 x17 x18 x19 x20 x21 x22 x23 x24 h.keys x25 h.nonces x26 x27 x28 x29 x30 x31 x32
    h.tap) := ⟨H.sound, H.keys, H.tap, H.nonces⟩

theorem kept_clk {y0 y1 y2 y3 y4 y5 y6 y7 y8 y9 y10 y11 y12 y13 y14 y15 y16 y17 y18 y19 y20 y21 y22 y23} {x0 x1 x2
    x3 x4 x5 x6 x7 x8 x9 x10 x11 x12 x13 x14 x15 x16 x17 x18 x19 x20 x21 x22 x23 x24 x25 x26 x27 x28 x29 x30 x31
    x32} (H : Kept K T N h) : Kept K T N (Hub.mk h.regs h.fuse (Clk.mk h.clk.frame h.clk.slot y0 y1 y2 y3 y4 y5 y6
    y7 y8 y9 y10 y11 y12 y13 y14 y15 y16 y17 y18 y19 y20 y21 y22 y23) x0 x1 x2 x3 x4 x5 x6 x7 x8 x9 x10 x11 x12 x13
    x14 x15 x16 x17 x18 x19 x20 x21 x22 x23 x24 h.keys x25 h.nonces x26 x27 x28 x29 x30 x31 x32 h.tap) := ⟨H.sound,
    H.keys, H.tap, H.nonces⟩

/-- A nonce is drawn. -/
theorem kept_drawn (H : Kept K T N h) : Kept K T N { h with nonces := h.nonces + 1 } :=
  ⟨H.sound, H.keys, H.tap, Nat.le_succ_of_le H.nonces⟩

theorem kept_ite {c : Prop} [Decidable c] {a b : Hub} (H1 : Kept K T N a) (H2 : Kept K T N b) :
    Kept K T N (if c then a else b) := by
  split
  · exact H1
  · exact H2

theorem kept_foldl {α : Type} {f : Hub → α → Hub} {l : List α} (H1 : ∀ g x, Kept K T N g → Kept K T N (f g x))
    (H : Kept K T N h) : Kept K T N (l.foldl f h) := by
  induction l generalizing h with
  | nil => exact H
  | cons x t ih => exact ih (H1 h x H)

end Hub

end Sys2Proof.Machine
end

