-- ==== Sys2Proof/Laws/KeptSignal.lean ====
section
/-! SUPPORT. What the operations of the shared operations, cells, filters, rings, triggers and events keep: one lemma per operation. -/

namespace Sys2Proof.Machine

namespace Hub

variable {K : SMap (List Nat)} {T : Tap} {N : Nat} {h : Hub}

/-! ## Machine/Ops.lean -/

theorem wr_kept (key v : Nat) (H : Kept K T N h) : Kept K T N (h.wr key v) :=
  ⟨⟨H.sound.1, H.sound.2.1, SMap.wf_set _ _ H.sound.2.2⟩, H.keys, H.tap, H.nonces⟩

theorem put_kept (f : RF) (n : Nat) (H : Kept K T N h) : Kept K T N (h.put f n) := by
  unfold Hub.put
  with_reducible repeat' first | assumption | apply wr_kept

theorem set1_kept (f : RF) (H : Kept K T N h) : Kept K T N (h.set1 f) := by
  unfold Hub.set1
  with_reducible repeat' first | assumption | apply put_kept

theorem putIf_kept (c : Bool) (f : RF) (n : Nat) (H : Kept K T N h) : Kept K T N (h.putIf c f n) := by
  unfold Hub.putIf
  with_reducible repeat' first | assumption | apply put_kept | apply kept_ite

theorem inc_kept (f : RF) (H : Kept K T N h) : Kept K T N (h.inc f) := by
  unfold Hub.inc
  with_reducible repeat' first | assumption | apply put_kept

theorem add_kept (f : RF) (n : Nat) (H : Kept K T N h) : Kept K T N (h.add f n) := by
  unfold Hub.add
  with_reducible repeat' first | assumption | apply put_kept

theorem incSat_kept (f : RF) (H : Kept K T N h) : Kept K T N (h.incSat f) := by
  unfold Hub.incSat
  with_reducible repeat' first | assumption | apply put_kept

theorem w64_kept (f : RF) (v : Nat) (H : Kept K T N h) : Kept K T N (h.w64 f v) := by
  unfold Hub.w64
  with_reducible repeat' first | assumption | apply wr_kept

theorem inc64_kept (f : RF) (H : Kept K T N h) : Kept K T N (h.inc64 f) := by
  unfold Hub.inc64
  with_reducible repeat' first | assumption | apply w64_kept

theorem setCell_kept (id : Nat) (c : Cell) (H : Kept K T N h) : Kept K T N (h.setCell id c) := by
  unfold Hub.setCell
  with_reducible repeat' first | assumption | (apply kept_hub; first | assumption)

theorem setChan_kept (n : Nat) (c : Chan) (H : Kept K T N h) : Kept K T N (h.setChan n c) := by
  unfold Hub.setChan
  with_reducible repeat' first | assumption | (apply kept_hub; first | assumption)

theorem setBlk_kept (j : Nat) (b : Blk) (H : Kept K T N h) : Kept K T N (h.setBlk j b) := by
  unfold Hub.setBlk
  with_reducible repeat' first | assumption | (apply kept_hub; first | assumption)

theorem setRgn_kept (r : Nat) (x : Rgn) (H : Kept K T N h) : Kept K T N (h.setRgn r x) := by
  unfold Hub.setRgn
  with_reducible repeat' first | assumption | (apply kept_hub; first | assumption)

theorem setRing_kept (id : Nat) (x : Ring) (H : Kept K T N h) : Kept K T N (h.setRing id x) := by
  unfold Hub.setRing
  with_reducible repeat' first | assumption | (apply kept_hub; first | assumption)

theorem setHitStore_kept (n : Nat) (x : HitStore) (H : Kept K T N h) : Kept K T N (h.setHitStore n x) := by
  unfold Hub.setHitStore
  with_reducible repeat' first | assumption | (apply kept_hub; first | assumption)

theorem setSlot_kept (k : Nat) (x : Option Slot) (H : Kept K T N h) : Kept K T N (h.setSlot k x) := by
  unfold Hub.setSlot
  with_reducible repeat' first | assumption | (apply kept_hub; first | assumption)

theorem setTx_kept (k : Nat) (l : List TxUnit) (H : Kept K T N h) : Kept K T N (h.setTx k l) := by
  unfold Hub.setTx
  with_reducible repeat' first | assumption | (apply kept_hub; first | assumption)

theorem forAll_kept (l : List Nat) (f : Hub → Nat → Hub) (Hf : ∀ g n, Kept K T N g → Kept K T N (f g n)) (H : Kept K
    T N h) : Kept K T N (h.forAll l f) := by
  unfold Hub.forAll
  with_reducible repeat'
    first
      | assumption | (refine fun (g : Hub) n (_ : Kept K T N g) => ?_) | apply Hf | apply kept_foldl

theorem setLane_kept (l : Nat) (x : Lane) (H : Kept K T N h) : Kept K T N (h.setLane l x) := by
  unfold Hub.setLane
  with_reducible repeat' first | assumption | (apply kept_hub; first | assumption)

theorem setUl_kept (l : Nat) (x : Uplink) (H : Kept K T N h) : Kept K T N (h.setUl l x) := by
  unfold Hub.setUl
  with_reducible repeat' first | assumption | (apply kept_hub; first | assumption)

theorem setLeaf_kept (s : Nat) (x : Leaf) (H : Kept K T N h) : Kept K T N (h.setLeaf s x) := by
  unfold Hub.setLeaf
  with_reducible repeat' first | assumption | (apply kept_hub; first | assumption)

theorem setMaster_kept (m : Nat) (x : Master) (H : Kept K T N h) : Kept K T N (h.setMaster m x) := by
  unfold Hub.setMaster
  with_reducible repeat' first | assumption | (apply kept_hub; first | assumption)

theorem setPState_kept (p : PState) (H : Kept K T N h) : Kept K T N (h.setPState p) := by
  unfold Hub.setPState
  with_reducible repeat'
    first
      | assumption | (intro x; refine (fun (_ : Kept K T N x) => ?_) ?_; clear_value x) | (intro x)
      | (lift_lets; intro x; refine (fun (_ : Kept K T N x) => ?_) ?_; clear_value x) | (lift_lets; intro x)
      | apply put_kept | (apply kept_hub; first | assumption | apply put_kept) | split | (clear_value *; split)

theorem setQueue_kept (q : Nat) (x : Queue) (H : Kept K T N h) : Kept K T N (h.setQueue q x) := by
  unfold Hub.setQueue
  with_reducible repeat' first | assumption | apply put_kept | (apply kept_hub; first | assumption | apply put_kept)

theorem qAccept_kept (q data : Nat) (mark : Bool) (H : Kept K T N h) : Kept K T N (h.qAccept q data mark) := by
  unfold Hub.qAccept
  with_reducible repeat'
    first
      | assumption | apply setQueue_kept | apply mark_kept | apply put_kept
      | (apply kept_hub; first | assumption | apply setQueue_kept | apply mark_kept | apply put_kept)

theorem monRecordLost_kept (H : Kept K T N h) : Kept K T N h.monRecordLost := by
  unfold Hub.monRecordLost
  with_reducible repeat'
    first
      | assumption | apply inc_kept | apply set1_kept
      | (apply kept_hub; first | assumption | apply inc_kept | apply set1_kept)

theorem ctlDiscard_kept (H : Kept K T N h) : Kept K T N h.ctlDiscard := by
  unfold Hub.ctlDiscard
  with_reducible repeat' first | assumption | apply inc_kept | apply set1_kept

theorem qRefused_kept (q : Nat) (mark : Bool) (H : Kept K T N h) : Kept K T N (h.qRefused q mark) := by
  unfold Hub.qRefused
  with_reducible repeat'
    first
      | assumption | apply inc_kept | apply mark_kept | apply put_kept | apply setQueue_kept | apply ctlDiscard_kept
      | apply monRecordLost_kept | apply kept_ite
      | (apply kept_hub; first | assumption | apply inc_kept | apply mark_kept | apply put_kept | apply setQueue_kept | apply ctlDiscard_kept | apply monRecordLost_kept | apply kept_ite)

theorem qItemLost_kept (q : Nat) (H : Kept K T N h) : Kept K T N (h.qItemLost q) := by
  unfold Hub.qItemLost
  with_reducible repeat'
    first
      | assumption | apply inc_kept | apply ctlDiscard_kept | apply monRecordLost_kept | apply kept_ite

theorem qFill_kept (q : Nat) (H : Kept K T N h) : Kept K T N (h.qFill q) := by
  unfold Hub.qFill
  with_reducible repeat'
    first
      | assumption | (intro x; refine (fun (_ : Kept K T N x) => ?_) ?_; clear_value x) | (intro x)
      | (lift_lets; intro x; refine (fun (_ : Kept K T N x) => ?_) ?_; clear_value x) | (lift_lets; intro x)
      | apply setQueue_kept | apply mark_kept | apply put_kept
      | (apply kept_hub; first | assumption | apply setQueue_kept | apply mark_kept | apply put_kept) | split
      | (clear_value *; split)

theorem qLatches_kept (q n : Nat) (H : Kept K T N h) : Kept K T N (Hub.qLatches q n h) := by
  induction n generalizing h with
  | zero => exact H
  | succ n ih =>
    unfold Hub.qLatches
    dsimp only
    split
    · exact H
    · split
      · exact ih (setQueue_kept _ _ H)
      · exact ih (qItemLost_kept _ (setQueue_kept _ _ H))

theorem qReleaseHeld_kept (q : Nat) (H : Kept K T N h) : Kept K T N (h.qReleaseHeld q) := by
  unfold Hub.qReleaseHeld
  exact kept_ite H (kept_ite (qFill_kept q H) (qLatches_kept q _ H))

theorem qOffer_kept (q : Nat) (ws : List QWord) (H : Kept K T N h) : Kept K T N (h.qOffer q ws) := by
  unfold Hub.qOffer
  with_reducible repeat'
    first
      | assumption | apply setQueue_kept | apply inc_kept | apply qFill_kept | apply qItemLost_kept | apply kept_ite
      | (apply kept_hub; first | assumption | apply setQueue_kept | apply inc_kept | apply qFill_kept | apply qItemLost_kept | apply kept_ite)

theorem qCross_kept (q : Nat) (words : List Nat) (item : QItem) (H : Kept K T N h) :
    Kept K T N (h.qCross q words item).1 := by
  unfold Hub.qCross
  dsimp only
  split
  · exact setQueue_kept _ _ H
  · exact qOffer_kept _ _ H

theorem qPush_kept (q data : Nat) (mark pop : Bool) (H : Kept K T N h) : Kept K T N (h.qPush q data mark pop) := by
  unfold Hub.qPush
  with_reducible repeat'
    first
      | assumption | apply inc_kept | apply put_kept | apply mark_kept | apply qReleaseHeld_kept
      | apply setQueue_kept | apply qAccept_kept | apply qRefused_kept | apply kept_ite
      | (apply kept_hub; first | assumption | apply inc_kept | apply put_kept | apply mark_kept | apply qReleaseHeld_kept | apply setQueue_kept | apply qAccept_kept | apply qRefused_kept | apply kept_ite)

theorem pushRecord_kept (source : Nat) (item : List Nat) (H : Kept K T N h) : Kept K T N (h.pushRecord source item)
    := by
  unfold Hub.pushRecord
  with_reducible repeat' first | assumption | apply inc_kept | apply qOffer_kept | apply kept_ite

theorem qTake_kept {g : Hub} {q : Nat} {l : List Nat} (H : Kept K T N h) (e : h.qTake q = some (l, g)) :
    Kept K T N g := by
  unfold Hub.qTake at e
  dsimp only at e
  split at e
  · cases e
  · cases e; exact setQueue_kept q _ H

theorem raiseAt_kept (label code wher detail : Nat) (H : Kept K T N h) : Kept K T N (h.raiseAt label code wher
    detail) := by
  unfold Hub.raiseAt
  with_reducible repeat' first | assumption | apply pushRecord_kept

theorem raise_kept (code wher detail : Nat) (H : Kept K T N h) : Kept K T N (h.raise code wher detail) := by
  unfold Hub.raise
  with_reducible repeat' first | assumption | apply raiseAt_kept

theorem raiseGzb_kept (time code wher detail : Nat) (H : Kept K T N h) : Kept K T N (h.raiseGzb time code wher
    detail) := by
  unfold Hub.raiseGzb
  with_reducible repeat' first | assumption | apply pushRecord_kept

theorem qUncorr_kept (q : Nat) (H : Kept K T N h) : Kept K T N (h.qUncorr q) := by
  unfold Hub.qUncorr
  with_reducible repeat'
    first
      | assumption | apply mark_kept | apply setQueue_kept | apply inc_kept | apply set1_kept | apply raise_kept
      | apply ctlDiscard_kept | apply monRecordLost_kept | apply kept_ite
      | (apply kept_hub; first | assumption | apply mark_kept | apply setQueue_kept | apply inc_kept | apply set1_kept | apply raise_kept | apply ctlDiscard_kept | apply monRecordLost_kept | apply kept_ite)

theorem qPopWord_kept (q : Nat) (err : QErr) (H : Kept K T N h) : Kept K T N (h.qPopWord q err) := by
  unfold Hub.qPopWord
  with_reducible repeat'
    first
      | assumption | (intro x; refine (fun (_ : Kept K T N x) => ?_) ?_; clear_value x) | (intro x)
      | (lift_lets; intro x; refine (fun (_ : Kept K T N x) => ?_) ?_; clear_value x) | (lift_lets; intro x)
      | apply setQueue_kept | apply inc_kept | apply qUncorr_kept | apply mark_kept | apply kept_ite
      | (apply kept_hub; first | assumption | apply setQueue_kept | apply inc_kept | apply qUncorr_kept | apply mark_kept | apply kept_ite)
      | split | (clear_value *; split)

theorem qPop_kept (q : Nat) (err : QErr) (H : Kept K T N h) : Kept K T N (h.qPop q err) := by
  unfold Hub.qPop
  with_reducible repeat' first | assumption | apply qPopWord_kept | apply qReleaseHeld_kept

theorem qFlush_kept (q : Nat) (H : Kept K T N h) : Kept K T N (h.qFlush q) := by
  unfold Hub.qFlush
  with_reducible repeat'
    first
      | assumption | apply setQueue_kept | apply add_kept | apply put_kept | apply qReleaseHeld_kept
      | apply kept_ite
      | (apply kept_hub; first | assumption | apply setQueue_kept | apply add_kept | apply put_kept | apply qReleaseHeld_kept | apply kept_ite)

theorem send_kept (k : Nat) (u : TxUnit) (H : Kept K T N h) : Kept K T N (h.send k u) := by
  unfold Hub.send
  with_reducible repeat' first | assumption | apply setTx_kept

theorem sendPlain_kept (k stream source : Nat) (words : List Nat) (H : Kept K T N h) : Kept K T N (h.sendPlain k
    stream source words) := by
  unfold Hub.sendPlain
  with_reducible repeat' first | assumption | apply send_kept

theorem sendOut_kept (k stream source : Nat) (words : List Nat) (H : Kept K T N h) : Kept K T N (h.sendOut k stream
    source words) := by
  unfold Hub.sendOut
  with_reducible repeat' first | assumption | apply qCross_kept | apply send_kept | apply kept_ite

theorem sendHealth_kept (type : Nat) (body : List Nat) (H : Kept K T N h) : Kept K T N (h.sendHealth type body) :=
    by
  unfold Hub.sendHealth
  with_reducible repeat'
    first
      | assumption | apply sendOut_kept | (apply kept_hub; first | assumption | apply sendOut_kept)

/-! ## Machine/Operands.lean -/

theorem mark_kept (n cause len : Nat) (H : Kept K T N h) : Kept K T N (h.mark n cause len) := by
  unfold Hub.mark
  with_reducible repeat'
    first
      | assumption | apply setChan_kept | (apply kept_hub; first | assumption | apply setChan_kept)

theorem takeCtrl_kept (id v : Nat) (H : Kept K T N h) : Kept K T N (h.takeCtrl id v) := by
  unfold Hub.takeCtrl
  with_reducible repeat'
    first
      | assumption | apply setCell_kept | (apply kept_hub; first | assumption | apply setCell_kept)

theorem takeFrontEnd_kept (j c : Nat) (H : Kept K T N h) : Kept K T N (h.takeFrontEnd j c) := by
  unfold Hub.takeFrontEnd
  with_reducible repeat'
    first
      | assumption | (intro x; refine (fun (_ : Kept K T N x) => ?_) ?_; clear_value x) | (intro x)
      | (lift_lets; intro x; refine (fun (_ : Kept K T N x) => ?_) ?_; clear_value x) | (lift_lets; intro x)
      | apply setCell_kept | apply mark_kept | apply takeCtrl_kept | apply kept_ite
      | (apply kept_hub; first | assumption | apply setCell_kept | apply mark_kept | apply takeCtrl_kept | apply kept_ite)
      | split | (clear_value *; split)

theorem takeEnable_kept (j c : Nat) (H : Kept K T N h) : Kept K T N (h.takeEnable j c) := by
  unfold Hub.takeEnable
  with_reducible repeat'
    first
      | assumption | (intro x; refine (fun (_ : Kept K T N x) => ?_) ?_; clear_value x) | (intro x)
      | (lift_lets; intro x; refine (fun (_ : Kept K T N x) => ?_) ?_; clear_value x) | (lift_lets; intro x)
      | apply setCell_kept | apply mark_kept | apply kept_ite
      | (apply kept_hub; first | assumption | apply setCell_kept | apply mark_kept | apply kept_ite) | split
      | (clear_value *; split)

theorem lendDisc_kept (j c : Nat) (H : Kept K T N h) : Kept K T N (h.lendDisc j c) := by
  unfold Hub.lendDisc
  with_reducible repeat'
    first
      | assumption | apply setCell_kept | apply kept_ite
      | (apply kept_hub; first | assumption | apply setCell_kept | apply kept_ite)

theorem takeDiscEnable_kept (j c : Nat) (level : Int) (H : Kept K T N h) : Kept K T N (h.takeDiscEnable j c level)
    := by
  unfold Hub.takeDiscEnable
  with_reducible repeat'
    first
      | assumption | apply setCell_kept | apply lendDisc_kept | apply kept_ite
      | (apply kept_hub; first | assumption | apply setCell_kept | apply lendDisc_kept | apply kept_ite)

theorem takeDiscSettings_kept (j c : Nat) (level : Int) (H : Kept K T N h) : Kept K T N (h.takeDiscSettings j c
    level) := by
  unfold Hub.takeDiscSettings
  with_reducible repeat'
    first
      | assumption | apply setCell_kept | apply lendDisc_kept | apply kept_ite
      | (apply kept_hub; first | assumption | apply setCell_kept | apply lendDisc_kept | apply kept_ite)

theorem takeQuiet_kept (j c : Nat) (H : Kept K T N h) : Kept K T N (h.takeQuiet j c) := by
  unfold Hub.takeQuiet
  with_reducible repeat'
    first
      | assumption | apply setCell_kept | apply takeCtrl_kept | apply kept_ite
      | (apply kept_hub; first | assumption | apply setCell_kept | apply takeCtrl_kept | apply kept_ite)

/-! ## Machine/FilterOps.lean -/

theorem takePed_kept (n : Nat) (H : Kept K T N h) : Kept K T N (h.takePed n) := by
  unfold Hub.takePed
  with_reducible repeat'
    first
      | assumption | apply setChan_kept | apply kept_ite
      | (apply kept_hub; first | assumption | apply setChan_kept | apply kept_ite)

theorem takeDelay_kept (j c : Nat) (H : Kept K T N h) : Kept K T N (h.takeDelay j c) := by
  unfold Hub.takeDelay
  with_reducible repeat'
    first
      | assumption | apply setChan_kept | apply mark_kept | apply kept_ite
      | (apply kept_hub; first | assumption | apply setChan_kept | apply mark_kept | apply kept_ite)

theorem refreshFlt_kept (j c : Nat) (H : Kept K T N h) : Kept K T N (h.refreshFlt j c) := by
  unfold Hub.refreshFlt
  with_reducible repeat' first | assumption | apply put_kept

theorem unsettleEst_kept (j c k : Nat) (H : Kept K T N h) : Kept K T N (h.unsettleEst j c k) := by
  unfold Hub.unsettleEst
  with_reducible repeat' first | assumption | apply put_kept

theorem unsettleRec_kept (j c k : Nat) (H : Kept K T N h) : Kept K T N (h.unsettleRec j c k) := by
  unfold Hub.unsettleRec
  with_reducible repeat' first | assumption | apply put_kept

theorem estimate_kept (j c label : Nat) (w : LineWord) (q : Bool) (H : Kept K T N h) : Kept K T N (h.estimate j c
    label w q) := by
  unfold Hub.estimate
  with_reducible repeat'
    first
      | assumption | apply setChan_kept | apply wr_kept | apply unsettleEst_kept | apply kept_ite
      | (apply kept_hub; first | assumption | apply setChan_kept | apply wr_kept | apply unsettleEst_kept | apply kept_ite)

theorem decimate_kept (j c : Nat) (w : LineWord) (q : Bool) (H : Kept K T N h) : Kept K T N (h.decimate j c w q) :=
    by
  unfold Hub.decimate
  with_reducible repeat'
    first
      | assumption | apply setChan_kept | apply wr_kept | apply unsettleRec_kept | apply kept_ite
      | (apply kept_hub; first | assumption | apply setChan_kept | apply wr_kept | apply unsettleRec_kept | apply kept_ite)

theorem setFade_kept (s : Stage) (n : Nat) (f : Option Fade) (H : Kept K T N h) : Kept K T N (h.setFade s n f) := by
  unfold Hub.setFade
  with_reducible repeat'
    first
      | assumption | (intro x; refine (fun (_ : Kept K T N x) => ?_) ?_; clear_value x) | (intro x)
      | (lift_lets; intro x; refine (fun (_ : Kept K T N x) => ?_) ?_; clear_value x) | (lift_lets; intro x)
      | apply setChan_kept | (apply kept_hub; first | assumption | apply setChan_kept) | split
      | (clear_value *; split)

theorem swap_kept (s : Stage) (j c : Nat) (H : Kept K T N h) : Kept K T N (h.swap s j c) := by
  unfold Hub.swap
  with_reducible repeat' first | assumption | apply put_kept | apply set1_kept | apply setFade_kept | apply kept_ite

theorem swapForce_kept (s : Stage) (j c : Nat) (H : Kept K T N h) : Kept K T N (h.swapForce s j c) := by
  unfold Hub.swapForce
  with_reducible repeat'
    first
      | assumption | (intro x; refine (fun (_ : Kept K T N x) => ?_) ?_; clear_value x) | (intro x)
      | (lift_lets; intro x; refine (fun (_ : Kept K T N x) => ?_) ?_; clear_value x) | (lift_lets; intro x)
      | apply put_kept | apply setFade_kept | apply refreshFlt_kept | apply unsettleEst_kept
      | apply unsettleRec_kept | apply kept_ite
      | (apply kept_hub; first | assumption | apply put_kept | apply setFade_kept | apply refreshFlt_kept | apply unsettleEst_kept | apply unsettleRec_kept | apply kept_ite)
      | split | (clear_value *; split)

theorem fadeEnd_kept (s : Stage) (j c : Nat) (H : Kept K T N h) : Kept K T N (h.fadeEnd s j c) := by
  unfold Hub.fadeEnd
  with_reducible repeat'
    first
      | assumption | (intro x; refine (fun (_ : Kept K T N x) => ?_) ?_; clear_value x) | (intro x)
      | (lift_lets; intro x; refine (fun (_ : Kept K T N x) => ?_) ?_; clear_value x) | (lift_lets; intro x)
      | apply put_kept | apply setFade_kept | apply refreshFlt_kept | apply kept_ite
      | (apply kept_hub; first | assumption | apply put_kept | apply setFade_kept | apply refreshFlt_kept | apply kept_ite)
      | split | (clear_value *; split)

theorem setDue_kept (s : Stage) (n : Nat) (l : Option Nat) (H : Kept K T N h) : Kept K T N (h.setDue s n l) := by
  unfold Hub.setDue
  with_reducible repeat'
    first
      | assumption | (intro x; refine (fun (_ : Kept K T N x) => ?_) ?_; clear_value x) | (intro x)
      | (lift_lets; intro x; refine (fun (_ : Kept K T N x) => ?_) ?_; clear_value x) | (lift_lets; intro x)
      | apply setChan_kept | (apply kept_hub; first | assumption | apply setChan_kept) | split
      | (clear_value *; split)

theorem responseDue_kept (s : Stage) (j c label : Nat) (H : Kept K T N h) : Kept K T N (h.responseDue s j c label)
    := by
  unfold Hub.responseDue
  with_reducible repeat'
    first
      | assumption | (intro x; refine (fun (_ : Kept K T N x) => ?_) ?_; clear_value x) | (intro x)
      | (lift_lets; intro x; refine (fun (_ : Kept K T N x) => ?_) ?_; clear_value x) | (lift_lets; intro x)
      | apply setDue_kept | apply swapForce_kept | apply swap_kept | apply kept_ite
      | (apply kept_hub; first | assumption | apply setDue_kept | apply swapForce_kept | apply swap_kept | apply kept_ite)
      | split | (clear_value *; split)

theorem restartChan_kept (n : Nat) (H : Kept K T N h) : Kept K T N (h.restartChan n) := by
  unfold Hub.restartChan
  with_reducible repeat'
    first
      | assumption | apply setChan_kept | apply refreshFlt_kept | apply unsettleRec_kept
      | (apply kept_hub; first | assumption | apply setChan_kept | apply refreshFlt_kept | apply unsettleRec_kept)

theorem takeCrecCfg_kept (H : Kept K T N h) : Kept K T N h.takeCrecCfg := by
  unfold Hub.takeCrecCfg
  with_reducible repeat' first | assumption | apply put_kept | (apply kept_hub; first | assumption | apply put_kept)

theorem restartAll_kept (why : List Nat) (H : Kept K T N h) : Kept K T N (h.restartAll why) := by
  unfold Hub.restartAll
  with_reducible repeat'
    first
      | assumption | (refine fun (g : Hub) n (_ : Kept K T N g) => ?_)
      | (intro x; refine (fun (_ : Kept K T N x) => ?_) ?_; clear_value x) | (intro x)
      | (lift_lets; intro x; refine (fun (_ : Kept K T N x) => ?_) ?_; clear_value x) | (lift_lets; intro x)
      | apply takeCrecCfg_kept | apply forAll_kept | apply restartChan_kept | apply wr_kept | apply putIf_kept
      | apply put_kept | apply kept_ite
      | (apply kept_hub; first | assumption | apply takeCrecCfg_kept | apply forAll_kept | apply restartChan_kept | apply wr_kept | apply putIf_kept | apply put_kept | apply kept_ite)

theorem recordTaken_kept (H : Kept K T N h) : Kept K T N h.recordTaken := by
  unfold Hub.recordTaken
  with_reducible repeat'
    first
      | assumption | (refine fun (g : Hub) n (_ : Kept K T N g) => ?_) | apply forAll_kept | apply setChan_kept
      | apply kept_ite
      | (apply kept_hub; first | assumption | apply forAll_kept | apply setChan_kept | apply kept_ite)

theorem recordBlock_kept (H : Kept K T N h) : Kept K T N h.recordBlock := by
  unfold Hub.recordBlock
  with_reducible repeat'
    first
      | assumption | (intro x; refine (fun (_ : Kept K T N x) => ?_) ?_; clear_value x) | (intro x)
      | (lift_lets; intro x; refine (fun (_ : Kept K T N x) => ?_) ?_; clear_value x) | (lift_lets; intro x)
      | apply resumed_kept | apply recordTaken_kept | apply inc_kept | apply set1_kept | apply sendPlain_kept
      | apply kept_ite
      | (apply kept_hub; first | assumption | apply resumed_kept | apply recordTaken_kept | apply inc_kept | apply set1_kept | apply sendPlain_kept | apply kept_ite)

/-! ## Machine/RingOps.lean -/

theorem healthTo_kept (j c st : Nat) (H : Kept K T N h) : Kept K T N (h.healthTo j c st) := by
  unfold Hub.healthTo
  with_reducible repeat' first | assumption | apply put_kept | apply raise_kept | apply kept_ite

theorem healthWatch_kept (j c : Nat) (cause : RF) (H : Kept K T N h) : Kept K T N (h.healthWatch j c cause) := by
  unfold Hub.healthWatch
  with_reducible repeat' first | assumption | apply set1_kept | apply healthTo_kept | apply kept_ite

theorem restartRing_kept (id : Nat) (H : Kept K T N h) : Kept K T N (h.restartRing id) := by
  unfold Hub.restartRing
  with_reducible repeat' first | assumption | apply setRing_kept

theorem ringPresent_kept (j c : Nat) (w : RingWord) (H : Kept K T N h) : Kept K T N (h.ringPresent j c w) := by
  unfold Hub.ringPresent
  with_reducible repeat' first | assumption | apply setRing_kept | apply present_kept | apply kept_ite

theorem eccCount_kept (e : EccErr) (H : Kept K T N h) : Kept K T N (h.eccCount e) := by
  unfold Hub.eccCount
  with_reducible repeat' first | assumption | apply inc_kept | apply healthWatch_kept | apply kept_ite

theorem diagGrant_kept (j c p : Nat) (errs : List EccErr) (H : Kept K T N h) : Kept K T N (h.diagGrant j c p errs).1
    := by
  unfold Hub.diagGrant
  with_reducible repeat'
    first
      | assumption | (refine fun (g : Hub) n (_ : Kept K T N g) => ?_) | apply w64_kept | apply eccCount_kept
      | apply kept_ite | apply kept_foldl

theorem extractBlock_kept (k : Nat) (s : Slot) (j : Nat) (errs : List EccErr) (lost : List HitErr) (H : Kept K T N
    h) : Kept K T N (h.extractBlock k s j errs lost) := by
  unfold Hub.extractBlock
  with_reducible repeat'
    first
      | assumption | (refine fun (g : Hub) n (_ : Kept K T N g) => ?_) | apply w64_kept | apply eccCount_kept
      | apply inc_kept | apply setSlot_kept | apply kept_foldl
      | (apply kept_hub; first | assumption | apply w64_kept | apply eccCount_kept | apply inc_kept | apply setSlot_kept | apply kept_foldl)

theorem snapTrigger_kept (src time due : Nat) (H : Kept K T N h) : Kept K T N (h.snapTrigger src time due) := by
  unfold Hub.snapTrigger
  with_reducible repeat'
    first
      | assumption | (refine fun (g : Hub) n (_ : Kept K T N g) => ?_) | apply forAll_kept | apply setBlk_kept
      | apply put_kept | apply kept_ite
      | (apply kept_hub; first | assumption | apply forAll_kept | apply setBlk_kept | apply put_kept | apply kept_ite)

theorem snapArm_kept (j : Nat) (H : Kept K T N h) : Kept K T N (h.snapArm j) := by
  unfold Hub.snapArm
  with_reducible repeat' first | assumption | apply put_kept | apply kept_ite

theorem snapFreeze_kept (j : Nat) (H : Kept K T N h) : Kept K T N (h.snapFreeze j) := by
  unfold Hub.snapFreeze
  with_reducible repeat' first | assumption | apply w64_kept | apply put_kept

theorem restartRings_kept (j : Nat) (H : Kept K T N h) : Kept K T N (h.restartRings j) := by
  unfold Hub.restartRings
  with_reducible repeat'
    first
      | assumption | (refine fun (g : Hub) n (_ : Kept K T N g) => ?_) | apply forAll_kept | apply restartRing_kept

theorem snapRelease_kept (j : Nat) (H : Kept K T N h) : Kept K T N (h.snapRelease j) := by
  unfold Hub.snapRelease
  with_reducible repeat'
    first
      | assumption | apply restartRings_kept | apply put_kept | apply setBlk_kept | apply kept_ite
      | (apply kept_hub; first | assumption | apply restartRings_kept | apply put_kept | apply setBlk_kept | apply kept_ite)

theorem snapFrozen_kept (j : Nat) (H : Kept K T N h) : Kept K T N (h.snapFrozen j) := by
  unfold Hub.snapFrozen
  with_reducible repeat' first | assumption | apply w64_kept | apply put_kept | apply kept_ite

/-! ## Machine/TriggerOps.lean -/

theorem refreshLatency_kept (H : Kept K T N h) : Kept K T N h.refreshLatency := by
  unfold Hub.refreshLatency
  with_reducible repeat' first | assumption | apply wr_kept | apply put_kept

theorem pendTrigger_kept (t : PendTrig) (H : Kept K T N h) : Kept K T N (h.pendTrigger t) := by
  unfold Hub.pendTrigger
  with_reducible repeat' first | assumption | (apply kept_hub; first | assumption)

theorem nextEvent_kept (H : Kept K T N h) : Kept K T N h.nextEvent := by
  unfold Hub.nextEvent
  with_reducible repeat' first | assumption | apply inc_kept

theorem accept_kept (H : Kept K T N h) : Kept K T N h.accept := by
  unfold Hub.accept
  with_reducible repeat'
    first
      | assumption | apply inc_kept | apply snapTrigger_kept | apply pendTrigger_kept | apply nextEvent_kept
      | apply kept_ite

theorem tbTrigger_kept (H : Kept K T N h) : Kept K T N h.tbTrigger := by
  unfold Hub.tbTrigger
  with_reducible repeat' first | assumption | (apply kept_hub; first | assumption)

theorem busDecide_kept (due f : Nat) (H : Kept K T N h) : Kept K T N (h.busDecide due f) := by
  unfold Hub.busDecide
  with_reducible repeat' first | assumption | apply snapTrigger_kept | apply pendTrigger_kept | apply kept_ite

theorem busDue_kept (H : Kept K T N h) : Kept K T N h.busDue := by
  unfold Hub.busDue
  with_reducible repeat'
    first
      | assumption | (refine fun (g : Hub) n (_ : Kept K T N g) => ?_) | apply busDecide_kept | apply kept_foldl
      | (apply kept_hub; first | assumption | apply busDecide_kept | apply kept_foldl)

theorem tbLate_kept (H : Kept K T N h) : Kept K T N h.tbLate := by
  unfold Hub.tbLate
  with_reducible repeat' first | assumption | apply inc_kept | apply set1_kept

theorem condAct_kept (k b : Nat) (H : Kept K T N h) : Kept K T N (h.condAct k b) := by
  unfold Hub.condAct
  with_reducible repeat'
    first
      | assumption | apply inc_kept | apply snapTrigger_kept | apply tbLate_kept | apply pendTrigger_kept
      | apply kept_ite
      | (apply kept_hub; first | assumption | apply inc_kept | apply snapTrigger_kept | apply tbLate_kept | apply pendTrigger_kept | apply kept_ite)

theorem sendSum_kept (rec_ : List Nat) (H : Kept K T N h) : Kept K T N (h.sendSum rec_) := by
  unfold Hub.sendSum
  with_reducible repeat'
    first
      | assumption | apply inc_kept | apply set1_kept | apply sendPlain_kept | apply kept_ite
      | (apply kept_hub; first | assumption | apply inc_kept | apply set1_kept | apply sendPlain_kept | apply kept_ite)

theorem sumOut_kept (H : Kept K T N h) : Kept K T N h.sumOut := by
  unfold Hub.sumOut
  with_reducible repeat'
    first
      | assumption | apply sendSum_kept | (apply kept_hub; first | assumption | apply sendSum_kept) | split
      | (clear_value *; split)

theorem trellisDecision_kept (H : Kept K T N h) : Kept K T N h.trellisDecision := by
  unfold Hub.trellisDecision
  with_reducible repeat'
    first
      | assumption | (refine fun (g : Hub) n (_ : Kept K T N g) => ?_) | apply forAll_kept | apply condAct_kept
      | apply sumOut_kept | apply kept_ite
      | (apply kept_hub; first | assumption | apply forAll_kept | apply condAct_kept | apply sumOut_kept | apply kept_ite)

theorem tbDrive_kept (H : Kept K T N h) : Kept K T N h.tbDrive := by
  unfold Hub.tbDrive
  with_reducible repeat'
    first
      | assumption | (refine fun (g : Hub) n (_ : Kept K T N g) => ?_) | apply tbLate_kept | apply kept_foldl
      | (apply kept_hub; first | assumption | apply tbLate_kept | apply kept_foldl)

theorem refreshSlots_kept (H : Kept K T N h) : Kept K T N h.refreshSlots := by
  unfold Hub.refreshSlots
  with_reducible repeat'
    first
      | assumption | (refine fun (g : Hub) n (_ : Kept K T N g) => ?_) | apply wr_kept | apply forAll_kept

theorem noSlot_kept (evt : Nat) (t : PendTrig) (H : Kept K T N h) : Kept K T N (h.noSlot evt t) := by
  unfold Hub.noSlot
  with_reducible repeat' first | assumption | apply inc_kept | apply set1_kept | apply send_kept | apply kept_ite

theorem allocate_kept (t : PendTrig) (H : Kept K T N h) : Kept K T N (h.allocate t) := by
  unfold Hub.allocate
  with_reducible repeat'
    first
      | assumption | (intro x; refine (fun (_ : Kept K T N x) => ?_) ?_; clear_value x) | (intro x)
      | (lift_lets; intro x; refine (fun (_ : Kept K T N x) => ?_) ?_; clear_value x) | (lift_lets; intro x)
      | apply nextEvent_kept | apply inc64_kept | apply wr_kept | apply w64_kept | apply noSlot_kept
      | apply setSlot_kept
      | (apply kept_hub; first | assumption | apply nextEvent_kept | apply inc64_kept | apply wr_kept | apply w64_kept | apply noSlot_kept | apply setSlot_kept)
      | split | (clear_value *; split)

theorem countDeadTime_kept (H : Kept K T N h) : Kept K T N h.countDeadTime := by
  unfold Hub.countDeadTime
  with_reducible repeat'
    first
      | assumption | (refine fun (g : Hub) n (_ : Kept K T N g) => ?_)
      | (intro x; refine (fun (_ : Kept K T N x) => ?_) ?_; clear_value x) | (intro x)
      | (lift_lets; intro x; refine (fun (_ : Kept K T N x) => ?_) ?_; clear_value x) | (lift_lets; intro x)
      | apply inc64_kept | apply forAll_kept | apply kept_ite
      | (apply kept_hub; first | assumption | apply inc64_kept | apply forAll_kept | apply kept_ite) | split
      | (clear_value *; split)

theorem dropDecided_kept (H : Kept K T N h) : Kept K T N h.dropDecided := by
  unfold Hub.dropDecided
  with_reducible repeat' first | assumption | (apply kept_hub; first | assumption)

theorem slotAllocation_kept (H : Kept K T N h) : Kept K T N h.slotAllocation := by
  unfold Hub.slotAllocation
  with_reducible repeat'
    first
      | assumption | (refine fun (g : Hub) n (_ : Kept K T N g) => ?_) | apply busDue_kept | apply allocate_kept
      | apply dropDecided_kept | apply refreshSlots_kept | apply put_kept | apply wr_kept | apply sumOut_kept
      | apply countDeadTime_kept | apply kept_foldl

theorem evtLoad_kept (H : Kept K T N h) : Kept K T N h.evtLoad := by
  unfold Hub.evtLoad
  with_reducible repeat' first | assumption | apply wr_kept | apply put_kept

theorem clearDeadTime_kept (H : Kept K T N h) : Kept K T N h.clearDeadTime := by
  unfold Hub.clearDeadTime
  with_reducible repeat'
    first
      | assumption | (refine fun (g : Hub) n (_ : Kept K T N g) => ?_) | apply w64_kept | apply forAll_kept
      | apply put_kept

/-! ## Machine/EventOps.lean -/

theorem extractPart_kept (k j : Nat) (errs : List EccErr) (lost : List HitErr) (H : Kept K T N h) : Kept K T N
    (h.extractPart k j errs lost) := by
  unfold Hub.extractPart
  with_reducible repeat'
    first
      | assumption | (intro x; refine (fun (_ : Kept K T N x) => ?_) ?_; clear_value x) | (intro x)
      | (lift_lets; intro x; refine (fun (_ : Kept K T N x) => ?_) ?_; clear_value x) | (lift_lets; intro x)
      | apply setSlot_kept | apply extractBlock_kept | apply kept_ite
      | (apply kept_hub; first | assumption | apply setSlot_kept | apply extractBlock_kept | apply kept_ite) | split
      | (clear_value *; split)

theorem sendEvent_kept (k : Nat) (u : TxUnit) (H : Kept K T N h) : Kept K T N (h.sendEvent k u) := by
  unfold Hub.sendEvent
  with_reducible repeat' first | assumption | apply setTx_kept

theorem fragmentAssembly_kept (r : Nat) (H : Kept K T N h) : Kept K T N (h.fragmentAssembly r) := by
  unfold Hub.fragmentAssembly
  with_reducible repeat'
    first
      | assumption | (intro x; refine (fun (_ : Kept K T N x) => ?_) ?_; clear_value x) | (intro x)
      | (lift_lets; intro x; refine (fun (_ : Kept K T N x) => ?_) ?_; clear_value x) | (lift_lets; intro x)
      | apply setSlot_kept | apply setRgn_kept | apply put_kept | apply sendEvent_kept | apply kept_ite
      | (apply kept_hub; first | assumption | apply setSlot_kept | apply setRgn_kept | apply put_kept | apply sendEvent_kept | apply kept_ite)
      | split | (clear_value *; split)

theorem refreshLag_kept (r : Nat) (H : Kept K T N h) : Kept K T N (h.refreshLag r) := by
  unfold Hub.refreshLag
  with_reducible repeat' first | assumption | apply put_kept | apply putIf_kept | apply raise_kept | apply kept_ite

theorem refreshLags_kept (H : Kept K T N h) : Kept K T N h.refreshLags := by
  unfold Hub.refreshLags
  with_reducible repeat'
    first
      | assumption | (refine fun (g : Hub) n (_ : Kept K T N g) => ?_) | apply forAll_kept | apply refreshLag_kept

theorem eventUnitSent_kept (k : Nat) (u : TxUnit) (H : Kept K T N h) : Kept K T N (h.eventUnitSent k u) := by
  unfold Hub.eventUnitSent
  with_reducible repeat'
    first
      | assumption | (intro x; refine (fun (_ : Kept K T N x) => ?_) ?_; clear_value x) | (intro x)
      | (lift_lets; intro x; refine (fun (_ : Kept K T N x) => ?_) ?_; clear_value x) | (lift_lets; intro x)
      | apply setSlot_kept | apply setRgn_kept | apply put_kept | apply inc64_kept | apply refreshLags_kept
      | apply setLeaf_kept | apply kept_ite
      | (apply kept_hub; first | assumption | apply setSlot_kept | apply setRgn_kept | apply put_kept | apply inc64_kept | apply refreshLags_kept | apply setLeaf_kept | apply kept_ite)
      | split | (clear_value *; split)

theorem unitSent_kept (k : Nat) (H : Kept K T N h) : Kept K T N (h.unitSent k) := by
  unfold Hub.unitSent
  with_reducible repeat'
    first
      | assumption | (intro x; refine (fun (_ : Kept K T N x) => ?_) ?_; clear_value x) | (intro x)
      | (lift_lets; intro x; refine (fun (_ : Kept K T N x) => ?_) ?_; clear_value x) | (lift_lets; intro x)
      | apply setTx_kept | apply eventUnitSent_kept | apply inc64_kept | apply wr_kept | apply kept_ite
      | (apply kept_hub; first | assumption | apply setTx_kept | apply eventUnitSent_kept | apply inc64_kept | apply wr_kept | apply kept_ite)
      | split | (clear_value *; split)

theorem slotRelease_kept (k : Nat) (H : Kept K T N h) : Kept K T N (h.slotRelease k) := by
  unfold Hub.slotRelease
  with_reducible repeat'
    first
      | assumption | apply setSlot_kept | apply inc64_kept | apply refreshSlots_kept | apply refreshLags_kept
      | apply kept_ite
      | (apply kept_hub; first | assumption | apply setSlot_kept | apply inc64_kept | apply refreshSlots_kept | apply refreshLags_kept | apply kept_ite)
      | split | (clear_value *; split)

theorem closeRegionUnit_kept (i r : Nat) (H : Kept K T N h) : Kept K T N (h.closeRegionUnit i r) := by
  unfold Hub.closeRegionUnit
  with_reducible repeat'
    first
      | assumption | (refine fun (g : Hub) n (_ : Kept K T N g) => ?_)
      | (intro x; refine (fun (_ : Kept K T N x) => ?_) ?_; clear_value x) | (intro x)
      | (lift_lets; intro x; refine (fun (_ : Kept K T N x) => ?_) ?_; clear_value x) | (lift_lets; intro x)
      | apply put_kept | apply setTx_kept | apply setSlot_kept | apply setRgn_kept | apply inc_kept
      | apply set1_kept | apply sendEvent_kept | apply kept_ite | apply kept_foldl
      | (apply kept_hub; first | assumption | apply put_kept | apply setTx_kept | apply setSlot_kept | apply setRgn_kept | apply inc_kept | apply set1_kept | apply sendEvent_kept | apply kept_ite | apply kept_foldl)
      | split | (clear_value *; split)

theorem closeLeafUnit_kept (i p : Nat) (H : Kept K T N h) : Kept K T N (h.closeLeafUnit i p) := by
  unfold Hub.closeLeafUnit
  with_reducible repeat'
    first
      | assumption | (intro x; refine (fun (_ : Kept K T N x) => ?_) ?_; clear_value x) | (intro x)
      | (lift_lets; intro x; refine (fun (_ : Kept K T N x) => ?_) ?_; clear_value x) | (lift_lets; intro x)
      | apply setTx_kept | apply setSlot_kept | apply setLeaf_kept | apply inc_kept | apply set1_kept
      | apply sendEvent_kept | apply kept_ite
      | (apply kept_hub; first | assumption | apply setTx_kept | apply setSlot_kept | apply setLeaf_kept | apply inc_kept | apply set1_kept | apply sendEvent_kept | apply kept_ite)
      | split | (clear_value *; split)

theorem eventClose_kept (k : Nat) (H : Kept K T N h) : Kept K T N (h.eventClose k) := by
  unfold Hub.eventClose
  with_reducible repeat'
    first
      | assumption | (refine fun (g : Hub) n (_ : Kept K T N g) => ?_)
      | (intro x; refine (fun (_ : Kept K T N x) => ?_) ?_; clear_value x) | (intro x)
      | (lift_lets; intro x; refine (fun (_ : Kept K T N x) => ?_) ?_; clear_value x) | (lift_lets; intro x)
      | apply setSlot_kept | apply forAll_kept | apply closeRegionUnit_kept | apply closeLeafUnit_kept
      | apply kept_ite
      | (apply kept_hub; first | assumption | apply setSlot_kept | apply forAll_kept | apply closeRegionUnit_kept | apply closeLeafUnit_kept | apply kept_ite)
      | split | (clear_value *; split)

theorem takeOut_kept (r : Nat) (H : Kept K T N h) : Kept K T N (h.takeOut r) := by
  unfold Hub.takeOut
  with_reducible repeat'
    first
      | assumption | apply setRgn_kept | (apply kept_hub; first | assumption | apply setRgn_kept)

theorem regionReset_kept (r : Nat) (H : Kept K T N h) : Kept K T N (h.regionReset r) := by
  unfold Hub.regionReset
  with_reducible repeat'
    first
      | assumption | apply set1_kept | apply setRgn_kept
      | (apply kept_hub; first | assumption | apply set1_kept | apply setRgn_kept)

theorem regionDiscard_kept (r : Nat) (H : Kept K T N h) : Kept K T N (h.regionDiscard r) := by
  unfold Hub.regionDiscard
  with_reducible repeat'
    first
      | assumption | (refine fun (g : Hub) n (_ : Kept K T N g) => ?_)
      | (intro x; refine (fun (_ : Kept K T N x) => ?_) ?_; clear_value x) | (intro x)
      | (lift_lets; intro x; refine (fun (_ : Kept K T N x) => ?_) ?_; clear_value x) | (lift_lets; intro x)
      | apply forAll_kept | apply closeRegionUnit_kept | apply setSlot_kept | apply put_kept
      | (apply kept_hub; first | assumption | apply forAll_kept | apply closeRegionUnit_kept | apply setSlot_kept | apply put_kept)
      | split | (clear_value *; split)

end Hub

end Sys2Proof.Machine
end

