-- ==== Sys2Proof/Laws/KeptTime.lean ====
section
/-! SUPPORT. What the operations of replies, the arbiters, time measurement, monitor, calibration and the time base keep: one lemma per operation. -/

namespace Sys2Proof.Machine

namespace Hub

variable {K : SMap (List Nat)} {T : Tap} {N : Nat} {h : Hub}

/-! ## Machine/ReplyOps.lean -/

theorem sendReplies_kept (l : List DlReply) (H : Kept K T N h) : Kept K T N (h.sendReplies l) := by
  induction l generalizing h with
  | nil => exact kept_hub H
  | cons r t ih =>
    unfold Hub.sendReplies
    split
    · exact ih (sendOut_kept _ _ _ _ H)
    · exact kept_hub H

theorem flushReplies_kept (H : Kept K T N h) : Kept K T N h.flushReplies := by
  unfold Hub.flushReplies
  with_reducible repeat' first | assumption | apply sendReplies_kept

theorem pushReply_kept (r : DlReply) (H : Kept K T N h) : Kept K T N (h.pushReply r) := by
  unfold Hub.pushReply
  with_reducible repeat'
    first
      | assumption | apply flushReplies_kept | (apply kept_hub; first | assumption | apply flushReplies_kept)

theorem replyFull_kept (mode tag : Nat) (H : Kept K T N h) : Kept K T N (h.replyFull mode tag) := by
  unfold Hub.replyFull
  with_reducible repeat' first | assumption | apply inc_kept | apply set1_kept | apply sendOut_kept

theorem portFinish_kept (H : Kept K T N h) : Kept K T N h.portFinish := by
  unfold Hub.portFinish
  with_reducible repeat'
    first
      | assumption | (intro x; refine (fun (_ : Kept K T N x) => ?_) ?_; clear_value x) | (intro x)
      | (lift_lets; intro x; refine (fun (_ : Kept K T N x) => ?_) ?_; clear_value x) | (lift_lets; intro x)
      | apply wr_kept | apply set1_kept | apply kept_ite
      | (apply kept_hub; first | assumption | apply wr_kept | apply set1_kept | apply kept_ite) | split
      | (clear_value *; split)

theorem portSettle_kept (H : Kept K T N h) : Kept K T N h.portSettle := by
  unfold Hub.portSettle
  with_reducible repeat'
    first
      | assumption | apply portFinish_kept | apply kept_ite
      | (apply kept_hub; first | assumption | apply portFinish_kept | apply kept_ite) | split
      | (clear_value *; split)

theorem portResults_kept (access pos : Nat) (rs : List (Nat × Bool)) (H : Kept K T N h) : Kept K T N (h.portResults
    access pos rs) := by
  unfold Hub.portResults
  with_reducible repeat'
    first
      | assumption | apply portSettle_kept | apply kept_ite
      | (apply kept_hub; first | assumption | apply portSettle_kept | apply kept_ite) | split
      | (clear_value *; split)

theorem portAnswer_kept (access pos : Nat) (rs : List (Nat × Bool)) (H : Kept K T N h) : Kept K T N (h.portAnswer
    access pos rs) := by
  unfold Hub.portAnswer
  with_reducible repeat' first | assumption | apply qCross_kept | apply portResults_kept | apply kept_ite

theorem resolve_kept (who : LeafFor) (access pos : Nat) (rs : List (Nat × Bool)) (H : Kept K T N h) : Kept K T N
    (h.resolve who access pos rs) := by
  unfold Hub.resolve
  with_reducible repeat'
    first
      | assumption | apply flushReplies_kept | apply portAnswer_kept | apply kept_ite
      | (apply kept_hub; first | assumption | apply flushReplies_kept | apply portAnswer_kept | apply kept_ite)
      | split | (clear_value *; split)

theorem markStale_kept (who : LeafFor) (access : Nat) (H : Kept K T N h) : Kept K T N (h.markStale who access) := by
  unfold Hub.markStale
  with_reducible repeat'
    first
      | assumption | apply stale_kept | apply kept_ite
      | (apply kept_hub; first | assumption | apply stale_kept | apply kept_ite) | split | (clear_value *; split)

theorem markReplayed_kept (who : LeafFor) (access : Nat) (H : Kept K T N h) : Kept K T N (h.markReplayed who access)
    := by
  unfold Hub.markReplayed
  with_reducible repeat'
    first
      | assumption | apply set1_kept | apply kept_ite
      | (apply kept_hub; first | assumption | apply set1_kept | apply kept_ite) | split | (clear_value *; split)

/-! ## Machine/ArbOps.lean -/

theorem readsWait_kept (j n : Nat) (H : Kept K T N h) : Kept K T N (h.readsWait j n) := by
  unfold Hub.readsWait
  with_reducible repeat' first | assumption | apply put_kept | apply kept_ite

theorem grantRead_kept (j : Nat) (errs : List EccErr) (r : ArbRead) (H : Kept K T N h) : Kept K T N (h.grantRead j
    errs r) := by
  unfold Hub.grantRead
  with_reducible repeat'
    first
      | assumption | (intro x; refine (fun (_ : Kept K T N x) => ?_) ?_; clear_value x) | (intro x)
      | (lift_lets; intro x; refine (fun (_ : Kept K T N x) => ?_) ?_; clear_value x) | (lift_lets; intro x)
      | apply setBlk_kept | apply readsWait_kept | apply diagGrant_kept | apply resolve_kept
      | (apply kept_hub; first | assumption | apply setBlk_kept | apply readsWait_kept | apply diagGrant_kept | apply resolve_kept)
      | split | (clear_value *; split)

theorem grantReads_kept (j : Nat) (errs : List EccErr) (all : Bool) (n : Nat) (H : Kept K T N h) :
    Kept K T N (Hub.grantReads j errs all n h) := by
  induction n generalizing h with
  | zero => exact H
  | succ n ih =>
    unfold Hub.grantReads
    split
    · exact H
    · split
      · exact ih (grantRead_kept _ _ _ H)
      · exact H

theorem grantCals_kept (j : Nat) (H : Kept K T N h) : Kept K T N (h.grantCals j) := by
  unfold Hub.grantCals
  with_reducible repeat' first | assumption | apply grantReads_kept

theorem raiseRead_kept (j : Nat) (r : ArbRead) (H : Kept K T N h) : Kept K T N (h.raiseRead j r) := by
  unfold Hub.raiseRead
  with_reducible repeat'
    first
      | assumption | apply setBlk_kept | apply grantCals_kept
      | (apply kept_hub; first | assumption | apply setBlk_kept | apply grantCals_kept)

theorem calRead_kept (j c : Nat) (H : Kept K T N h) : Kept K T N (h.calRead j c) := by
  unfold Hub.calRead
  with_reducible repeat' first | assumption | apply raiseRead_kept

theorem diagRead_kept (j : Nat) (errs : List EccErr) (H : Kept K T N h) : Kept K T N (h.diagRead j errs) := by
  unfold Hub.diagRead
  with_reducible repeat'
    first
      | assumption | apply grantRead_kept | apply grantCals_kept | apply readsWait_kept | apply kept_ite
      | (apply kept_hub; first | assumption | apply grantRead_kept | apply grantCals_kept | apply readsWait_kept | apply kept_ite)
      | split | (clear_value *; split)

theorem extractTurn_kept (k j : Nat) (errs : List EccErr) (lost : List HitErr) (H : Kept K T N h) :
    Kept K T N (h.extractTurn k j errs lost) := by
  unfold Hub.extractTurn
  split
  · exact H
  · refine kept_ite (extractPart_kept _ _ _ _ H) (grantCals_kept _ (readsWait_kept _ _ (setBlk_kept _ _ ?_)))
    exact extractPart_kept _ _ _ _ (grantReads_kept _ _ _ _ H)

theorem extractionStart_kept (k : Nat) (errs : List EccErr) (lost : List HitErr) (H : Kept K T N h) : Kept K T N
    (h.extractionStart k errs lost) := by
  unfold Hub.extractionStart
  with_reducible repeat'
    first
      | assumption | (refine fun (g : Hub) n (_ : Kept K T N g) => ?_) | apply forAll_kept | apply extractTurn_kept

theorem ringScrub_kept (j : Nat) (err : Option Bool) (H : Kept K T N h) : Kept K T N (h.ringScrub j err) := by
  unfold Hub.ringScrub
  with_reducible repeat'
    first
      | assumption | (intro x; refine (fun (_ : Kept K T N x) => ?_) ?_; clear_value x) | (intro x)
      | (lift_lets; intro x; refine (fun (_ : Kept K T N x) => ?_) ?_; clear_value x) | (lift_lets; intro x)
      | apply setBlk_kept | apply eccCount_kept | apply kept_ite
      | (apply kept_hub; first | assumption | apply setBlk_kept | apply eccCount_kept | apply kept_ite) | split
      | (clear_value *; split)

theorem grantBufReads_kept (r n : Nat) (H : Kept K T N h) : Kept K T N (Hub.grantBufReads r n h) := by
  induction n generalizing h with
  | zero => exact H
  | succ n ih =>
    unfold Hub.grantBufReads
    dsimp only
    split
    · exact H
    · exact kept_ite (ih (resolve_kept _ _ _ _ (setRgn_kept _ _ H))) H

theorem raiseBufRead_kept (r : Nat) (q : BufRead) (H : Kept K T N h) : Kept K T N (h.raiseBufRead r q) :=
  grantBufReads_kept _ _ (setRgn_kept _ _ H)

theorem assemblyTurn_kept (r : Nat) (H : Kept K T N h) : Kept K T N (h.assemblyTurn r) := by
  unfold Hub.assemblyTurn
  with_reducible repeat'
    first
      | assumption | apply fragmentAssembly_kept | apply setRgn_kept | apply grantBufReads_kept
      | (apply kept_hub; first | assumption | apply fragmentAssembly_kept | apply setRgn_kept | apply grantBufReads_kept)

/-! ## Machine/TdcOps.lean -/

theorem setTdc_kept (id : Nat) (x : Tdc) (H : Kept K T N h) : Kept K T N (h.setTdc id x) := by
  unfold Hub.setTdc
  with_reducible repeat' first | assumption | (apply kept_hub; first | assumption)

theorem setTin_kept (i : Nat) (x : Tin) (H : Kept K T N h) : Kept K T N (h.setTin i x) := by
  unfold Hub.setTin
  with_reducible repeat' first | assumption | (apply kept_hub; first | assumption)

theorem setIvl_kept (e : Nat) (x : Ivl) (H : Kept K T N h) : Kept K T N (h.setIvl e x) := by
  unfold Hub.setIvl
  with_reducible repeat' first | assumption | (apply kept_hub; first | assumption)

theorem ivlArm_kept (e : Nat) (H : Kept K T N h) : Kept K T N (h.ivlArm e) := by
  unfold Hub.ivlArm
  with_reducible repeat' first | assumption | apply setIvl_kept | apply put_kept | apply kept_ite

theorem ivlCancel_kept (e : Nat) (H : Kept K T N h) : Kept K T N (h.ivlCancel e) := by
  unfold Hub.ivlCancel
  with_reducible repeat' first | assumption | apply setIvl_kept | apply put_kept

theorem ivlFirst_kept (e s : Nat) (falling : Bool) (v : Nat) (H : Kept K T N h) : Kept K T N (h.ivlFirst e s falling
    v) := by
  unfold Hub.ivlFirst
  with_reducible repeat'
    first
      | assumption | apply setIvl_kept | apply put_kept | apply kept_ite
      | (apply kept_hub; first | assumption | apply setIvl_kept | apply put_kept | apply kept_ite)

theorem ivlWrite_kept (e : Nat) (d : Int) (cold tie order ovf : Bool) (H : Kept K T N h) : Kept K T N (h.ivlWrite e
    d cold tie order ovf) := by
  unfold Hub.ivlWrite
  with_reducible repeat'
    first
      | assumption | apply w64_kept | apply inc_kept | apply set1_kept | apply setIvl_kept | apply put_kept
      | apply kept_ite

theorem ivlSecond_kept (e s : Nat) (falling : Bool) (v : Nat) (H : Kept K T N h) :
    Kept K T N (h.ivlSecond e s falling v) := by
  unfold Hub.ivlSecond
  dsimp only
  split
  · exact H
  · exact kept_ite H (ivlWrite_kept _ _ _ _ _ _ H)

theorem ivlEdge_kept (e s : Nat) (falling : Bool) (v : Nat) (H : Kept K T N h) : Kept K T N (h.ivlEdge e s falling
    v) := by
  unfold Hub.ivlEdge
  with_reducible repeat' first | assumption | apply ivlSecond_kept | apply ivlFirst_kept | apply kept_ite

theorem ivlOvf_kept (e : Nat) (H : Kept K T N h) : Kept K T N (h.ivlOvf e) := by
  unfold Hub.ivlOvf
  with_reducible repeat'
    first
      | assumption | (intro x; refine (fun (_ : Kept K T N x) => ?_) ?_; clear_value x) | (intro x)
      | (lift_lets; intro x; refine (fun (_ : Kept K T N x) => ?_) ?_; clear_value x) | (lift_lets; intro x)
      | apply ivlWrite_kept | apply kept_ite
      | (apply kept_hub; first | assumption | apply ivlWrite_kept | apply kept_ite) | split | (clear_value *; split)

theorem storeHit_kept (j c : Nat) (x : Hit) (H : Kept K T N h) : Kept K T N (h.storeHit j c x) := by
  unfold Hub.storeHit
  with_reducible repeat'
    first
      | assumption | (intro x; refine (fun (_ : Kept K T N x) => ?_) ?_; clear_value x) | (intro x)
      | (lift_lets; intro x; refine (fun (_ : Kept K T N x) => ?_) ?_; clear_value x) | (lift_lets; intro x)
      | apply setHitStore_kept | apply add_kept
      | (apply kept_hub; first | assumption | apply setHitStore_kept | apply add_kept) | split
      | (clear_value *; split)

theorem tinHit_kept (i : Nat) (x : Hit) (H : Kept K T N h) : Kept K T N (h.tinHit i x) := by
  unfold Hub.tinHit
  with_reducible repeat'
    first
      | assumption | apply incSat_kept | apply put_kept | apply setTin_kept | apply kept_ite
      | (apply kept_hub; first | assumption | apply incSat_kept | apply put_kept | apply setTin_kept | apply kept_ite)

theorem cellCrossing_kept (j c q : Nat) (s : Snap) (x : Swing) (H : Kept K T N h) :
    Kept K T N (h.cellCrossing j c q s x) := by
  have H1 := fun x t => setTdc_kept (cellId j c) t (setCell_kept (cellId j c) x H)
  have H2 := fun x t => inc_kept (TDC_HIT_COUNT j c) (H1 x t)
  unfold Hub.cellCrossing
  dsimp only
  refine kept_ite H (kept_ite (setCell_kept _ _ H) ?_)
  split
  · exact kept_ite (inc_kept _ (H1 _ _)) (H1 _ _)
  · exact storeHit_kept _ _ _ (wr_kept _ _ (w64_kept _ _ (kept_ite (inc_kept _ (H2 _ _)) (H2 _ _))))

theorem tinCrossing_kept (i q : Nat) (s : Snap) (fall : Bool) (H : Kept K T N h) :
    Kept K T N (h.tinCrossing i q s fall) := by
  unfold Hub.tinCrossing
  dsimp only
  refine kept_ite H ?_
  have H1 := setTdc_kept (tinTdc i) (h.tdcRecord (tinTdc i) q s).2.1 H
  split
  · exact H1
  · rename_i v _
    have H2 := kept_ite (c := v.pile = true) H1
      (forAll_kept (List.range 4) _ (fun f e F => ivlEdge_kept e i fall (wordValue v.tw) F) H1)
    exact kept_ite (tinHit_kept _ _ H2) H2

theorem tdcHit_kept (id q : Nat) (s : Snap) (x : Swing) (H : Kept K T N h) : Kept K T N (h.tdcHit id q s x) := by
  unfold Hub.tdcHit
  exact kept_ite (cellCrossing_kept _ _ _ _ _ H) (tinCrossing_kept _ _ _ _ H)

theorem cdUniform_kept (t : Nat) (H : Kept K T N h) : Kept K T N (h.cdUniform t) := by
  unfold Hub.cdUniform
  with_reducible repeat'
    first
      | assumption | (refine fun (g : Hub) n (_ : Kept K T N g) => ?_) | apply forAll_kept | apply wr_kept
      | apply put_kept

theorem takeTdcEnable_kept (j c : Nat) (H : Kept K T N h) : Kept K T N (h.takeTdcEnable j c) := by
  unfold Hub.takeTdcEnable
  with_reducible repeat'
    first
      | assumption | apply setTdc_kept | apply cdUniform_kept | apply kept_ite
      | (apply kept_hub; first | assumption | apply setTdc_kept | apply cdUniform_kept | apply kept_ite)

theorem takeSkew_kept (j c : Nat) (H : Kept K T N h) : Kept K T N (h.takeSkew j c) := by
  unfold Hub.takeSkew
  with_reducible repeat'
    first
      | assumption | apply setTdc_kept | (apply kept_hub; first | assumption | apply setTdc_kept)

theorem takeTin_kept (i : Nat) (H : Kept K T N h) : Kept K T N (h.takeTin i) := by
  unfold Hub.takeTin
  with_reducible repeat'
    first
      | assumption | apply setTdc_kept | apply setTin_kept
      | (apply kept_hub; first | assumption | apply setTdc_kept | apply setTin_kept)

theorem cdDiscard_kept (t : Nat) (H : Kept K T N h) : Kept K T N (h.cdDiscard t) := by
  unfold Hub.cdDiscard
  with_reducible repeat'
    first
      | assumption | apply setTdc_kept | apply put_kept
      | (apply kept_hub; first | assumption | apply setTdc_kept | apply put_kept)

theorem cdSnapshot_kept (t b q : Nat) (H : Kept K T N h) : Kept K T N (h.cdSnapshot t b q) := by
  unfold Hub.cdSnapshot
  with_reducible repeat'
    first
      | assumption | apply cdDiscard_kept | apply setTdc_kept | apply put_kept | apply kept_ite
      | (apply kept_hub; first | assumption | apply cdDiscard_kept | apply setTdc_kept | apply put_kept | apply kept_ite)

theorem cdOff_kept (t : Nat) (H : Kept K T N h) : Kept K T N (h.cdOff t) := by
  unfold Hub.cdOff
  with_reducible repeat'
    first
      | assumption | (refine fun (g : Hub) n (_ : Kept K T N g) => ?_) | apply forAll_kept | apply wr_kept
      | apply put_kept | apply kept_ite

theorem cdComplete_kept (t : Nat) (H : Kept K T N h) : Kept K T N (h.cdComplete t) := by
  unfold Hub.cdComplete
  with_reducible repeat'
    first
      | assumption | (refine fun (g : Hub) n (_ : Kept K T N g) => ?_) | apply cdDiscard_kept | apply inc_kept
      | apply wr_kept | apply forAll_kept | apply put_kept | apply set1_kept | apply raise_kept | apply kept_ite

theorem cdCold_kept (H : Kept K T N h) : Kept K T N h.cdCold := by
  unfold Hub.cdCold
  with_reducible repeat'
    first
      | assumption | (refine fun (g : Hub) n (_ : Kept K T N g) => ?_) | apply forAll_kept | apply cdDiscard_kept

theorem cdAge_kept (t : Nat) (H : Kept K T N h) : Kept K T N (h.cdAge t) := by
  unfold Hub.cdAge
  with_reducible repeat' first | assumption | apply incSat_kept

theorem tinPop_kept (i : Nat) (H : Kept K T N h) : Kept K T N (h.tinPop i).1 := by
  unfold Hub.tinPop
  with_reducible repeat'
    first
      | assumption | (intro x; refine (fun (_ : Kept K T N x) => ?_) ?_; clear_value x) | (intro x)
      | (lift_lets; intro x; refine (fun (_ : Kept K T N x) => ?_) ?_; clear_value x) | (lift_lets; intro x)
      | apply setTin_kept | apply put_kept
      | (apply kept_hub; first | assumption | apply setTin_kept | apply put_kept) | split | (clear_value *; split)

theorem frqEnd_kept (H : Kept K T N h) : Kept K T N h.frqEnd := by
  unfold Hub.frqEnd
  with_reducible repeat' first | assumption | apply put_kept

theorem frqNoRef_kept (H : Kept K T N h) : Kept K T N h.frqNoRef := by
  unfold Hub.frqNoRef
  with_reducible repeat' first | assumption | apply set1_kept | apply w64_kept | apply frqEnd_kept | apply kept_ite

theorem frqStart_kept (H : Kept K T N h) : Kept K T N h.frqStart := by
  unfold Hub.frqStart
  with_reducible repeat'
    first
      | assumption | apply put_kept | apply frqNoRef_kept | apply kept_ite
      | (apply kept_hub; first | assumption | apply put_kept | apply frqNoRef_kept | apply kept_ite)

theorem frqCancel_kept (H : Kept K T N h) : Kept K T N h.frqCancel := by
  unfold Hub.frqCancel
  with_reducible repeat' first | assumption | apply frqEnd_kept

theorem frqDone_kept (n m : Nat) (H : Kept K T N h) : Kept K T N (h.frqDone n m) := by
  unfold Hub.frqDone
  with_reducible repeat'
    first
      | assumption | apply wr_kept | apply w64_kept | apply set1_kept | apply frqEnd_kept | apply kept_ite

theorem frqNoEdge_kept (n : Nat) (H : Kept K T N h) : Kept K T N (h.frqNoEdge n) := by
  unfold Hub.frqNoEdge
  with_reducible repeat'
    first
      | assumption | apply wr_kept | apply w64_kept | apply set1_kept | apply frqEnd_kept | apply kept_ite

/-! ## Machine/MonitorOps.lean -/

theorem setMonConv_kept (m : Nat) (x : MonConv) (H : Kept K T N h) : Kept K T N (h.setMonConv m x) := by
  unfold Hub.setMonConv
  with_reducible repeat' first | assumption | (apply kept_hub; first | assumption)

theorem setMonAvg_kept (i : Nat) (x : MonAvg) (H : Kept K T N h) : Kept K T N (h.setMonAvg i x) := by
  unfold Hub.setMonAvg
  with_reducible repeat' first | assumption | (apply kept_hub; first | assumption)

theorem setExc_kept (e v : Nat) (H : Kept K T N h) : Kept K T N (h.setExc e v) := by
  unfold Hub.setExc
  with_reducible repeat' first | assumption | (apply kept_hub; first | assumption)

theorem monChWritten_kept (i old : Nat) (H : Kept K T N h) : Kept K T N (h.monChWritten i old) := by
  unfold Hub.monChWritten
  with_reducible repeat'
    first
      | assumption | apply put_kept | apply setMonAvg_kept | apply kept_ite
      | (apply kept_hub; first | assumption | apply put_kept | apply setMonAvg_kept | apply kept_ite)

theorem monBegun_kept (m : Nat) (H : Kept K T N h) : Kept K T N (h.monBegun m) := by
  unfold Hub.monBegun
  with_reducible repeat'
    first
      | assumption | (intro x; refine (fun (_ : Kept K T N x) => ?_) ?_; clear_value x) | (intro x)
      | (lift_lets; intro x; refine (fun (_ : Kept K T N x) => ?_) ?_; clear_value x) | (lift_lets; intro x)
      | apply setMonConv_kept | apply kept_ite
      | (apply kept_hub; first | assumption | apply setMonConv_kept | apply kept_ite) | split
      | (clear_value *; split)

theorem monIdle_kept (m : Nat) (H : Kept K T N h) : Kept K T N (h.monIdle m) := by
  unfold Hub.monIdle
  with_reducible repeat' first | assumption | apply put_kept

theorem monStart_kept (m : Nat) (H : Kept K T N h) : Kept K T N (h.monStart m) := by
  unfold Hub.monStart
  dsimp only
  refine kept_ite H ?_
  split
  · exact monIdle_kept _ H
  · exact monBegun_kept _ (put_kept _ _ (put_kept _ _ (setMonConv_kept _ _ H)))

theorem monAbandon_kept (m : Nat) (H : Kept K T N h) : Kept K T N (h.monAbandon m) := by
  unfold Hub.monAbandon
  with_reducible repeat'
    first
      | assumption | (intro x; refine (fun (_ : Kept K T N x) => ?_) ?_; clear_value x) | (intro x)
      | (lift_lets; intro x; refine (fun (_ : Kept K T N x) => ?_) ?_; clear_value x) | (lift_lets; intro x)
      | apply setMonConv_kept | apply kept_ite
      | (apply kept_hub; first | assumption | apply setMonConv_kept | apply kept_ite) | split
      | (clear_value *; split)

theorem monCut_kept (m : Nat) (H : Kept K T N h) : Kept K T N (h.monCut m) := by
  unfold Hub.monCut
  with_reducible repeat'
    first
      | assumption | (intro x; refine (fun (_ : Kept K T N x) => ?_) ?_; clear_value x) | (intro x)
      | (lift_lets; intro x; refine (fun (_ : Kept K T N x) => ?_) ?_; clear_value x) | (lift_lets; intro x)
      | apply setMonConv_kept | apply kept_ite
      | (apply kept_hub; first | assumption | apply setMonConv_kept | apply kept_ite) | split
      | (clear_value *; split)

theorem monPower_kept (H : Kept K T N h) : Kept K T N h.monPower := by
  unfold Hub.monPower
  with_reducible repeat'
    first
      | assumption | (refine fun (g : Hub) n (_ : Kept K T N g) => ?_) | apply forAll_kept | apply monStart_kept
      | apply monCut_kept | apply monIdle_kept | apply kept_ite

theorem monCapture_kept (w ch : Nat) (H : Kept K T N h) : Kept K T N (h.monCapture w ch) := by
  unfold Hub.monCapture
  with_reducible repeat'
    first
      | assumption | apply setMonConv_kept | apply monAbandon_kept | apply monStart_kept | apply kept_ite
      | (apply kept_hub; first | assumption | apply setMonConv_kept | apply monAbandon_kept | apply monStart_kept | apply kept_ite)

theorem monUrgentGo_kept (H : Kept K T N h) : Kept K T N h.monUrgentGo := by
  unfold Hub.monUrgentGo
  with_reducible repeat'
    first
      | assumption | apply set1_kept | apply setMonConv_kept | apply put_kept | apply monAbandon_kept
      | apply monStart_kept | apply kept_ite
      | (apply kept_hub; first | assumption | apply set1_kept | apply setMonConv_kept | apply put_kept | apply monAbandon_kept | apply monStart_kept | apply kept_ite)

theorem monScan_kept (H : Kept K T N h) : Kept K T N h.monScan := by
  unfold Hub.monScan
  with_reducible repeat'
    first
      | assumption | (refine fun (g : Hub) n (_ : Kept K T N g) => ?_) | apply forAll_kept | apply setMonConv_kept
      | apply monStart_kept
      | (apply kept_hub; first | assumption | apply forAll_kept | apply setMonConv_kept | apply monStart_kept)

theorem monScanStart_kept (H : Kept K T N h) : Kept K T N h.monScanStart := by
  unfold Hub.monScanStart
  with_reducible repeat'
    first
      | assumption | apply inc_kept | apply set1_kept | apply monScan_kept | apply kept_ite
      | (apply kept_hub; first | assumption | apply inc_kept | apply set1_kept | apply monScan_kept | apply kept_ite)

theorem monPush_kept (w : Nat × Nat) (H : Kept K T N h) : Kept K T N (h.monPush w) := by
  unfold Hub.monPush
  with_reducible repeat'
    first
      | assumption | apply qOffer_kept | apply kept_ite
      | (apply kept_hub; first | assumption | apply qOffer_kept | apply kept_ite)

theorem monRelease_kept (r : MonHeld) (H : Kept K T N h) : Kept K T N (h.monRelease r) := by
  unfold Hub.monRelease
  with_reducible repeat'
    first
      | assumption | (intro x; refine (fun (_ : Kept K T N x) => ?_) ?_; clear_value x) | (intro x)
      | (lift_lets; intro x; refine (fun (_ : Kept K T N x) => ?_) ?_; clear_value x) | (lift_lets; intro x)
      | apply setMonAvg_kept | apply put_kept | apply monPush_kept | apply kept_ite
      | (apply kept_hub; first | assumption | apply setMonAvg_kept | apply put_kept | apply monPush_kept | apply kept_ite)
      | split | (clear_value *; split)

theorem monResult_kept (m : Nat) (r : MonHeld) (H : Kept K T N h) : Kept K T N (h.monResult m r) := by
  unfold Hub.monResult
  with_reducible repeat'
    first
      | assumption | apply setMonConv_kept | apply monRelease_kept | apply kept_ite
      | (apply kept_hub; first | assumption | apply setMonConv_kept | apply monRelease_kept | apply kept_ite)

theorem monConvert_kept (m : Nat) (op : MonOp) (raw : Nat) (H : Kept K T N h) : Kept K T N (h.monConvert m op raw)
    := by
  unfold Hub.monConvert
  with_reducible repeat'
    first
      | assumption | apply setMonAvg_kept | apply put_kept | apply monResult_kept | apply kept_ite
      | (apply kept_hub; first | assumption | apply setMonAvg_kept | apply put_kept | apply monResult_kept | apply kept_ite)

theorem monNextScan_kept (H : Kept K T N h) : Kept K T N h.monNextScan := by
  unfold Hub.monNextScan
  with_reducible repeat'
    first
      | assumption | apply monScan_kept | apply kept_ite
      | (apply kept_hub; first | assumption | apply monScan_kept | apply kept_ite)

theorem monDone_kept (m code : Nat) (H : Kept K T N h) : Kept K T N (h.monDone m code) := by
  unfold Hub.monDone
  with_reducible repeat'
    first
      | assumption | (intro x; refine (fun (_ : Kept K T N x) => ?_) ?_; clear_value x) | (intro x)
      | (lift_lets; intro x; refine (fun (_ : Kept K T N x) => ?_) ?_; clear_value x) | (lift_lets; intro x)
      | apply monConvert_kept | apply setMonConv_kept | apply monNextScan_kept | apply monStart_kept
      | (apply kept_hub; first | assumption | apply monConvert_kept | apply setMonConv_kept | apply monNextScan_kept | apply monStart_kept)
      | split | (clear_value *; split)

theorem monResultRelease_kept (m : Nat) (H : Kept K T N h) : Kept K T N (h.monResultRelease m) := by
  unfold Hub.monResultRelease
  with_reducible repeat'
    first
      | assumption | (intro x; refine (fun (_ : Kept K T N x) => ?_) ?_; clear_value x) | (intro x)
      | (lift_lets; intro x; refine (fun (_ : Kept K T N x) => ?_) ?_; clear_value x) | (lift_lets; intro x)
      | apply setMonConv_kept | apply monRelease_kept
      | (apply kept_hub; first | assumption | apply setMonConv_kept | apply monRelease_kept) | split
      | (clear_value *; split)

theorem monTaken_kept (l : List Nat) (H : Kept K T N h) : Kept K T N (h.monTaken l) := by
  unfold Hub.monTaken
  with_reducible repeat'
    first
      | assumption | (intro x; refine (fun (_ : Kept K T N x) => ?_) ?_; clear_value x) | (intro x)
      | (lift_lets; intro x; refine (fun (_ : Kept K T N x) => ?_) ?_; clear_value x) | (lift_lets; intro x)
      | apply w64_kept | apply sendOut_kept | apply kept_ite
      | (apply kept_hub; first | assumption | apply w64_kept | apply sendOut_kept | apply kept_ite) | split
      | (clear_value *; split)

theorem monForward_kept (H : Kept K T N h) : Kept K T N h.monForward := by
  unfold Hub.monForward
  split
  · exact H
  · exact monTaken_kept _ (qTake_kept H ‹_›)

theorem winSeen_kept (w : Nat) (H : Kept K T N h) : Kept K T N (h.winSeen w) := by
  unfold Hub.winSeen
  with_reducible repeat' first | assumption | apply put_kept | apply inc_kept

theorem winSet_kept (w : Nat) (out tripped : Bool) (H : Kept K T N h) : Kept K T N (h.winSet w out tripped) := by
  unfold Hub.winSet
  with_reducible repeat' first | assumption | apply put_kept | (apply kept_hub; first | assumption | apply put_kept)

theorem winCompare_kept (w code : Nat) (H : Kept K T N h) : Kept K T N (h.winCompare w code).1 := by
  unfold Hub.winCompare
  with_reducible repeat' first | assumption | apply winSet_kept | apply winSeen_kept | apply kept_ite

theorem winInput_kept (w code : Nat) (H : Kept K T N h) : Kept K T N (h.winInput w code) := by
  unfold Hub.winInput
  with_reducible repeat'
    first
      | assumption | apply winCompare_kept | apply raise_kept | apply monCapture_kept | apply kept_ite

theorem winWritten_kept (w : Nat) (H : Kept K T N h) : Kept K T N (h.winWritten w) := by
  unfold Hub.winWritten
  with_reducible repeat' first | assumption | apply winSet_kept

theorem excWritten_kept (e : Nat) (H : Kept K T N h) : Kept K T N (h.excWritten e) := by
  unfold Hub.excWritten
  with_reducible repeat' first | assumption | (apply kept_hub; first | assumption)

theorem excChange_kept (e : Nat) (H : Kept K T N h) : Kept K T N (h.excChange e) := by
  unfold Hub.excChange
  with_reducible repeat'
    first
      | assumption | (refine fun (g : Hub) n (_ : Kept K T N g) => ?_) | apply setExc_kept | apply put_kept
      | apply forAll_kept | apply kept_ite
      | (apply kept_hub; first | assumption | apply setExc_kept | apply put_kept | apply forAll_kept | apply kept_ite)

theorem excOpen_kept (e : Nat) (H : Kept K T N h) : Kept K T N (h.excOpen e) := by
  unfold Hub.excOpen
  with_reducible repeat'
    first
      | assumption | (refine fun (g : Hub) n (_ : Kept K T N g) => ?_) | apply set1_kept | apply forAll_kept
      | apply setMonConv_kept | apply kept_ite
      | (apply kept_hub; first | assumption | apply set1_kept | apply forAll_kept | apply setMonConv_kept | apply kept_ite)

theorem excLoss_kept (e : Nat) (limit : Bool) (H : Kept K T N h) : Kept K T N (h.excLoss e limit) := by
  unfold Hub.excLoss
  with_reducible repeat'
    first
      | assumption | apply excOpen_kept | apply set1_kept | apply put_kept | apply inc_kept | apply raise_kept
      | apply kept_ite

theorem excOpenAgain_kept (H : Kept K T N h) : Kept K T N h.excOpenAgain := by
  unfold Hub.excOpenAgain
  with_reducible repeat'
    first
      | assumption | (refine fun (g : Hub) n (_ : Kept K T N g) => ?_) | apply forAll_kept | apply excOpen_kept
      | apply kept_ite

/-! ## Machine/CalibOps.lean -/

theorem setCalBlk_kept (j : Nat) (x : CalBlk) (H : Kept K T N h) : Kept K T N (h.setCalBlk j x) := by
  unfold Hub.setCalBlk
  with_reducible repeat' first | assumption | (apply kept_hub; first | assumption)

theorem calTrimForce_kept (id : Nat) (H : Kept K T N h) : Kept K T N (h.calTrimForce id) := by
  unfold Hub.calTrimForce
  with_reducible repeat'
    first
      | assumption | apply setCell_kept | (apply kept_hub; first | assumption | apply setCell_kept)

theorem calTrims_kept (j c hg lg : Nat) (H : Kept K T N h) : Kept K T N (h.calTrims j c hg lg) := by
  unfold Hub.calTrims
  with_reducible repeat' first | assumption | apply wr_kept | (apply kept_hub; first | assumption | apply wr_kept)

theorem calTrimsTaken_kept (H : Kept K T N h) : Kept K T N h.calTrimsTaken := by
  unfold Hub.calTrimsTaken
  with_reducible repeat'
    first
      | assumption | (refine fun (g : Hub) n (_ : Kept K T N g) => ?_) | apply forAll_kept | apply calTrimForce_kept
      | (apply kept_hub; first | assumption | apply forAll_kept | apply calTrimForce_kept)

theorem calPhase_kept (j c ph : Nat) (H : Kept K T N h) : Kept K T N (h.calPhase j c ph) := by
  unfold Hub.calPhase
  with_reducible repeat' first | assumption | apply put_kept

theorem setCalib_kept (j : Nat) (x : Option Calib) (H : Kept K T N h) : Kept K T N (h.setCalib j x) := by
  unfold Hub.setCalib
  with_reducible repeat'
    first
      | assumption | apply setCalBlk_kept | (apply kept_hub; first | assumption | apply setCalBlk_kept)

theorem setCalQueue_kept (j : Nat) (q : List CalReq) (H : Kept K T N h) : Kept K T N (h.setCalQueue j q) := by
  unfold Hub.setCalQueue
  with_reducible repeat'
    first
      | assumption | apply setCalBlk_kept | apply put_kept
      | (apply kept_hub; first | assumption | apply setCalBlk_kept | apply put_kept)

theorem calQueue_kept (j c rank : Nat) (sweep : Bool) (H : Kept K T N h) : Kept K T N (h.calQueue j c rank sweep) :=
    by
  unfold Hub.calQueue
  with_reducible repeat'
    first
      | assumption | apply setCalQueue_kept | apply kept_ite
      | (apply kept_hub; first | assumption | apply setCalQueue_kept | apply kept_ite)

theorem sweepDone_kept (j : Nat) (x : Calib) (H : Kept K T N h) : Kept K T N (h.sweepDone j x) := by
  unfold Hub.sweepDone
  with_reducible repeat'
    first
      | assumption | apply put_kept | apply kept_ite
      | (apply kept_hub; first | assumption | apply put_kept | apply kept_ite)

theorem calIdle_kept (j c : Nat) (H : Kept K T N h) : Kept K T N (h.calIdle j c) := by
  unfold Hub.calIdle
  with_reducible repeat'
    first
      | assumption | apply put_kept | apply calPhase_kept | apply setCalib_kept | apply kept_ite

theorem calEnd_kept (j why : Nat) (H : Kept K T N h) : Kept K T N (h.calEnd j why) := by
  unfold Hub.calEnd
  with_reducible repeat'
    first
      | assumption | (intro x; refine (fun (_ : Kept K T N x) => ?_) ?_; clear_value x) | (intro x)
      | (lift_lets; intro x; refine (fun (_ : Kept K T N x) => ?_) ?_; clear_value x) | (lift_lets; intro x)
      | apply set1_kept | apply sweepDone_kept | apply calIdle_kept | apply calTrims_kept | apply calTrimForce_kept
      | apply put_kept | apply setCalQueue_kept | apply kept_ite
      | (apply kept_hub; first | assumption | apply set1_kept | apply sweepDone_kept | apply calIdle_kept | apply calTrims_kept | apply calTrimForce_kept | apply put_kept | apply setCalQueue_kept | apply kept_ite)
      | split | (clear_value *; split)

theorem calSuspect_kept (j c why : Nat) (H : Kept K T N h) : Kept K T N (h.calSuspect j c why) := by
  unfold Hub.calSuspect
  with_reducible repeat'
    first
      | assumption | apply put_kept | apply inc_kept | apply healthWatch_kept | apply setCalBlk_kept
      | (apply kept_hub; first | assumption | apply put_kept | apply inc_kept | apply healthWatch_kept | apply setCalBlk_kept)

theorem calFail_kept (j : Nat) (x : Calib) (why : Nat) (restore : Bool) (H : Kept K T N h) : Kept K T N (h.calFail j
    x why restore) := by
  unfold Hub.calFail
  with_reducible repeat'
    first
      | assumption | apply inc_kept | apply put_kept | apply calSuspect_kept | apply calTrims_kept
      | apply setCalib_kept | apply calPhase_kept | apply kept_ite
      | (apply kept_hub; first | assumption | apply inc_kept | apply put_kept | apply calSuspect_kept | apply calTrims_kept | apply setCalib_kept | apply calPhase_kept | apply kept_ite)

theorem calRange_kept (j : Nat) (x : Calib) (H : Kept K T N h) : Kept K T N (h.calRange j x) := by
  unfold Hub.calRange
  with_reducible repeat'
    first
      | assumption | apply calSuspect_kept | apply calTrims_kept | apply setCalib_kept | apply calPhase_kept
      | (apply kept_hub; first | assumption | apply calSuspect_kept | apply calTrims_kept | apply setCalib_kept | apply calPhase_kept)

theorem calPassB_kept (j : Nat) (x : Calib) (a b : TrimSet) (H : Kept K T N h) : Kept K T N (h.calPassB j x a b) :=
    by
  unfold Hub.calPassB
  with_reducible repeat'
    first
      | assumption | apply calTrims_kept | apply setCalib_kept | apply calPhase_kept | apply calFail_kept
      | apply kept_ite
      | (apply kept_hub; first | assumption | apply calTrims_kept | apply setCalib_kept | apply calPhase_kept | apply calFail_kept | apply kept_ite)

theorem calAccept_kept (j : Nat) (x : Calib) (s : StepSums) (ρ : Int) (H : Kept K T N h) : Kept K T N (h.calAccept j
    x s ρ) := by
  unfold Hub.calAccept
  with_reducible repeat'
    first
      | assumption | apply put_kept | apply inc_kept | apply w64_kept | apply wr_kept | apply setCalBlk_kept
      | apply calPhase_kept | apply set1_kept | apply kept_ite
      | (apply kept_hub; first | assumption | apply put_kept | apply inc_kept | apply w64_kept | apply wr_kept | apply setCalBlk_kept | apply calPhase_kept | apply set1_kept | apply kept_ite)

theorem calCheck_kept (j : Nat) (x : Calib) (s : StepSums) (H : Kept K T N h) : Kept K T N (h.calCheck j x s) := by
  unfold Hub.calCheck
  with_reducible repeat'
    first
      | assumption | apply calAccept_kept | apply calRange_kept | apply calFail_kept | apply kept_ite
      | (apply kept_hub; first | assumption | apply calAccept_kept | apply calRange_kept | apply calFail_kept | apply kept_ite)
      | split | (clear_value *; split)

theorem calSkew_kept (j c : Nat) (diff : Int) (H : Kept K T N h) : Kept K T N (h.calSkew j c diff) := by
  unfold Hub.calSkew
  with_reducible repeat' first | assumption | apply put_kept | apply calPhase_kept | apply kept_ite

theorem skewsCold_kept (H : Kept K T N h) : Kept K T N h.skewsCold := by
  unfold Hub.skewsCold
  with_reducible repeat'
    first
      | assumption | (refine fun (g : Hub) n (_ : Kept K T N g) => ?_) | apply forAll_kept | apply set1_kept
      | apply calPhase_kept | apply kept_ite
      | (apply kept_hub; first | assumption | apply forAll_kept | apply set1_kept | apply calPhase_kept | apply kept_ite)
      | split | (clear_value *; split)

theorem calPhaseEnd_kept (j : Nat) (s : StepSums) (diff : Int) (H : Kept K T N h) : Kept K T N (h.calPhaseEnd j s
    diff) := by
  unfold Hub.calPhaseEnd
  with_reducible repeat'
    first
      | assumption | (intro x; refine (fun (_ : Kept K T N x) => ?_) ?_; clear_value x) | (intro x)
      | (lift_lets; intro x; refine (fun (_ : Kept K T N x) => ?_) ?_; clear_value x) | (lift_lets; intro x)
      | apply calRead_kept | apply calEnd_kept | apply calPhase_kept | apply calRange_kept | apply setCalib_kept
      | apply calPassB_kept | apply calCheck_kept | apply calSkew_kept | apply sweepDone_kept | apply calIdle_kept
      | apply kept_ite
      | (apply kept_hub; first | assumption | apply calRead_kept | apply calEnd_kept | apply calPhase_kept | apply calRange_kept | apply setCalib_kept | apply calPassB_kept | apply calCheck_kept | apply calSkew_kept | apply sweepDone_kept | apply calIdle_kept | apply kept_ite)
      | split | (clear_value *; split)

theorem calRefCheck_kept (step : Option Nat) (bad : Bool) (H : Kept K T N h) : Kept K T N (h.calRefCheck step bad)
    := by
  unfold Hub.calRefCheck
  with_reducible repeat'
    first
      | assumption | (intro x; refine (fun (_ : Kept K T N x) => ?_) ?_; clear_value x) | (intro x)
      | (lift_lets; intro x; refine (fun (_ : Kept K T N x) => ?_) ?_; clear_value x) | (lift_lets; intro x)
      | apply put_kept | apply calEnd_kept | apply kept_ite
      | (apply kept_hub; first | assumption | apply put_kept | apply calEnd_kept | apply kept_ite) | split
      | (clear_value *; split)

theorem calSweep_kept (H : Kept K T N h) : Kept K T N h.calSweep := by
  unfold Hub.calSweep
  with_reducible repeat'
    first
      | assumption | (refine fun (g : Hub) n (_ : Kept K T N g) => ?_) | apply put_kept | apply forAll_kept
      | apply calQueue_kept | apply kept_ite
      | (apply kept_hub; first | assumption | apply put_kept | apply forAll_kept | apply calQueue_kept | apply kept_ite)

theorem calUnblock_kept (j c : Nat) (H : Kept K T N h) : Kept K T N (h.calUnblock j c) := by
  unfold Hub.calUnblock
  with_reducible repeat'
    first
      | assumption | apply setCalBlk_kept | (apply kept_hub; first | assumption | apply setCalBlk_kept)

theorem calTempCheck_kept (H : Kept K T N h) : Kept K T N h.calTempCheck := by
  unfold Hub.calTempCheck
  with_reducible repeat'
    first
      | assumption | (refine fun (g : Hub) n (_ : Kept K T N g) => ?_) | apply forAll_kept | apply calUnblock_kept
      | apply calQueue_kept | apply kept_ite

theorem calAge_kept (j c : Nat) (H : Kept K T N h) : Kept K T N (h.calAge j c) := by
  unfold Hub.calAge
  with_reducible repeat' first | assumption | apply calQueue_kept | apply kept_ite

theorem monCalibration_kept (m g low level : Nat) (H : Kept K T N h) : Kept K T N (h.monCalibration m g low level)
    := by
  unfold Hub.monCalibration
  with_reducible repeat' first | assumption | apply wr_kept | apply set1_kept | apply kept_ite

theorem calStrobe_kept (H : Kept K T N h) : Kept K T N h.calStrobe := by
  unfold Hub.calStrobe
  with_reducible repeat'
    first
      | assumption | apply inc_kept | apply kept_ite
      | (apply kept_hub; first | assumption | apply inc_kept | apply kept_ite)

theorem calPulse_kept (H : Kept K T N h) : Kept K T N h.calPulse := by
  unfold Hub.calPulse
  with_reducible repeat' first | assumption | (apply kept_hub; first | assumption)

theorem calPulseSample_kept (H : Kept K T N h) : Kept K T N h.calPulseSample := by
  unfold Hub.calPulseSample
  with_reducible repeat' first | assumption | (apply kept_hub; first | assumption)

/-! ## Machine/ClockOps.lean -/

theorem setDlGood_kept (d : Nat) (b : Bool) (H : Kept K T N h) : Kept K T N (h.setDlGood d b) := by
  unfold Hub.setDlGood
  with_reducible repeat'
    first
      | assumption | apply put_kept | apply kept_ite
      | (apply kept_hub; first | assumption | apply put_kept | apply kept_ite)
      | (apply kept_clk; first | assumption | apply put_kept | apply kept_ite)

theorem refreshFreq_kept (H : Kept K T N h) : Kept K T N h.refreshFreq := by
  unfold Hub.refreshFreq
  with_reducible repeat' first | assumption | apply wr_kept | apply kept_ite

theorem rttRestart_kept (H : Kept K T N h) : Kept K T N h.rttRestart := by
  unfold Hub.rttRestart
  with_reducible repeat'
    first
      | assumption | apply put_kept | apply kept_ite
      | (apply kept_hub; first | assumption | apply put_kept | apply kept_ite)

theorem cancelReturn_kept (H : Kept K T N h) : Kept K T N h.cancelReturn := by
  unfold Hub.cancelReturn
  with_reducible repeat'
    first
      | assumption | (apply kept_hub; first | assumption) | (apply kept_clk; first | assumption)

theorem enterHoldover_kept (H : Kept K T N h) : Kept K T N h.enterHoldover := by
  unfold Hub.enterHoldover
  with_reducible repeat'
    first
      | assumption | apply cancelReturn_kept | apply put_kept | apply wr_kept | apply refreshFreq_kept
      | apply kept_ite
      | (apply kept_hub; first | assumption | apply cancelReturn_kept | apply put_kept | apply wr_kept | apply refreshFreq_kept | apply kept_ite)
      | (apply kept_clk; first | assumption | apply cancelReturn_kept | apply put_kept | apply wr_kept | apply refreshFreq_kept | apply kept_ite)

theorem dlFault_kept (H : Kept K T N h) : Kept K T N h.dlFault := by
  unfold Hub.dlFault
  with_reducible repeat' first | assumption | apply enterHoldover_kept | apply kept_ite

theorem locked_kept (H : Kept K T N h) : Kept K T N h.locked := by
  unfold Hub.locked
  with_reducible repeat'
    first
      | assumption | apply put_kept | apply kept_ite
      | (apply kept_hub; first | assumption | apply put_kept | apply kept_ite)
      | (apply kept_clk; first | assumption | apply put_kept | apply kept_ite)

theorem leaveHoldover_kept (H : Kept K T N h) : Kept K T N h.leaveHoldover := by
  unfold Hub.leaveHoldover
  with_reducible repeat'
    first
      | assumption | apply put_kept | apply cancelReturn_kept | apply locked_kept | apply refreshFreq_kept
      | (apply kept_hub; first | assumption | apply put_kept | apply cancelReturn_kept | apply locked_kept | apply refreshFreq_kept)
      | (apply kept_clk; first | assumption | apply put_kept | apply cancelReturn_kept | apply locked_kept | apply refreshFreq_kept)

theorem slipLock_kept (H : Kept K T N h) : Kept K T N h.slipLock := by
  unfold Hub.slipLock
  with_reducible repeat'
    first
      | assumption | apply set1_kept | apply put_kept | apply leaveHoldover_kept
      | (apply kept_hub; first | assumption | apply set1_kept | apply put_kept | apply leaveHoldover_kept)
      | (apply kept_clk; first | assumption | apply set1_kept | apply put_kept | apply leaveHoldover_kept)

theorem lockBack_kept (H : Kept K T N h) : Kept K T N h.lockBack := by
  unfold Hub.lockBack
  with_reducible repeat' first | assumption | apply slipLock_kept | apply leaveHoldover_kept | apply kept_ite

theorem checkFreeRun_kept (H : Kept K T N h) : Kept K T N h.checkFreeRun := by
  unfold Hub.checkFreeRun
  with_reducible repeat'
    first
      | assumption | apply put_kept | apply kept_ite
      | (apply kept_hub; first | assumption | apply put_kept | apply kept_ite)
      | (apply kept_clk; first | assumption | apply put_kept | apply kept_ite)

theorem selectDl_kept (d : Nat) (H : Kept K T N h) : Kept K T N (h.selectDl d) := by
  unfold Hub.selectDl
  with_reducible repeat' first | assumption | apply put_kept | apply inc_kept | apply rttRestart_kept

theorem switched_kept (H : Kept K T N h) : Kept K T N h.switched := by
  unfold Hub.switched
  with_reducible repeat' first | assumption | apply lockBack_kept | apply kept_ite

theorem downlinkSwitch_kept (H : Kept K T N h) : Kept K T N h.downlinkSwitch := by
  unfold Hub.downlinkSwitch
  with_reducible repeat' first | assumption | apply selectDl_kept | apply switched_kept | apply kept_ite

theorem downlinkRevert_kept (H : Kept K T N h) : Kept K T N h.downlinkRevert := by
  unfold Hub.downlinkRevert
  with_reducible repeat' first | assumption | apply selectDl_kept | apply kept_ite

theorem takePolicy_kept (H : Kept K T N h) : Kept K T N h.takePolicy := by
  unfold Hub.takePolicy
  with_reducible repeat'
    first
      | assumption | (intro x; refine (fun (_ : Kept K T N x) => ?_) ?_; clear_value x) | (intro x)
      | (lift_lets; intro x; refine (fun (_ : Kept K T N x) => ?_) ?_; clear_value x) | (lift_lets; intro x)
      | apply selectDl_kept | apply switched_kept | apply put_kept | apply rttRestart_kept | apply dlFault_kept
      | apply kept_ite
      | (apply kept_hub; first | assumption | apply selectDl_kept | apply switched_kept | apply put_kept | apply rttRestart_kept | apply dlFault_kept | apply kept_ite)
      | (apply kept_clk; first | assumption | apply selectDl_kept | apply switched_kept | apply put_kept | apply rttRestart_kept | apply dlFault_kept | apply kept_ite)
      | split | (clear_value *; split)

theorem holdForce_kept (H : Kept K T N h) : Kept K T N h.holdForce := by
  unfold Hub.holdForce
  with_reducible repeat' first | assumption | apply enterHoldover_kept | apply kept_ite

theorem refreshRef_kept (H : Kept K T N h) : Kept K T N h.refreshRef := by
  unfold Hub.refreshRef
  with_reducible repeat'
    first
      | assumption | apply put_kept | apply kept_ite
      | (apply kept_hub; first | assumption | apply put_kept | apply kept_ite)
      | (apply kept_clk; first | assumption | apply put_kept | apply kept_ite)

theorem relock_kept (H : Kept K T N h) : Kept K T N h.relock := by
  unfold Hub.relock
  with_reducible repeat'
    first
      | assumption | apply enterHoldover_kept | apply put_kept | apply refreshRef_kept
      | (apply kept_hub; first | assumption | apply enterHoldover_kept | apply put_kept | apply refreshRef_kept)
      | (apply kept_clk; first | assumption | apply enterHoldover_kept | apply put_kept | apply refreshRef_kept)

theorem relockDone_kept (H : Kept K T N h) : Kept K T N h.relockDone := by
  unfold Hub.relockDone
  with_reducible repeat'
    first
      | assumption | apply put_kept | apply switched_kept | apply kept_ite
      | (apply kept_hub; first | assumption | apply put_kept | apply switched_kept | apply kept_ite)
      | (apply kept_clk; first | assumption | apply put_kept | apply switched_kept | apply kept_ite)

theorem holdoverExit_kept (err : Int) (H : Kept K T N h) : Kept K T N (h.holdoverExit err) := by
  unfold Hub.holdoverExit
  with_reducible repeat'
    first
      | assumption | (intro x; refine (fun (_ : Kept K T N x) => ?_) ?_; clear_value x) | (intro x)
      | (lift_lets; intro x; refine (fun (_ : Kept K T N x) => ?_) ?_; clear_value x) | (lift_lets; intro x)
      | apply selectDl_kept | apply slipLock_kept | apply kept_ite
      | (apply kept_hub; first | assumption | apply selectDl_kept | apply slipLock_kept | apply kept_ite)
      | (apply kept_clk; first | assumption | apply selectDl_kept | apply slipLock_kept | apply kept_ite) | split
      | (clear_value *; split)

theorem slewDone_kept (H : Kept K T N h) : Kept K T N h.slewDone := by
  unfold Hub.slewDone
  with_reducible repeat' first | assumption | apply leaveHoldover_kept | apply kept_ite

theorem markPhase_kept (H : Kept K T N h) : Kept K T N h.markPhase := by
  unfold Hub.markPhase
  with_reducible repeat'
    first
      | assumption | (apply kept_hub; first | assumption) | (apply kept_clk; first | assumption)

theorem phaseStep_kept (H : Kept K T N h) : Kept K T N h.phaseStep := by
  unfold Hub.phaseStep
  with_reducible repeat'
    first
      | assumption | apply set1_kept | apply markPhase_kept | apply leaveHoldover_kept | apply kept_ite

theorem holdoverLong_kept (H : Kept K T N h) : Kept K T N h.holdoverLong := by
  unfold Hub.holdoverLong
  with_reducible repeat' first | assumption | apply putIf_kept

theorem holdoverQualified_kept (H : Kept K T N h) : Kept K T N h.holdoverQualified := by
  unfold Hub.holdoverQualified
  with_reducible repeat'
    first
      | assumption | apply put_kept | apply kept_ite
      | (apply kept_hub; first | assumption | apply put_kept | apply kept_ite)
      | (apply kept_clk; first | assumption | apply put_kept | apply kept_ite)

theorem ocxoWarmChange_kept (warm : Bool) (H : Kept K T N h) : Kept K T N (h.ocxoWarmChange warm) := by
  unfold Hub.ocxoWarmChange
  with_reducible repeat'
    first
      | assumption | apply refreshRef_kept | (apply kept_hub; first | assumption | apply refreshRef_kept)
      | (apply kept_clk; first | assumption | apply refreshRef_kept)

theorem refFreqCheck_kept (hz : Nat) (H : Kept K T N h) : Kept K T N (h.refFreqCheck hz) := by
  unfold Hub.refFreqCheck
  with_reducible repeat'
    first
      | assumption | apply refreshRef_kept | (apply kept_hub; first | assumption | apply refreshRef_kept)
      | (apply kept_clk; first | assumption | apply refreshRef_kept)

theorem refLost_kept (H : Kept K T N h) : Kept K T N h.refLost := by
  unfold Hub.refLost
  with_reducible repeat'
    first
      | assumption | apply put_kept | apply refreshRef_kept | apply checkFreeRun_kept | apply refreshFreq_kept
      | apply frqNoRef_kept

theorem refReturn_kept (H : Kept K T N h) : Kept K T N h.refReturn := by
  unfold Hub.refReturn
  with_reducible repeat'
    first
      | assumption | apply put_kept | apply refreshRef_kept | apply refreshFreq_kept | apply kept_ite
      | (apply kept_hub; first | assumption | apply put_kept | apply refreshRef_kept | apply refreshFreq_kept | apply kept_ite)
      | (apply kept_clk; first | assumption | apply put_kept | apply refreshRef_kept | apply refreshFreq_kept | apply kept_ite)

theorem bxcMeasured_kept (hz : Nat) (H : Kept K T N h) : Kept K T N (h.bxcMeasured hz) := by
  unfold Hub.bxcMeasured
  with_reducible repeat'
    first
      | assumption | apply put_kept | apply refreshFreq_kept | apply kept_ite
      | (apply kept_hub; first | assumption | apply put_kept | apply refreshFreq_kept | apply kept_ite)
      | (apply kept_clk; first | assumption | apply put_kept | apply refreshFreq_kept | apply kept_ite)

theorem pllLock_kept (hz : Nat) (H : Kept K T N h) : Kept K T N (h.pllLock hz) := by
  have H1 := put_kept CLK_STATUS_BXC_RANGE (b2n (bxcOutside hz)) H
  unfold Hub.pllLock
  dsimp only
  apply kept_ite H1
  split
  · exact H1
  · exact refreshFreq_kept (locked_kept (kept_clk (put_kept _ _ H1)))

theorem localEnter_kept (H : Kept K T N h) : Kept K T N h.localEnter := by
  unfold Hub.localEnter
  with_reducible repeat'
    first
      | assumption | apply put_kept | apply locked_kept | apply refreshRef_kept | apply refreshFreq_kept
      | apply kept_ite
      | (apply kept_hub; first | assumption | apply put_kept | apply locked_kept | apply refreshRef_kept | apply refreshFreq_kept | apply kept_ite)
      | (apply kept_clk; first | assumption | apply put_kept | apply locked_kept | apply refreshRef_kept | apply refreshFreq_kept | apply kept_ite)

theorem localExit_kept (hz : Nat) (H : Kept K T N h) : Kept K T N (h.localExit hz) := by
  unfold Hub.localExit
  with_reducible repeat'
    first
      | assumption | (intro x; refine (fun (_ : Kept K T N x) => ?_) ?_; clear_value x) | (intro x)
      | (lift_lets; intro x; refine (fun (_ : Kept K T N x) => ?_) ?_; clear_value x) | (lift_lets; intro x)
      | apply put_kept | apply slipLock_kept | apply refreshRef_kept | apply enterHoldover_kept | apply kept_ite
      | (apply kept_hub; first | assumption | apply put_kept | apply slipLock_kept | apply refreshRef_kept | apply enterHoldover_kept | apply kept_ite)
      | (apply kept_clk; first | assumption | apply put_kept | apply slipLock_kept | apply refreshRef_kept | apply enterHoldover_kept | apply kept_ite)
      | split | (clear_value *; split)

theorem nextFrame_lt (H : Kept K T N h) : h.nextFrame < 2 ^ 48 := by
  unfold Hub.nextFrame
  split
  · exact Nat.mod_lt _ (by decide)
  · exact H.sound.1

theorem bxSetCount_kept (gzb : Nat) (H : Kept K T N h) : Kept K T N (h.bxSetCount gzb).1 := by
  have b : h.r64 TIME_BX_PRESET / 2 ^ 16 < 2 ^ 48 := by
    have h1 := (SMap.get (resetWord h.fuse) h.regs TIME_BX_PRESET.addr).isLt
    have h2 := (SMap.get (resetWord h.fuse) h.regs (TIME_BX_PRESET.addr + 4)).isLt
    simp only [Hub.r64, Hub.rd]
    omega
  unfold Hub.bxSetCount
  dsimp only
  have H1 := w64_kept TIME_GZB_AT_SET (gzb % 2 ^ 48) (inc_kept TIME_BXSET_COUNT H)
  have H2 : Kept K T N (Hub.put _ TIME_STATUS_BX_VALID 1) :=
    put_kept (h := { (h.inc TIME_BXSET_COUNT).w64 TIME_GZB_AT_SET (gzb % 2 ^ 48) with
      clk := { ((h.inc TIME_BXSET_COUNT).w64 TIME_GZB_AT_SET (gzb % 2 ^ 48)).clk with
        frame := if ((h.inc TIME_BXSET_COUNT).w64 TIME_GZB_AT_SET (gzb % 2 ^ 48)).clk.slot = 1 then
          (h.r64 TIME_BX_PRESET / 2 ^ 16 + 2 ^ 48 - 1) % 2 ^ 48 else h.r64 TIME_BX_PRESET / 2 ^ 16
        slipMark := ((h.inc TIME_BXSET_COUNT).w64 TIME_GZB_AT_SET (gzb % 2 ^ 48)).clk.freeRun } })
      TIME_STATUS_BX_VALID 1
      ⟨⟨by dsimp only; split <;> omega, H1.sound.2.1, H1.sound.2.2⟩, H1.keys, H1.tap, H1.nonces⟩
  split
  · exact H2
  · split
    · exact raiseAt_kept _ _ _ _ (set1_kept _ H2)
    · exact H2

theorem alignCompute_kept (H : Kept K T N h) : Kept K T N h.alignCompute := by
  unfold Hub.alignCompute
  with_reducible repeat' first | assumption | apply putIf_kept | apply wr_kept | apply kept_ite

theorem alignArm_kept (H : Kept K T N h) : Kept K T N h.alignArm := by
  unfold Hub.alignArm
  with_reducible repeat'
    first
      | assumption | apply put_kept | apply set1_kept | apply kept_ite
      | (apply kept_hub; first | assumption | apply put_kept | apply set1_kept | apply kept_ite)
      | (apply kept_clk; first | assumption | apply put_kept | apply set1_kept | apply kept_ite)

theorem alignCancel_kept (H : Kept K T N h) : Kept K T N h.alignCancel := by
  unfold Hub.alignCancel
  with_reducible repeat' first | assumption | apply put_kept

theorem alignApply_kept (H : Kept K T N h) : Kept K T N h.alignApply.1 := by
  have H1 := put_kept TIME_STATUS_ALIGN_ARMED 0 H
  have H2 := set1_kept TIME_STATUS_ALIGN_DONE (wr_kept TIME_ALIGN.addr (h.rd TIME_ALIGN_NEXT.addr) H1)
  unfold Hub.alignApply
  dsimp only
  split
  · split
    · exact set1_kept _ H1
    · exact kept_ite H2 (markPhase_kept H2)
  · exact H

theorem refreshMargin_kept (H : Kept K T N h) : Kept K T N h.refreshMargin := by
  unfold Hub.refreshMargin
  with_reducible repeat' first | assumption | apply put_kept

theorem refreshHeat_kept (H : Kept K T N h) : Kept K T N h.refreshHeat := by
  unfold Hub.refreshHeat
  with_reducible repeat' first | assumption | apply put_kept

theorem heatPower_kept (H : Kept K T N h) : Kept K T N h.heatPower := by
  unfold Hub.heatPower
  with_reducible repeat' first | assumption | apply put_kept | apply refreshHeat_kept | apply kept_ite

theorem warmAssert_kept (H : Kept K T N h) : Kept K T N h.warmAssert := by
  unfold Hub.warmAssert
  with_reducible repeat' first | assumption | apply put_kept | apply wr_kept | apply kept_ite

theorem warmDeassert_kept (H : Kept K T N h) : Kept K T N h.warmDeassert := by
  unfold Hub.warmDeassert
  with_reducible repeat'
    first
      | assumption | apply put_kept | apply set1_kept | apply wr_kept | apply cdCold_kept | apply kept_ite

theorem orgCtrlWrite_kept (en setpoint : Nat) (H : Kept K T N h) : Kept K T N (h.orgCtrlWrite en setpoint) := by
  unfold Hub.orgCtrlWrite
  with_reducible repeat'
    first
      | assumption | apply put_kept | apply set1_kept | apply wr_kept | apply refreshMargin_kept
      | apply warmDeassert_kept | apply refreshHeat_kept | apply kept_ite
      | (apply kept_hub; first | assumption | apply put_kept | apply set1_kept | apply wr_kept | apply refreshMargin_kept | apply warmDeassert_kept | apply refreshHeat_kept | apply kept_ite)
      | (apply kept_clk; first | assumption | apply put_kept | apply set1_kept | apply wr_kept | apply refreshMargin_kept | apply warmDeassert_kept | apply refreshHeat_kept | apply kept_ite)

end Hub

end Sys2Proof.Machine
end

