-- ==== Sys2Proof/Laws/KeptLinks.lean ====
section
/-! SUPPORT. What the operations of the line code, leaves, lanes and the downlink keep: one lemma per operation. -/

namespace Sys2Proof.Machine

namespace Hub

variable {K : SMap (List Nat)} {T : Tap} {N : Nat} {h : Hub}

/-! ## Machine/LineOps.lean -/

theorem setLs_kept (l st : Nat) (H : Kept K T N h) : Kept K T N (h.setLs l st) := by
  unfold Hub.setLs
  with_reducible repeat' first | assumption | apply put_kept

theorem transmit_kept (l : Nat) (syms : List Nat) (H : Kept K T N h) : Kept K T N (h.transmit l syms) := by
  unfold Hub.transmit
  with_reducible repeat'
    first
      | assumption | apply setLane_kept | apply kept_ite
      | (apply kept_hub; first | assumption | apply setLane_kept | apply kept_ite)

theorem receive_kept (l : Nat) (groups : List Nat) (H : Kept K T N h) : Kept K T N (h.receive l groups).2 := by
  unfold Hub.receive
  with_reducible repeat'
    first
      | assumption | apply setLane_kept | (apply kept_hub; first | assumption | apply setLane_kept)

theorem patternFrame_kept (l n : Nat) (H : Kept K T N h) : Kept K T N (h.patternFrame l n).2 := by
  unfold Hub.patternFrame
  with_reducible repeat'
    first
      | assumption | apply setLane_kept | (apply kept_hub; first | assumption | apply setLane_kept)

theorem loopCheck_kept (l k : Nat) (syms : List Nat) (H : Kept K T N h) : Kept K T N (h.loopCheck l k syms) := by
  unfold Hub.loopCheck
  with_reducible repeat'
    first
      | assumption | apply setLane_kept | apply put_kept | apply w64_kept | apply wr_kept
      | (apply kept_hub; first | assumption | apply setLane_kept | apply put_kept | apply w64_kept | apply wr_kept)

theorem loopInside_kept (l n : Nat) (H : Kept K T N h) : Kept K T N (h.loopInside l n) := by
  unfold Hub.loopInside
  with_reducible repeat' first | assumption | apply patternFrame_kept | apply loopCheck_kept

theorem loopOutside_kept (l : Nat) (syms : List Nat) (H : Kept K T N h) : Kept K T N (h.loopOutside l syms) := by
  unfold Hub.loopOutside
  with_reducible repeat' first | assumption | apply loopCheck_kept | apply kept_ite

theorem loopTick_kept (l : Nat) (H : Kept K T N h) : Kept K T N (h.loopTick l) := by
  unfold Hub.loopTick
  with_reducible repeat'
    first
      | assumption | apply loopOutside_kept | apply setLane_kept | apply loopInside_kept | apply kept_ite
      | (apply kept_hub; first | assumption | apply loopOutside_kept | apply setLane_kept | apply loopInside_kept | apply kept_ite)

theorem loopSilent_kept (l : Nat) (H : Kept K T N h) : Kept K T N (h.loopSilent l) := by
  unfold Hub.loopSilent
  with_reducible repeat'
    first
      | assumption | apply setLane_kept | apply put_kept | apply kept_ite
      | (apply kept_hub; first | assumption | apply setLane_kept | apply put_kept | apply kept_ite)

theorem loopClear_kept (l : Nat) (H : Kept K T N h) : Kept K T N (h.loopClear l) := by
  unfold Hub.loopClear
  with_reducible repeat'
    first
      | assumption | apply w64_kept | apply wr_kept | apply put_kept | apply setLane_kept
      | (apply kept_hub; first | assumption | apply w64_kept | apply wr_kept | apply put_kept | apply setLane_kept)

/-! ## Machine/LeafOps.lean -/

theorem sendItem_kept (s : Nat) (words : List Nat) (H : Kept K T N h) : Kept K T N (h.sendItem s words) := by
  unfold Hub.sendItem
  with_reducible repeat'
    first
      | assumption | apply setLeaf_kept | (apply kept_hub; first | assumption | apply setLeaf_kept)

theorem refreshDrift_kept (s : Nat) (H : Kept K T N h) : Kept K T N (h.refreshDrift s) := by
  unfold Hub.refreshDrift
  with_reducible repeat' first | assumption | apply put_kept

theorem recomputeOffset_kept (s : Nat) (H : Kept K T N h) : Kept K T N (h.recomputeOffset s) := by
  unfold Hub.recomputeOffset
  with_reducible repeat' first | assumption | apply put_kept | apply refreshDrift_kept | apply kept_ite

theorem leafSync_kept (s : Nat) (H : Kept K T N h) : Kept K T N (h.leafSync s) := by
  unfold Hub.leafSync
  with_reducible repeat'
    first
      | assumption | apply setLeaf_kept | apply put_kept
      | (apply kept_hub; first | assumption | apply setLeaf_kept | apply put_kept)

theorem leafSyncUp_kept (s : Nat) (H : Kept K T N h) : Kept K T N (h.leafSyncUp s) := by
  unfold Hub.leafSyncUp
  with_reducible repeat' first | assumption | apply leafSync_kept | apply kept_ite

theorem leafSyncWrite_kept (s : Nat) (H : Kept K T N h) : Kept K T N (h.leafSyncWrite s) := by
  unfold Hub.leafSyncWrite
  with_reducible repeat' first | assumption | apply leafSync_kept | apply put_kept | apply kept_ite

theorem leafSyncDone_kept (s : Nat) (H : Kept K T N h) : Kept K T N (h.leafSyncDone s) := by
  unfold Hub.leafSyncDone
  with_reducible repeat' first | assumption | apply put_kept | apply kept_ite

theorem leafSyncAll_kept (H : Kept K T N h) : Kept K T N h.leafSyncAll := by
  unfold Hub.leafSyncAll
  with_reducible repeat'
    first
      | assumption | (refine fun (g : Hub) n (_ : Kept K T N g) => ?_) | apply forAll_kept | apply leafSyncUp_kept

theorem leafReset_kept (s : Nat) (H : Kept K T N h) : Kept K T N (h.leafReset s) := by
  unfold Hub.leafReset
  with_reducible repeat'
    first
      | assumption | apply setLeaf_kept | apply put_kept | apply kept_ite
      | (apply kept_hub; first | assumption | apply setLeaf_kept | apply put_kept | apply kept_ite)

theorem leafCtrlOver_kept (s : Nat) (H : Kept K T N h) : Kept K T N (h.leafCtrlOver s) := by
  unfold Hub.leafCtrlOver
  with_reducible repeat' first | assumption | apply put_kept | apply putIf_kept

theorem spokePattern_kept (s : Nat) (H : Kept K T N h) : Kept K T N (h.spokePattern s).2 := by
  unfold Hub.spokePattern
  dsimp only
  split
  · exact setLane_kept _ _ H
  · exact patternFrame_kept _ _ H

theorem spokeLive_kept (s : Nat) (H : Kept K T N h) : Kept K T N (h.spokeLive s).2 := by
  unfold Hub.spokeLive
  with_reducible repeat'
    first
      | assumption | apply echo_kept | apply setLeaf_kept | apply leafCtrlOver_kept | apply put_kept
      | apply refreshDrift_kept | apply kept_ite
      | (apply kept_hub; first | assumption | apply echo_kept | apply setLeaf_kept | apply leafCtrlOver_kept | apply put_kept | apply refreshDrift_kept | apply kept_ite)

theorem downstreamFrame_kept (s : Nat) (H : Kept K T N h) : Kept K T N (h.downstreamFrame s) := by
  unfold Hub.downstreamFrame
  with_reducible repeat'
    first
      | assumption | (intro x; refine (fun (_ : Kept K T N x) => ?_) ?_; clear_value x) | (intro x)
      | (lift_lets; intro x; refine (fun (_ : Kept K T N x) => ?_) ?_; clear_value x) | (lift_lets; intro x)
      | apply setLane_kept | apply spokePattern_kept | apply spokeLive_kept | apply setLeaf_kept
      | apply transmit_kept | apply kept_ite
      | (apply kept_hub; first | assumption | apply setLane_kept | apply spokePattern_kept | apply spokeLive_kept | apply setLeaf_kept | apply transmit_kept | apply kept_ite)
      | split | (clear_value *; split)

theorem leafForward_kept (cal rec_ : Bool) (H : Kept K T N h) : Kept K T N (h.leafForward cal rec_) := by
  unfold Hub.leafForward
  with_reducible repeat'
    first
      | assumption | (refine fun (g : Hub) n (_ : Kept K T N g) => ?_) | apply forAll_kept | apply setLeaf_kept
      | apply kept_ite
      | (apply kept_hub; first | assumption | apply forAll_kept | apply setLeaf_kept | apply kept_ite)

theorem sendLeaf_kept (s : Nat) (r : LeafReq) (H : Kept K T N h) : Kept K T N (h.sendLeaf s r) := by
  unfold Hub.sendLeaf
  with_reducible repeat'
    first
      | assumption | apply setLeaf_kept | apply put_kept | apply sendItem_kept
      | (apply kept_hub; first | assumption | apply setLeaf_kept | apply put_kept | apply sendItem_kept)

theorem pumpLeaves_kept (n : Nat) (H : Kept K T N h) : Kept K T N (Hub.pumpLeaves n h) := by
  induction n generalizing h with
  | zero => exact H
  | succ n ih =>
    unfold Hub.pumpLeaves
    dsimp only
    split
    · exact H
    · split
      · exact ih (sendLeaf_kept _ _ (qReleaseHeld_kept _ (setQueue_kept _ _ H)))
      · exact H

theorem pumpLeaf_kept (H : Kept K T N h) : Kept K T N h.pumpLeaf := pumpLeaves_kept _ H

theorem askLeaf_kept (s : Nat) (r : LeafReq) (H : Kept K T N h) : Kept K T N (h.askLeaf s r) := by
  unfold Hub.askLeaf
  with_reducible repeat'
    first
      | assumption | apply setLeaf_kept | apply qCross_kept | apply sendLeaf_kept | apply qOffer_kept
      | apply kept_ite
      | (apply kept_hub; first | assumption | apply setLeaf_kept | apply qCross_kept | apply sendLeaf_kept | apply qOffer_kept | apply kept_ite)

theorem bcastCheck_kept (H : Kept K T N h) : Kept K T N h.bcastCheck := by
  unfold Hub.bcastCheck
  with_reducible repeat' first | assumption | apply put_kept | apply kept_ite

theorem bcastOutcome_kept (s : Nat) (done : Option Nat) (H : Kept K T N h) : Kept K T N (h.bcastOutcome s done) :=
    by
  unfold Hub.bcastOutcome
  with_reducible repeat'
    first
      | assumption | (intro x; refine (fun (_ : Kept K T N x) => ?_) ?_; clear_value x) | (intro x)
      | (lift_lets; intro x; refine (fun (_ : Kept K T N x) => ?_) ?_; clear_value x) | (lift_lets; intro x)
      | apply put_kept | apply wr_kept | (apply kept_hub; first | assumption | apply put_kept | apply wr_kept)
      | split | (clear_value *; split)

theorem endRequest_kept (s : Nat) (r : LeafReq) (reply : Option (Nat × List Nat)) (H : Kept K T N h) : Kept K T N
    (h.endRequest s r reply) := by
  unfold Hub.endRequest
  with_reducible repeat'
    first
      | assumption | (intro x; refine (fun (_ : Kept K T N x) => ?_) ?_; clear_value x) | (intro x)
      | (lift_lets; intro x; refine (fun (_ : Kept K T N x) => ?_) ?_; clear_value x) | (lift_lets; intro x)
      | apply bcastOutcome_kept | apply bcastCheck_kept | apply askLeaf_kept | apply resolve_kept | apply kept_ite
      | (apply kept_hub; first | assumption | apply bcastOutcome_kept | apply bcastCheck_kept | apply askLeaf_kept | apply resolve_kept | apply kept_ite)
      | split | (clear_value *; split)

theorem popRequest_kept (s : Nat) (H : Kept K T N h) : Kept K T N (h.popRequest s) := by
  unfold Hub.popRequest
  with_reducible repeat'
    first
      | assumption | (intro x; refine (fun (_ : Kept K T N x) => ?_) ?_; clear_value x) | (intro x)
      | (lift_lets; intro x; refine (fun (_ : Kept K T N x) => ?_) ?_; clear_value x) | (lift_lets; intro x)
      | apply setLeaf_kept | apply put_kept | apply pumpLeaf_kept
      | (apply kept_hub; first | assumption | apply setLeaf_kept | apply put_kept | apply pumpLeaf_kept)

theorem leafReply_kept (s tag status : Nat) (data : List Nat) (H : Kept K T N h) : Kept K T N (h.leafReply s tag
    status data) := by
  unfold Hub.leafReply
  with_reducible repeat'
    first
      | assumption | apply popRequest_kept | apply endRequest_kept | apply kept_ite
      | (apply kept_hub; first | assumption | apply popRequest_kept | apply endRequest_kept | apply kept_ite)
      | split | (clear_value *; split)

theorem leafTimeout_kept (s : Nat) (H : Kept K T N h) : Kept K T N (h.leafTimeout s) := by
  unfold Hub.leafTimeout
  with_reducible repeat'
    first
      | assumption | apply popRequest_kept | apply endRequest_kept | apply set1_kept
      | (apply kept_hub; first | assumption | apply popRequest_kept | apply endRequest_kept | apply set1_kept)
      | split | (clear_value *; split)

theorem voidRequests_kept (s : Nat) (l : List LeafReq) (H : Kept K T N h) : Kept K T N (h.voidRequests s l) := by
  induction l generalizing h with
  | nil => exact H
  | cons r t ih => exact ih (endRequest_kept _ _ _ H)

theorem leafAccess_kept (who : LeafFor) (access : Nat) (write fix : Bool) (regs : List (Nat × Nat)) (data : List
    Nat) (H : Kept K T N h) : Kept K T N (h.leafAccess who access write fix regs data) := by
  unfold Hub.leafAccess
  with_reducible repeat'
    first
      | assumption | (refine fun (g : Hub) n (_ : Kept K T N g) => ?_) | apply resolve_kept | apply askLeaf_kept
      | apply kept_foldl

theorem leafModify_kept (access addr mask value : Nat) (H : Kept K T N h) : Kept K T N (h.leafModify access addr
    mask value) := by
  unfold Hub.leafModify
  with_reducible repeat' first | assumption | apply askLeaf_kept | apply resolve_kept | apply kept_ite

theorem bcastGo_kept (H : Kept K T N h) : Kept K T N h.bcastGo := by
  unfold Hub.bcastGo
  with_reducible repeat'
    first
      | assumption | (refine fun (g : Hub) n (_ : Kept K T N g) => ?_) | apply put_kept | apply wr_kept
      | apply forAll_kept | apply askLeaf_kept | apply bcastOutcome_kept | apply bcastCheck_kept | apply kept_ite

theorem itemLost_kept (i : QItem) (H : Kept K T N h) : Kept K T N (h.itemLost i) := by
  unfold Hub.itemLost
  with_reducible repeat'
    first
      | assumption | apply wr_kept | apply portSettle_kept | apply endRequest_kept | apply set1_kept
      | apply kept_ite
      | (apply kept_hub; first | assumption | apply wr_kept | apply portSettle_kept | apply endRequest_kept | apply set1_kept | apply kept_ite)
      | split | (clear_value *; split)

theorem flushQueue_kept (q : Nat) (H : Kept K T N h) : Kept K T N (h.flushQueue q) := by
  unfold Hub.flushQueue
  with_reducible repeat'
    first
      | assumption | (refine fun (g : Hub) n (_ : Kept K T N g) => ?_) | apply mark_kept | apply itemLost_kept
      | apply qFlush_kept | apply kept_ite | apply kept_foldl

theorem dropWaiting_kept (s : Nat) (H : Kept K T N h) : Kept K T N (h.dropWaiting s) := by
  unfold Hub.dropWaiting
  with_reducible repeat'
    first
      | assumption | apply setQueue_kept | apply put_kept | apply qReleaseHeld_kept | apply kept_ite
      | (apply kept_hub; first | assumption | apply setQueue_kept | apply put_kept | apply qReleaseHeld_kept | apply kept_ite)

theorem leafAbsent_kept (s : Nat) (H : Kept K T N h) : Kept K T N (h.leafAbsent s) := by
  unfold Hub.leafAbsent
  with_reducible repeat'
    first
      | assumption | (intro x; refine (fun (_ : Kept K T N x) => ?_) ?_; clear_value x) | (intro x)
      | (lift_lets; intro x; refine (fun (_ : Kept K T N x) => ?_) ?_; clear_value x) | (lift_lets; intro x)
      | apply dropWaiting_kept | apply setLeaf_kept | apply put_kept | apply leafCtrlOver_kept | apply wr_kept
      | apply voidRequests_kept | apply pumpLeaf_kept | apply raise_kept | apply kept_ite
      | (apply kept_hub; first | assumption | apply dropWaiting_kept | apply setLeaf_kept | apply put_kept | apply leafCtrlOver_kept | apply wr_kept | apply voidRequests_kept | apply pumpLeaf_kept | apply raise_kept | apply kept_ite)

theorem leafPresentNow_kept (s : Nat) (H : Kept K T N h) : Kept K T N (h.leafPresentNow s) := by
  unfold Hub.leafPresentNow
  with_reducible repeat'
    first
      | assumption | apply put_kept | apply refreshDrift_kept | apply setLeaf_kept | apply raise_kept
      | apply kept_ite
      | (apply kept_hub; first | assumption | apply put_kept | apply refreshDrift_kept | apply setLeaf_kept | apply raise_kept | apply kept_ite)

theorem leafUp_kept (s : Nat) (H : Kept K T N h) : Kept K T N (h.leafUp s) := by
  unfold Hub.leafUp
  with_reducible repeat'
    first
      | assumption | apply setLeaf_kept | apply wr_kept | apply leafSync_kept
      | (apply kept_hub; first | assumption | apply setLeaf_kept | apply wr_kept | apply leafSync_kept)

theorem leafFault_kept (s : Nat) (H : Kept K T N h) : Kept K T N (h.leafFault s) := by
  unfold Hub.leafFault
  with_reducible repeat'
    first
      | assumption | apply setLeaf_kept | (apply kept_hub; first | assumption | apply setLeaf_kept)

theorem leafItemDiscard_kept (s : Nat) (H : Kept K T N h) : Kept K T N (h.leafItemDiscard s) := by
  unfold Hub.leafItemDiscard
  with_reducible repeat' first | assumption | apply inc_kept | apply leafFault_kept

theorem recordDrop_kept (s why : Nat) (H : Kept K T N h) : Kept K T N (h.recordDrop s why) := by
  unfold Hub.recordDrop
  with_reducible repeat' first | assumption | apply inc_kept | apply put_kept | apply leafFault_kept

theorem leafAlarm_kept (s word : Nat) (H : Kept K T N h) : Kept K T N (h.leafAlarm s word) := by
  unfold Hub.leafAlarm
  with_reducible repeat' first | assumption | apply wr_kept | apply raise_kept | apply kept_ite

theorem stream4_kept (s : Nat) (words : List Nat) (H : Kept K T N h) : Kept K T N (h.stream4 s words) := by
  unfold Hub.stream4
  with_reducible repeat'
    first
      | assumption | (intro x; refine (fun (_ : Kept K T N x) => ?_) ?_; clear_value x) | (intro x)
      | (lift_lets; intro x; refine (fun (_ : Kept K T N x) => ?_) ?_; clear_value x) | (lift_lets; intro x)
      | apply inc_kept | apply setLeaf_kept | apply setTx_kept | apply send_kept | apply kept_ite
      | (apply kept_hub; first | assumption | apply inc_kept | apply setLeaf_kept | apply setTx_kept | apply send_kept | apply kept_ite)
      | split | (clear_value *; split)

theorem copyToSlots_kept (s ts : Nat) (words : List Nat) (H : Kept K T N h) :
    Kept K T N (h.copyToSlots s ts words).1 := by
  unfold Hub.copyToSlots
  generalize List.range 128 = l
  suffices ∀ p : Hub × Bool, Kept K T N p.1 → Kept K T N (l.foldl _ p).1 from this _ H
  induction l with
  | nil => exact fun p hp => hp
  | cons k t ih =>
    intro p hp
    apply ih
    dsimp only
    split
    · exact hp
    · split
      · exact setSlot_kept _ _ hp
      · exact hp

theorem leafCopyNew_kept (H : Kept K T N h) : Kept K T N h.leafCopyNew := by
  unfold Hub.leafCopyNew
  with_reducible repeat'
    first
      | assumption | (refine fun (g : Hub) n (_ : Kept K T N g) => ?_)
      | (intro x; refine (fun (_ : Kept K T N x) => ?_) ?_; clear_value x) | (intro x)
      | (lift_lets; intro x; refine (fun (_ : Kept K T N x) => ?_) ?_; clear_value x) | (lift_lets; intro x)
      | apply forAll_kept | apply setSlot_kept | apply setLeaf_kept | apply kept_ite
      | (apply kept_hub; first | assumption | apply forAll_kept | apply setSlot_kept | apply setLeaf_kept | apply kept_ite)
      | split | (clear_value *; split)

theorem leafRecord_kept (s hdr : Nat) (hits : List Nat) (n : Nat) (H : Kept K T N h) : Kept K T N (h.leafRecord s
    hdr hits n) := by
  unfold Hub.leafRecord
  with_reducible repeat'
    first
      | assumption | apply recordDrop_kept | apply inc_kept | apply copyToSlots_kept | apply stream4_kept
      | apply setLeaf_kept | apply kept_ite
      | (apply kept_hub; first | assumption | apply recordDrop_kept | apply inc_kept | apply copyToSlots_kept | apply stream4_kept | apply setLeaf_kept | apply kept_ite)

theorem leafHoldExpire_kept (s : Nat) (H : Kept K T N h) : Kept K T N (h.leafHoldExpire s) := by
  unfold Hub.leafHoldExpire
  with_reducible repeat'
    first
      | assumption | (refine fun (g : Hub) n (_ : Kept K T N g) => ?_) | apply setLeaf_kept | apply stream4_kept
      | apply kept_ite | apply kept_foldl
      | (apply kept_hub; first | assumption | apply setLeaf_kept | apply stream4_kept | apply kept_ite | apply kept_foldl)

theorem leafFragment_kept (k s : Nat) (H : Kept K T N h) : Kept K T N (h.leafFragment k s) := by
  unfold Hub.leafFragment
  with_reducible repeat'
    first
      | assumption | (intro x; refine (fun (_ : Kept K T N x) => ?_) ?_; clear_value x) | (intro x)
      | (lift_lets; intro x; refine (fun (_ : Kept K T N x) => ?_) ?_; clear_value x) | (lift_lets; intro x)
      | apply setSlot_kept | apply setLeaf_kept | apply sendEvent_kept | apply kept_ite
      | (apply kept_hub; first | assumption | apply setSlot_kept | apply setLeaf_kept | apply sendEvent_kept | apply kept_ite)
      | split | (clear_value *; split)

theorem leafIsolation_kept (H : Kept K T N h) : Kept K T N h.leafIsolation := by
  unfold Hub.leafIsolation
  with_reducible repeat'
    first
      | assumption | (refine fun (g : Hub) n (_ : Kept K T N g) => ?_) | apply forAll_kept | apply setLeaf_kept
      | apply put_kept | apply leafAbsent_kept | apply set1_kept | apply raise_kept | apply kept_ite
      | (apply kept_hub; first | assumption | apply forAll_kept | apply setLeaf_kept | apply put_kept | apply leafAbsent_kept | apply set1_kept | apply raise_kept | apply kept_ite)

/-! ## Machine/LaneOps.lean -/

theorem refreshUls_kept (H : Kept K T N h) : Kept K T N h.refreshUls := by
  unfold Hub.refreshUls
  with_reducible repeat'
    first
      | assumption | (refine fun (g : Hub) n (_ : Kept K T N g) => ?_) | apply forAll_kept | apply put_kept

theorem trainFail_kept (l cause : Nat) (H : Kept K T N h) : Kept K T N (h.trainFail l cause) := by
  unfold Hub.trainFail
  with_reducible repeat' first | assumption | apply setLs_kept | apply put_kept | apply incSat_kept

theorem startTrain_kept (l : Nat) (H : Kept K T N h) : Kept K T N (h.startTrain l) := by
  unfold Hub.startTrain
  with_reducible repeat'
    first
      | assumption | apply setLs_kept | apply setLane_kept | apply put_kept | apply trainFail_kept | apply kept_ite
      | (apply kept_hub; first | assumption | apply setLs_kept | apply setLane_kept | apply put_kept | apply trainFail_kept | apply kept_ite)

theorem replayLoss_kept (l n : Nat) (H : Kept K T N h) : Kept K T N (h.replayLoss l n) := by
  unfold Hub.replayLoss
  with_reducible repeat' first | assumption | apply wr_kept | apply set1_kept | apply raise_kept | apply kept_ite

theorem ulDown_kept (l : Nat) (H : Kept K T N h) : Kept K T N (h.ulDown l) := by
  unfold Hub.ulDown
  with_reducible repeat'
    first
      | assumption | apply setUl_kept | (apply kept_hub; first | assumption | apply setUl_kept)

theorem ulForget_kept (l : Nat) (H : Kept K T N h) : Kept K T N (h.ulForget l) := by
  unfold Hub.ulForget
  with_reducible repeat'
    first
      | assumption | apply setUl_kept | apply kept_ite
      | (apply kept_hub; first | assumption | apply setUl_kept | apply kept_ite)

theorem leftUp_kept (l : Nat) (H : Kept K T N h) : Kept K T N (h.leftUp l) := by
  unfold Hub.leftUp
  with_reducible repeat'
    first
      | assumption | apply ulDown_kept | apply setDlGood_kept | apply dlFault_kept | apply checkFreeRun_kept
      | apply leafAbsent_kept | apply kept_ite

theorem ulLoss_kept (l : Nat) (H : Kept K T N h) : Kept K T N (h.ulLoss l) := by
  unfold Hub.ulLoss
  with_reducible repeat'
    first
      | assumption | apply setUl_kept | apply kept_ite
      | (apply kept_hub; first | assumption | apply setUl_kept | apply kept_ite)

theorem laneLoss_kept (l cause : Nat) (H : Kept K T N h) : Kept K T N (h.laneLoss l cause) := by
  unfold Hub.laneLoss
  with_reducible repeat'
    first
      | assumption | apply ulLoss_kept | apply setLs_kept | apply put_kept | apply leftUp_kept
      | apply startTrain_kept | apply refreshUls_kept

theorem startReplay_kept (l : Nat) (r : OwedRun) (H : Kept K T N h) : Kept K T N (h.startReplay l r) := by
  unfold Hub.startReplay
  with_reducible repeat'
    first
      | assumption | apply setUl_kept | apply wr_kept | apply replayLoss_kept | apply kept_ite
      | (apply kept_hub; first | assumption | apply setUl_kept | apply wr_kept | apply replayLoss_kept | apply kept_ite)

theorem startOwed_kept (l : Nat) (rs : List OwedRun) (H : Kept K T N h) : Kept K T N (h.startOwed l rs) := by
  induction rs generalizing h with
  | nil => exact setUl_kept _ _ H
  | cons r t ih =>
    unfold Hub.startOwed
    exact kept_ite (ih (replayLoss_kept _ _ H)) (startReplay_kept _ _ (setUl_kept _ _ H))

theorem nextReplay_kept (l : Nat) (H : Kept K T N h) : Kept K T N (h.nextReplay l) := by
  unfold Hub.nextReplay
  exact kept_ite H (startOwed_kept _ _ H)

theorem laneUp_kept (l : Nat) (H : Kept K T N h) : Kept K T N (h.laneUp l) := by
  unfold Hub.laneUp
  with_reducible repeat'
    first
      | assumption | apply setLs_kept | apply put_kept | apply setUl_kept | apply nextReplay_kept | apply wr_kept
      | apply set1_kept | apply rttRestart_kept | apply leafUp_kept | apply refreshUls_kept | apply kept_ite
      | (apply kept_hub; first | assumption | apply setLs_kept | apply put_kept | apply setUl_kept | apply nextReplay_kept | apply wr_kept | apply set1_kept | apply rttRestart_kept | apply leafUp_kept | apply refreshUls_kept | apply kept_ite)

theorem identDone_kept (l : Nat) (H : Kept K T N h) : Kept K T N (h.identDone l) := by
  unfold Hub.identDone
  with_reducible repeat' first | assumption | apply laneUp_kept | apply kept_ite

theorem backoffEnd_kept (l : Nat) (H : Kept K T N h) : Kept K T N (h.backoffEnd l) := by
  unfold Hub.backoffEnd
  with_reducible repeat' first | assumption | apply startTrain_kept | apply refreshUls_kept | apply kept_ite

theorem signalRise_kept (l : Nat) (H : Kept K T N h) : Kept K T N (h.signalRise l) := by
  unfold Hub.signalRise
  with_reducible repeat'
    first
      | assumption | apply setLane_kept | apply startTrain_kept | apply kept_ite
      | (apply kept_hub; first | assumption | apply setLane_kept | apply startTrain_kept | apply kept_ite)

theorem trainStep_kept (l from_ : Nat) (H : Kept K T N h) : Kept K T N (h.trainStep l from_) := by
  unfold Hub.trainStep
  with_reducible repeat' first | assumption | apply setLs_kept | apply kept_ite

theorem hubIdent_kept (s : Nat) (H : Kept K T N h) : Kept K T N (h.hubIdent s) := by
  unfold Hub.hubIdent
  with_reducible repeat' first | assumption | apply sendItem_kept

theorem eqDone_kept (l : Nat) (eyes : List Nat) (H : Kept K T N h) : Kept K T N (h.eqDone l eyes) := by
  unfold Hub.eqDone
  with_reducible repeat'
    first
      | assumption | apply put_kept | apply setLs_kept | apply hubIdent_kept | apply kept_ite
      | (apply kept_hub; first | assumption | apply put_kept | apply setLs_kept | apply hubIdent_kept | apply kept_ite)

theorem hubIdentResend_kept (s : Nat) (H : Kept K T N h) : Kept K T N (h.hubIdentResend s) := by
  unfold Hub.hubIdentResend
  with_reducible repeat' first | assumption | apply hubIdent_kept | apply kept_ite

theorem trainTimeout_kept (l : Nat) (H : Kept K T N h) : Kept K T N (h.trainTimeout l) := by
  unfold Hub.trainTimeout
  with_reducible repeat' first | assumption | apply trainFail_kept | apply kept_ite

theorem signalLoss_kept (l : Nat) (los : Bool) (H : Kept K T N h) : Kept K T N (h.signalLoss l los) := by
  unfold Hub.signalLoss
  with_reducible repeat'
    first
      | assumption | apply setLane_kept | apply laneLoss_kept | apply trainFail_kept | apply loopSilent_kept
      | apply kept_ite
      | (apply kept_hub; first | assumption | apply setLane_kept | apply laneLoss_kept | apply trainFail_kept | apply loopSilent_kept | apply kept_ite)

theorem frameLockLoss_kept (l : Nat) (H : Kept K T N h) : Kept K T N (h.frameLockLoss l) := by
  unfold Hub.frameLockLoss
  with_reducible repeat' first | assumption | apply laneLoss_kept | apply kept_ite

theorem eyeUpdate_kept (l eye : Nat) (H : Kept K T N h) : Kept K T N (h.eyeUpdate l eye) := by
  unfold Hub.eyeUpdate
  with_reducible repeat' first | assumption | apply put_kept | apply kept_ite

theorem laneEnable_kept (l : Nat) (H : Kept K T N h) : Kept K T N (h.laneEnable l) := by
  unfold Hub.laneEnable
  with_reducible repeat'
    first
      | assumption | apply put_kept | apply setUl_kept | apply setLs_kept | apply startTrain_kept
      | apply refreshUls_kept | apply kept_ite
      | (apply kept_hub; first | assumption | apply put_kept | apply setUl_kept | apply setLs_kept | apply startTrain_kept | apply refreshUls_kept | apply kept_ite)

theorem plannedMove_kept (l : Nat) (off : Bool) (H : Kept K T N h) : Kept K T N (h.plannedMove l off) := by
  unfold Hub.plannedMove
  with_reducible repeat'
    first
      | assumption | apply setUl_kept | apply put_kept | apply refreshUls_kept | apply kept_ite
      | (apply kept_hub; first | assumption | apply setUl_kept | apply put_kept | apply refreshUls_kept | apply kept_ite)

theorem laneOff_kept (l : Nat) (H : Kept K T N h) : Kept K T N (h.laneOff l) := by
  unfold Hub.laneOff
  with_reducible repeat'
    first
      | assumption | apply setLs_kept | apply leftUp_kept | apply ulForget_kept | apply refreshUls_kept
      | apply kept_ite

theorem plannedMoveDone_kept (l : Nat) (H : Kept K T N h) : Kept K T N (h.plannedMoveDone l) := by
  unfold Hub.plannedMoveDone
  with_reducible repeat'
    first
      | assumption | apply setUl_kept | apply laneOff_kept | apply refreshUls_kept | apply kept_ite
      | (apply kept_hub; first | assumption | apply setUl_kept | apply laneOff_kept | apply refreshUls_kept | apply kept_ite)

theorem laneDisable_kept (l : Nat) (H : Kept K T N h) : Kept K T N (h.laneDisable l) := by
  unfold Hub.laneDisable
  with_reducible repeat'
    first
      | assumption | apply set1_kept | apply put_kept | apply plannedMove_kept | apply laneOff_kept | apply kept_ite

theorem laneRetrain_kept (l : Nat) (H : Kept K T N h) : Kept K T N (h.laneRetrain l) := by
  unfold Hub.laneRetrain
  with_reducible repeat'
    first
      | assumption | apply put_kept | apply rttRestart_kept | apply laneLoss_kept | apply startTrain_kept
      | apply refreshUls_kept | apply kept_ite

theorem farEnter_kept (s : Nat) (H : Kept K T N h) : Kept K T N (h.farEnter s) := by
  unfold Hub.farEnter
  with_reducible repeat'
    first
      | assumption | apply setLane_kept | apply sendItem_kept | apply kept_ite
      | (apply kept_hub; first | assumption | apply setLane_kept | apply sendItem_kept | apply kept_ite)

theorem farExit_kept (s : Nat) (H : Kept K T N h) : Kept K T N (h.farExit s) := by
  unfold Hub.farExit
  with_reducible repeat'
    first
      | assumption | apply setLeaf_kept | (apply kept_hub; first | assumption | apply setLeaf_kept)

theorem loopEnter_kept (l : Nat) (was mode : Nat) (H : Kept K T N h) : Kept K T N (h.loopEnter l was mode) := by
  unfold Hub.loopEnter
  with_reducible repeat'
    first
      | assumption | apply setLs_kept | apply leftUp_kept | apply ulForget_kept | apply farEnter_kept
      | apply farExit_kept | apply refreshUls_kept | apply kept_ite

theorem laneLoop_kept (l mode : Nat) (H : Kept K T N h) : Kept K T N (h.laneLoop l mode) := by
  unfold Hub.laneLoop
  with_reducible repeat'
    first
      | assumption | apply set1_kept | apply put_kept | apply loopClear_kept | apply loopEnter_kept
      | apply farExit_kept | apply setLs_kept | apply startTrain_kept | apply refreshUls_kept | apply kept_ite

theorem ulTxFault_kept (l : Nat) (H : Kept K T N h) : Kept K T N (h.ulTxFault l) := by
  unfold Hub.ulTxFault
  with_reducible repeat'
    first
      | assumption | apply laneLoss_kept | apply trainFail_kept | apply refreshUls_kept | apply kept_ite

theorem ulLost_kept (l cause : Nat) (H : Kept K T N h) : Kept K T N (h.ulLost l cause) := by
  unfold Hub.ulLost
  with_reducible repeat' first | assumption | apply laneLoss_kept | apply kept_ite

theorem spareTakeover_kept (l : Nat) (H : Kept K T N h) : Kept K T N (h.spareTakeover l) := by
  unfold Hub.spareTakeover
  with_reducible repeat'
    first
      | assumption | (refine fun (g : Hub) n (_ : Kept K T N g) => ?_) | apply setUl_kept | apply forAll_kept
      | apply setTx_kept | apply startReplay_kept | apply nextReplay_kept | apply inc_kept | apply w64_kept
      | apply refreshUls_kept | apply raise_kept | apply kept_ite
      | (apply kept_hub; first | assumption | apply setUl_kept | apply forAll_kept | apply setTx_kept | apply startReplay_kept | apply nextReplay_kept | apply inc_kept | apply w64_kept | apply refreshUls_kept | apply raise_kept | apply kept_ite)

theorem spareWrite_kept (l : Nat) (H : Kept K T N h) : Kept K T N (h.spareWrite l) := by
  unfold Hub.spareWrite
  with_reducible repeat'
    first
      | assumption | apply put_kept | apply refreshUls_kept | apply plannedMove_kept | apply plannedMoveDone_kept
      | apply kept_ite

theorem spareEnable_kept (en : Bool) (H : Kept K T N h) : Kept K T N (h.spareEnable en) := by
  unfold Hub.spareEnable
  with_reducible repeat'
    first
      | assumption | apply put_kept | apply setUl_kept | apply refreshUls_kept | apply kept_ite
      | (apply kept_hub; first | assumption | apply put_kept | apply setUl_kept | apply refreshUls_kept | apply kept_ite)

theorem uplinksDown_kept (H : Kept K T N h) : Kept K T N h.uplinksDown := by
  unfold Hub.uplinksDown
  with_reducible repeat'
    first
      | assumption | (refine fun (g : Hub) n (_ : Kept K T N g) => ?_) | apply forAll_kept | apply setLs_kept
      | apply put_kept | apply ulDown_kept | apply refreshUls_kept | apply kept_ite

theorem lanePllLoss_kept (H : Kept K T N h) : Kept K T N h.lanePllLoss := by
  unfold Hub.lanePllLoss
  with_reducible repeat' first | assumption | apply put_kept | apply uplinksDown_kept

theorem lanePllLock_kept (H : Kept K T N h) : Kept K T N h.lanePllLock := by
  unfold Hub.lanePllLock
  with_reducible repeat'
    first
      | assumption | (refine fun (g : Hub) n (_ : Kept K T N g) => ?_) | apply put_kept | apply forAll_kept
      | apply startTrain_kept | apply refreshUls_kept | apply kept_ite

theorem ulRelock_kept (H : Kept K T N h) : Kept K T N h.ulRelock := by
  unfold Hub.ulRelock
  with_reducible repeat'
    first
      | assumption | apply set1_kept | apply put_kept | apply lanePllLoss_kept | apply kept_ite
      | (apply kept_hub; first | assumption | apply set1_kept | apply put_kept | apply lanePllLoss_kept | apply kept_ite)

theorem refLostAll_kept (H : Kept K T N h) : Kept K T N h.refLostAll := by
  unfold Hub.refLostAll
  with_reducible repeat' first | assumption | apply refLost_kept | apply lanePllLoss_kept

theorem ulIdentAck_kept (l : Nat) (H : Kept K T N h) : Kept K T N (h.ulIdentAck l) := by
  unfold Hub.ulIdentAck
  with_reducible repeat'
    first
      | assumption | apply laneUp_kept | apply trainFail_kept | apply kept_ite
      | (apply kept_hub; first | assumption | apply laneUp_kept | apply trainFail_kept | apply kept_ite) | split
      | (clear_value *; split)

theorem hostIdent_kept (d id sentOn : Nat) (H : Kept K T N h) : Kept K T N (h.hostIdent d id sentOn) := by
  unfold Hub.hostIdent
  with_reducible repeat'
    first
      | assumption | apply wr_kept | apply laneUp_kept | apply trainFail_kept | apply kept_ite

theorem leafIdent_kept (s : Nat) (w : List Nat) (H : Kept K T N h) : Kept K T N (h.leafIdent s w) := by
  unfold Hub.leafIdent
  with_reducible repeat'
    first
      | assumption | apply trainFail_kept | apply set1_kept | apply wr_kept | apply laneUp_kept | apply kept_ite

/-! ## Machine/LomOps.lean -/

theorem dlRequest_kept (mode tag : Nat) (act : Hub → Hub) (Hact : ∀ g, Kept K T N g → Kept K T N (act g)) (H : Kept
    K T N h) : Kept K T N (h.dlRequest mode tag act) := by
  unfold Hub.dlRequest
  with_reducible repeat'
    first
      | assumption | apply Hact | apply replyFull_kept | apply act_kept | apply wr_kept | apply kept_ite

theorem replyMalformed_kept (mode tag : Nat) (H : Kept K T N h) : Kept K T N (h.replyMalformed mode tag) := by
  unfold Hub.replyMalformed
  with_reducible repeat' first | assumption | apply pushReply_kept

theorem ctlLost_kept (H : Kept K T N h) : Kept K T N h.ctlLost := by
  unfold Hub.ctlLost
  with_reducible repeat'
    first
      | assumption | apply ctlDiscard_kept | apply kept_ite
      | (apply kept_hub; first | assumption | apply ctlDiscard_kept | apply kept_ite)

theorem fcIgnored_kept (H : Kept K T N h) : Kept K T N h.fcIgnored := by
  unfold Hub.fcIgnored
  with_reducible repeat' first | assumption | apply inc_kept | apply set1_kept

theorem fcGate_kept (en : RF) (act : Hub → Hub) (Hact : ∀ g, Kept K T N g → Kept K T N (act g)) (H : Kept K T N h) :
    Kept K T N (h.fcGate en act) := by
  unfold Hub.fcGate
  with_reducible repeat' first | assumption | apply Hact | apply act_kept | apply fcIgnored_kept | apply kept_ite

theorem fcLost_kept (H : Kept K T N h) : Kept K T N h.fcLost := by
  unfold Hub.fcLost
  with_reducible repeat'
    first
      | assumption | apply inc_kept | apply set1_kept | apply raise_kept | apply ctlLost_kept

theorem dlRecord_kept (d : Nat) (f : Option (List Nat × Nat)) (H : Kept K T N h) : Kept K T N (h.dlRecord d f) := by
  unfold Hub.dlRecord
  dsimp only
  split
  · exact kept_ite (loopOutside_kept _ _ H) (setDlGood_kept _ _ H)
  · rename_i syms errs
    have H1 : Kept K T N (if dlFrameGood syms errs = true then h else h.inc (DL_FRAME_BAD d)) :=
      kept_ite H (inc_kept _ H)
    refine kept_ite (loopOutside_kept _ _ H) (kept_ite H (kept_ite H1 (setDlGood_kept _ _ ?_)))
    by_cases e : d = 0
    · simp only [if_pos e]; exact kept_clk (add_kept _ _ H1)
    · simp only [if_neg e]; exact kept_clk (add_kept _ _ H1)

theorem hrstArm_kept (H : Kept K T N h) : Kept K T N h.hrstArm := by
  unfold Hub.hrstArm
  with_reducible repeat' first | assumption | apply put_kept

theorem hrstExpire_kept (H : Kept K T N h) : Kept K T N h.hrstExpire := by
  unfold Hub.hrstExpire
  with_reducible repeat' first | assumption | apply put_kept

theorem ulAck_kept (l count : Nat) (H : Kept K T N h) : Kept K T N (h.ulAck l count) := by
  unfold Hub.ulAck
  with_reducible repeat' first | assumption | apply wr_kept | apply put_kept | apply kept_ite

theorem laneBad_kept (l : Nat) (H : Kept K T N h) : Kept K T N (h.laneBad l) := by
  unfold Hub.laneBad
  with_reducible repeat' first | assumption | apply ulLost_kept | apply kept_ite

theorem resend_kept (l first : Nat) (H : Kept K T N h) : Kept K T N (h.resend l first) := by
  unfold Hub.resend
  with_reducible repeat'
    first
      | assumption | apply inc_kept | apply setUl_kept | apply wr_kept | apply replayLoss_kept | apply kept_ite
      | (apply kept_hub; first | assumption | apply inc_kept | apply setUl_kept | apply wr_kept | apply replayLoss_kept | apply kept_ite)

end Hub

end Sys2Proof.Machine
end

