-- ==== Sys2Proof/Laws/KeptControl.lean ====
section
/-! SUPPORT. What the operations of hinges, configuration, sessions, power, uplinks, keepers and the sample period keep: one lemma per operation. -/

namespace Sys2Proof.Machine

namespace Hub

variable {K : SMap (List Nat)} {T : Tap} {N : Nat} {h : Hub}

/-! ## Machine/HingeOps.lean -/

theorem refreshBlk_kept (j : Nat) (H : Kept K T N h) : Kept K T N (h.refreshBlk j) := by
  unfold Hub.refreshBlk
  with_reducible repeat' first | assumption | apply put_kept | apply raise_kept | apply kept_ite

theorem setUncovered_kept (j c : Nat) (on : Bool) (H : Kept K T N h) : Kept K T N (h.setUncovered j c on) := by
  unfold Hub.setUncovered
  with_reducible repeat' first | assumption | apply put_kept | apply refreshBlk_kept

theorem setWaiting_kept (j : Nat) (l : List UseReq) (H : Kept K T N h) : Kept K T N (h.setWaiting j l) := by
  unfold Hub.setWaiting
  with_reducible repeat'
    first
      | assumption | (refine fun (g : Hub) n (_ : Kept K T N g) => ?_) | apply setBlk_kept | apply put_kept
      | apply kept_foldl
      | (apply kept_hub; first | assumption | apply setBlk_kept | apply put_kept | apply kept_foldl)

theorem enqueue_kept (j c use : Nat) (H : Kept K T N h) : Kept K T N (h.enqueue j c use) := by
  unfold Hub.enqueue
  with_reducible repeat' first | assumption | apply setWaiting_kept | apply kept_ite

theorem startDwell_kept (j c : Nat) (H : Kept K T N h) : Kept K T N (h.startDwell j c) := by
  unfold Hub.startDwell
  with_reducible repeat'
    first
      | assumption | apply setBlk_kept | (apply kept_hub; first | assumption | apply setBlk_kept)

theorem closeDwell_kept (j : Nat) (H : Kept K T N h) : Kept K T N (h.closeDwell j) := by
  unfold Hub.closeDwell
  with_reducible repeat'
    first
      | assumption | (intro x; refine (fun (_ : Kept K T N x) => ?_) ?_; clear_value x) | (intro x)
      | (lift_lets; intro x; refine (fun (_ : Kept K T N x) => ?_) ?_; clear_value x) | (lift_lets; intro x)
      | apply setBlk_kept | apply verdict_kept | apply wr_kept | apply result_kept | apply inc_kept
      | apply healthWatch_kept | apply kept_ite
      | (apply kept_hub; first | assumption | apply setBlk_kept | apply verdict_kept | apply wr_kept | apply result_kept | apply inc_kept | apply healthWatch_kept | apply kept_ite)
      | split | (clear_value *; split)

theorem openHinge_kept (j : Nat) (H : Kept K T N h) : Kept K T N (h.openHinge j) := by
  unfold Hub.openHinge
  with_reducible repeat'
    first
      | assumption | apply put_kept | apply setBlk_kept
      | (apply kept_hub; first | assumption | apply put_kept | apply setBlk_kept)

theorem startMove_kept (j c : Nat) (H : Kept K T N h) : Kept K T N (h.startMove j c) := by
  unfold Hub.startMove
  with_reducible repeat'
    first
      | assumption | apply put_kept | apply setBlk_kept | apply kept_ite
      | (apply kept_hub; first | assumption | apply put_kept | apply setBlk_kept | apply kept_ite)

theorem dwellOn_kept (j c : Nat) (H : Kept K T N h) : Kept K T N (h.dwellOn j c) := by
  unfold Hub.dwellOn
  with_reducible repeat' first | assumption | apply startMove_kept | apply startDwell_kept | apply kept_ite

theorem rotate_kept (j c : Nat) (H : Kept K T N h) : Kept K T N (h.rotate j c) := by
  unfold Hub.rotate
  with_reducible repeat'
    first
      | assumption | (intro x; refine (fun (_ : Kept K T N x) => ?_) ?_; clear_value x) | (intro x)
      | (lift_lets; intro x; refine (fun (_ : Kept K T N x) => ?_) ?_; clear_value x) | (lift_lets; intro x)
      | apply setBlk_kept | apply put_kept | apply dwellOn_kept | apply openHinge_kept | apply kept_ite
      | (apply kept_hub; first | assumption | apply setBlk_kept | apply put_kept | apply dwellOn_kept | apply openHinge_kept | apply kept_ite)
      | split | (clear_value *; split)

theorem internalCommit_kept (j c : Nat) (back : Bool) (H : Kept K T N h) : Kept K T N (h.internalCommit j c back) :=
    by
  unfold Hub.internalCommit
  with_reducible repeat'
    first
      | assumption | apply setBlk_kept | apply put_kept
      | (apply kept_hub; first | assumption | apply setBlk_kept | apply put_kept)

theorem autoCommit_kept (j c : Nat) (H : Kept K T N h) : Kept K T N (h.autoCommit j c) := by
  unfold Hub.autoCommit
  with_reducible repeat' first | assumption | apply internalCommit_kept | apply kept_ite

theorem startUse_kept (j c use : Nat) (H : Kept K T N h) : Kept K T N (h.startUse j c use) := by
  unfold Hub.startUse
  with_reducible repeat'
    first
      | assumption | apply put_kept | apply setBlk_kept | apply dwellOn_kept | apply startMove_kept
      | apply autoCommit_kept | apply kept_ite
      | (apply kept_hub; first | assumption | apply put_kept | apply setBlk_kept | apply dwellOn_kept | apply startMove_kept | apply autoCommit_kept | apply kept_ite)

theorem dropDiag_kept (j : Nat) (H : Kept K T N h) : Kept K T N (h.dropDiag j) := by
  unfold Hub.dropDiag
  with_reducible repeat'
    first
      | assumption | apply setBlk_kept | apply put_kept
      | (apply kept_hub; first | assumption | apply setBlk_kept | apply put_kept)

theorem spareFree_kept (j c : Nat) (stay : Bool) (H : Kept K T N h) : Kept K T N (h.spareFree j c stay) := by
  unfold Hub.spareFree
  with_reducible repeat'
    first
      | assumption | (intro x; refine (fun (_ : Kept K T N x) => ?_) ?_; clear_value x) | (intro x)
      | (lift_lets; intro x; refine (fun (_ : Kept K T N x) => ?_) ?_; clear_value x) | (lift_lets; intro x)
      | apply setWaiting_kept | apply setBlk_kept | apply startUse_kept | apply put_kept | apply dwellOn_kept
      | apply rotate_kept | apply kept_ite
      | (apply kept_hub; first | assumption | apply setWaiting_kept | apply setBlk_kept | apply startUse_kept | apply put_kept | apply dwellOn_kept | apply rotate_kept | apply kept_ite)
      | split | (clear_value *; split)

theorem spareFaulty_kept (j : Nat) (H : Kept K T N h) : Kept K T N (h.spareFaulty j) := by
  unfold Hub.spareFaulty
  with_reducible repeat'
    first
      | assumption | apply closeDwell_kept | apply dropDiag_kept | apply openHinge_kept | apply enqueue_kept
      | apply put_kept | apply refreshBlk_kept | apply kept_ite

theorem beginEnding_kept (j : Nat) (H : Kept K T N h) : Kept K T N (h.beginEnding j) := by
  unfold Hub.beginEnding
  with_reducible repeat'
    first
      | assumption | apply calEnd_kept | apply put_kept | apply setBlk_kept | apply kept_ite
      | (apply kept_hub; first | assumption | apply calEnd_kept | apply put_kept | apply setBlk_kept | apply kept_ite)

theorem requestOther_kept (j c use : Nat) (H : Kept K T N h) : Kept K T N (h.requestOther j c use) := by
  unfold Hub.requestOther
  with_reducible repeat'
    first
      | assumption | apply enqueue_kept | apply closeDwell_kept | apply dropDiag_kept | apply startUse_kept
      | apply beginEnding_kept | apply kept_ite

theorem request_kept (j c use : Nat) (H : Kept K T N h) : Kept K T N (h.request j c use) := by
  unfold Hub.request
  with_reducible repeat'
    first
      | assumption | apply put_kept | apply healthTo_kept | apply refreshBlk_kept | apply requestOther_kept
      | apply startUse_kept | apply enqueue_kept | apply kept_ite

theorem shadowCfg_kept (j : Nat) (H : Kept K T N h) : Kept K T N (h.shadowCfg j) := by
  unfold Hub.shadowCfg
  with_reducible repeat'
    first
      | assumption | apply setBlk_kept | apply put_kept | apply kept_ite
      | (apply kept_hub; first | assumption | apply setBlk_kept | apply put_kept | apply kept_ite)

theorem moveIllegal_kept (j : Nat) (H : Kept K T N h) : Kept K T N (h.moveIllegal j) := by
  unfold Hub.moveIllegal
  with_reducible repeat' first | assumption | apply set1_kept

theorem moveShadow_kept (j c : Nat) (H : Kept K T N h) : Kept K T N (h.moveShadow j c) := by
  unfold Hub.moveShadow
  with_reducible repeat'
    first
      | assumption | apply moveIllegal_kept | apply closeDwell_kept | apply startUse_kept | apply enqueue_kept
      | apply kept_ite

theorem moveUse_kept (j t use : Nat) (H : Kept K T N h) : Kept K T N (h.moveUse j t use) := by
  unfold Hub.moveUse
  with_reducible repeat' first | assumption | apply request_kept | apply moveIllegal_kept | apply kept_ite

theorem spareDrop_kept (j : Nat) (H : Kept K T N h) : Kept K T N (h.spareDrop j) := by
  unfold Hub.spareDrop
  with_reducible repeat'
    first
      | assumption | apply calEnd_kept | apply setBlk_kept | apply put_kept | apply kept_ite
      | (apply kept_hub; first | assumption | apply calEnd_kept | apply setBlk_kept | apply put_kept | apply kept_ite)

theorem spareRetire_kept (j : Nat) (H : Kept K T N h) : Kept K T N (h.spareRetire j) := by
  unfold Hub.spareRetire
  with_reducible repeat'
    first
      | assumption | apply moveIllegal_kept | apply spareDrop_kept | apply spareFaulty_kept | apply put_kept
      | apply healthTo_kept | apply refreshBlk_kept | apply kept_ite

theorem spareRestore_kept (j : Nat) (H : Kept K T N h) : Kept K T N (h.spareRestore j) := by
  unfold Hub.spareRestore
  with_reducible repeat'
    first
      | assumption | apply moveIllegal_kept | apply healthTo_kept | apply refreshBlk_kept | apply put_kept
      | apply spareFree_kept | apply kept_ite

theorem cellSuspect_kept (j c : Nat) (H : Kept K T N h) : Kept K T N (h.cellSuspect j c) := by
  unfold Hub.cellSuspect
  with_reducible repeat' first | assumption | apply setUncovered_kept | apply request_kept | apply kept_ite

theorem spareSuspect_kept (j : Nat) (H : Kept K T N h) : Kept K T N (h.spareSuspect j) := by
  unfold Hub.spareSuspect
  with_reducible repeat'
    first
      | assumption | (intro x; refine (fun (_ : Kept K T N x) => ?_) ?_; clear_value x) | (intro x)
      | (lift_lets; intro x; refine (fun (_ : Kept K T N x) => ?_) ?_; clear_value x) | (lift_lets; intro x)
      | apply refreshBlk_kept | apply calEnd_kept | apply internalCommit_kept | apply setUncovered_kept
      | apply spareDrop_kept | apply spareFaulty_kept | apply kept_ite
      | (apply kept_hub; first | assumption | apply refreshBlk_kept | apply calEnd_kept | apply internalCommit_kept | apply setUncovered_kept | apply spareDrop_kept | apply spareFaulty_kept | apply kept_ite)
      | split | (clear_value *; split)

theorem healthSuspect_kept (j c : Nat) (cause : RF) (H : Kept K T N h) : Kept K T N (h.healthSuspect j c cause) :=
    by
  unfold Hub.healthSuspect
  with_reducible repeat'
    first
      | assumption | apply set1_kept | apply healthTo_kept | apply spareSuspect_kept | apply cellSuspect_kept
      | apply kept_ite

theorem skipCompare_kept (j c : Nat) (H : Kept K T N h) : Kept K T N (h.skipCompare j c) := by
  unfold Hub.skipCompare
  with_reducible repeat'
    first
      | assumption | apply setBlk_kept | apply kept_ite
      | (apply kept_hub; first | assumption | apply setBlk_kept | apply kept_ite)

theorem redundError_kept (j c : Nat) (H : Kept K T N h) : Kept K T N (h.redundError j c) := by
  unfold Hub.redundError
  with_reducible repeat'
    first
      | assumption | apply skipCompare_kept | apply setCell_kept | apply inc_kept | apply healthSuspect_kept
      | apply kept_ite
      | (apply kept_hub; first | assumption | apply skipCompare_kept | apply setCell_kept | apply inc_kept | apply healthSuspect_kept | apply kept_ite)

theorem healthWindow_kept (j c : Nat) (H : Kept K T N h) : Kept K T N (h.healthWindow j c) := by
  unfold Hub.healthWindow
  with_reducible repeat'
    first
      | assumption | apply wr_kept | apply setCell_kept | apply healthWatch_kept | apply kept_ite
      | (apply kept_hub; first | assumption | apply wr_kept | apply setCell_kept | apply healthWatch_kept | apply kept_ite)

theorem healthClear_kept (j c : Nat) (H : Kept K T N h) : Kept K T N (h.healthClear j c) := by
  unfold Hub.healthClear
  with_reducible repeat'
    first
      | assumption | (intro x; refine (fun (_ : Kept K T N x) => ?_) ?_; clear_value x) | (intro x)
      | (lift_lets; intro x; refine (fun (_ : Kept K T N x) => ?_) ?_; clear_value x) | (lift_lets; intro x)
      | apply healthTo_kept | apply calUnblock_kept | apply refreshBlk_kept | apply setUncovered_kept
      | apply put_kept | apply spareFree_kept | apply kept_ite
      | (apply kept_hub; first | assumption | apply healthTo_kept | apply calUnblock_kept | apply refreshBlk_kept | apply setUncovered_kept | apply put_kept | apply spareFree_kept | apply kept_ite)
      | split | (clear_value *; split)

theorem verdict_kept (j c v : Nat) (H : Kept K T N h) : Kept K T N (h.verdict j c v) := by
  unfold Hub.verdict
  with_reducible repeat'
    first
      | assumption | apply dropDiag_kept | apply setBlk_kept | apply wr_kept | apply raise_kept
      | (apply kept_hub; first | assumption | apply dropDiag_kept | apply setBlk_kept | apply wr_kept | apply raise_kept)

theorem diagDone_kept (j c v : Nat) (H : Kept K T N h) : Kept K T N (h.diagDone j c v) := by
  unfold Hub.diagDone
  with_reducible repeat' first | assumption | apply verdict_kept | apply spareFree_kept

theorem diagStep_kept (j c stage : Nat) (d : Dwell) (H : Kept K T N h) : Kept K T N (h.diagStep j c stage d) := by
  unfold Hub.diagStep
  with_reducible repeat'
    first
      | assumption | (intro x; refine (fun (_ : Kept K T N x) => ?_) ?_; clear_value x) | (intro x)
      | (lift_lets; intro x; refine (fun (_ : Kept K T N x) => ?_) ?_; clear_value x) | (lift_lets; intro x)
      | apply verdict_kept | apply diagDone_kept | apply setBlk_kept | apply dwellOn_kept | apply set1_kept
      | apply healthTo_kept | apply spareFaulty_kept | apply healthSuspect_kept | apply spareFree_kept
      | apply kept_ite
      | (apply kept_hub; first | assumption | apply verdict_kept | apply diagDone_kept | apply setBlk_kept | apply dwellOn_kept | apply set1_kept | apply healthTo_kept | apply spareFaulty_kept | apply healthSuspect_kept | apply spareFree_kept | apply kept_ite)
      | split | (clear_value *; split)

theorem dwellNext_kept (j : Nat) (d : Dwell) (H : Kept K T N h) : Kept K T N (h.dwellNext j d) := by
  unfold Hub.dwellNext
  with_reducible repeat'
    first
      | assumption | (intro x; refine (fun (_ : Kept K T N x) => ?_) ?_; clear_value x) | (intro x)
      | (lift_lets; intro x; refine (fun (_ : Kept K T N x) => ?_) ?_; clear_value x) | (lift_lets; intro x)
      | apply startDwell_kept | apply diagStep_kept | apply setBlk_kept | apply put_kept | apply rotate_kept
      | apply kept_ite
      | (apply kept_hub; first | assumption | apply startDwell_kept | apply diagStep_kept | apply setBlk_kept | apply put_kept | apply rotate_kept | apply kept_ite)
      | split | (clear_value *; split)

theorem dwellEnd_kept (j : Nat) (H : Kept K T N h) : Kept K T N (h.dwellEnd j) := by
  unfold Hub.dwellEnd
  with_reducible repeat'
    first
      | assumption | apply closeDwell_kept | apply dwellNext_kept | apply kept_ite
      | (apply kept_hub; first | assumption | apply closeDwell_kept | apply dwellNext_kept | apply kept_ite) | split
      | (clear_value *; split)

theorem dischargeDone_kept (j : Nat) (H : Kept K T N h) : Kept K T N (h.dischargeDone j) := by
  unfold Hub.dischargeDone
  with_reducible repeat'
    first
      | assumption | apply put_kept | apply setBlk_kept | apply setCell_kept | apply kept_ite
      | (apply kept_hub; first | assumption | apply put_kept | apply setBlk_kept | apply setCell_kept | apply kept_ite)

theorem hingeSettled_kept (j : Nat) (H : Kept K T N h) : Kept K T N (h.hingeSettled j) := by
  unfold Hub.hingeSettled
  with_reducible repeat'
    first
      | assumption | (intro x; refine (fun (_ : Kept K T N x) => ?_) ?_; clear_value x) | (intro x)
      | (lift_lets; intro x; refine (fun (_ : Kept K T N x) => ?_) ?_; clear_value x) | (lift_lets; intro x)
      | apply put_kept | apply startDwell_kept | apply diagDone_kept | apply rotate_kept | apply autoCommit_kept
      | apply kept_ite
      | (apply kept_hub; first | assumption | apply put_kept | apply startDwell_kept | apply diagDone_kept | apply rotate_kept | apply autoCommit_kept | apply kept_ite)
      | split | (clear_value *; split)

theorem commitRefused_kept (j why : Nat) (H : Kept K T N h) : Kept K T N (h.commitRefused j why) := by
  unfold Hub.commitRefused
  with_reducible repeat' first | assumption | apply set1_kept | apply put_kept

theorem commitTaken_kept (j c : Nat) (back : Bool) (H : Kept K T N h) : Kept K T N (h.commitTaken j c back) := by
  unfold Hub.commitTaken
  with_reducible repeat'
    first
      | assumption | apply setBlk_kept | apply put_kept
      | (apply kept_hub; first | assumption | apply setBlk_kept | apply put_kept)

theorem commitToSpare_kept (j c : Nat) (H : Kept K T N h) : Kept K T N (h.commitToSpare j c) := by
  unfold Hub.commitToSpare
  with_reducible repeat' first | assumption | apply commitRefused_kept | apply commitTaken_kept | apply kept_ite

theorem commitBack_kept (j c : Nat) (H : Kept K T N h) : Kept K T N (h.commitBack j c) := by
  unfold Hub.commitBack
  with_reducible repeat' first | assumption | apply commitRefused_kept | apply commitTaken_kept | apply kept_ite

theorem handoverReport_kept (j : Nat) (m : Commit) (label : Nat) (H : Kept K T N h) : Kept K T N (h.handoverReport j
    m label) := by
  unfold Hub.handoverReport
  with_reducible repeat' first | assumption | apply w64_kept | apply inc_kept | apply pushRecord_kept

theorem setSource_kept (j c : Nat) (spare : Bool) (H : Kept K T N h) : Kept K T N (h.setSource j c spare) := by
  unfold Hub.setSource
  with_reducible repeat'
    first
      | assumption | apply setChan_kept | apply put_kept | apply setBlk_kept | apply kept_ite
      | (apply kept_hub; first | assumption | apply setChan_kept | apply put_kept | apply setBlk_kept | apply kept_ite)

theorem outrank_kept (j c : Nat) (H : Kept K T N h) : Kept K T N (h.outrank j c) := by
  unfold Hub.outrank
  with_reducible repeat'
    first
      | assumption | apply setWaiting_kept | apply put_kept | apply beginEnding_kept | apply kept_ite
      | (apply kept_hub; first | assumption | apply setWaiting_kept | apply put_kept | apply beginEnding_kept | apply kept_ite)
      | split | (clear_value *; split)

theorem handToSpare_kept (j c : Nat) (H : Kept K T N h) : Kept K T N (h.handToSpare j c) := by
  unfold Hub.handToSpare
  with_reducible repeat'
    first
      | assumption | apply setSource_kept | apply put_kept | apply setUncovered_kept | apply healthTo_kept
      | apply startDwell_kept | apply outrank_kept | apply kept_ite

theorem backHealth_kept (j c : Nat) (internal : Bool) (H : Kept K T N h) : Kept K T N (h.backHealth j c internal) :=
    by
  unfold Hub.backHealth
  with_reducible repeat'
    first
      | assumption | apply setUncovered_kept | apply enqueue_kept | apply healthTo_kept | apply kept_ite

theorem handBack_kept (j c : Nat) (internal : Bool) (H : Kept K T N h) : Kept K T N (h.handBack j c internal) := by
  unfold Hub.handBack
  with_reducible repeat'
    first
      | assumption | apply closeDwell_kept | apply setSource_kept | apply put_kept | apply setBlk_kept
      | apply backHealth_kept | apply spareFree_kept | apply spareFaulty_kept | apply kept_ite
      | (apply kept_hub; first | assumption | apply closeDwell_kept | apply setSource_kept | apply put_kept | apply setBlk_kept | apply backHealth_kept | apply spareFree_kept | apply spareFaulty_kept | apply kept_ite)

theorem handover_kept (j : Nat) (H : Kept K T N h) : Kept K T N (h.handover j) := by
  unfold Hub.handover
  with_reducible repeat'
    first
      | assumption | (intro x; refine (fun (_ : Kept K T N x) => ?_) ?_; clear_value x) | (intro x)
      | (lift_lets; intro x; refine (fun (_ : Kept K T N x) => ?_) ?_; clear_value x) | (lift_lets; intro x)
      | apply setBlk_kept | apply put_kept | apply handoverReport_kept | apply handBack_kept
      | apply handToSpare_kept | apply kept_ite
      | (apply kept_hub; first | assumption | apply setBlk_kept | apply put_kept | apply handoverReport_kept | apply handBack_kept | apply handToSpare_kept | apply kept_ite)
      | split | (clear_value *; split)

theorem safePoint_kept (j : Nat) (H : Kept K T N h) : Kept K T N (h.safePoint j) := by
  unfold Hub.safePoint
  with_reducible repeat'
    first
      | assumption | (intro x; refine (fun (_ : Kept K T N x) => ?_) ?_; clear_value x) | (intro x)
      | (lift_lets; intro x; refine (fun (_ : Kept K T N x) => ?_) ?_; clear_value x) | (lift_lets; intro x)
      | apply setBlk_kept | apply spareFree_kept | apply setWaiting_kept | apply put_kept
      | apply internalCommit_kept | apply kept_ite
      | (apply kept_hub; first | assumption | apply setBlk_kept | apply spareFree_kept | apply setWaiting_kept | apply put_kept | apply internalCommit_kept | apply kept_ite)
      | split | (clear_value *; split)

theorem shadowIdle_kept (j : Nat) (H : Kept K T N h) : Kept K T N (h.shadowIdle j) := by
  unfold Hub.shadowIdle
  with_reducible repeat'
    first
      | assumption | (intro x; refine (fun (_ : Kept K T N x) => ?_) ?_; clear_value x) | (intro x)
      | (lift_lets; intro x; refine (fun (_ : Kept K T N x) => ?_) ?_; clear_value x) | (lift_lets; intro x)
      | apply put_kept | apply startMove_kept | apply diagDone_kept | apply rotate_kept | apply kept_ite
      | (apply kept_hub; first | assumption | apply put_kept | apply startMove_kept | apply diagDone_kept | apply rotate_kept | apply kept_ite)
      | split | (clear_value *; split)

theorem hingeSample_kept (j : Nat) (H : Kept K T N h) : Kept K T N (h.hingeSample j) := by
  unfold Hub.hingeSample
  with_reducible repeat'
    first
      | assumption | (intro x; refine (fun (_ : Kept K T N x) => ?_) ?_; clear_value x) | (intro x)
      | (lift_lets; intro x; refine (fun (_ : Kept K T N x) => ?_) ?_; clear_value x) | (lift_lets; intro x)
      | apply setBlk_kept | apply closeDwell_kept | apply spareFree_kept | apply shadowIdle_kept
      | apply startDwell_kept | apply kept_ite
      | (apply kept_hub; first | assumption | apply setBlk_kept | apply closeDwell_kept | apply spareFree_kept | apply shadowIdle_kept | apply startDwell_kept | apply kept_ite)
      | split | (clear_value *; split)

theorem selfFail_kept (j : Nat) (H : Kept K T N h) : Kept K T N (h.selfFail j) := by
  unfold Hub.selfFail
  with_reducible repeat' first | assumption | apply set1_kept | apply refreshBlk_kept

theorem calStart_kept (j c : Nat) (H : Kept K T N h) : Kept K T N (h.calStart j c) := by
  unfold Hub.calStart
  with_reducible repeat'
    first
      | assumption | (intro x; refine (fun (_ : Kept K T N x) => ?_) ?_; clear_value x) | (intro x)
      | (lift_lets; intro x; refine (fun (_ : Kept K T N x) => ?_) ?_; clear_value x) | (lift_lets; intro x)
      | apply setCalQueue_kept | apply setCalib_kept | apply put_kept | apply calPhase_kept | apply closeDwell_kept
      | apply dropDiag_kept | apply openHinge_kept | apply kept_ite
      | (apply kept_hub; first | assumption | apply setCalQueue_kept | apply setCalib_kept | apply put_kept | apply calPhase_kept | apply closeDwell_kept | apply dropDiag_kept | apply openHinge_kept | apply kept_ite)
      | split | (clear_value *; split)

/-! ## Machine/WriteRules.lean -/

theorem setFlags_kept (l : List (Nat × RF)) (H : Kept K T N h) : Kept K T N (h.setFlags l) := by
  unfold Hub.setFlags
  with_reducible repeat'
    first
      | assumption | (refine fun (g : Hub) n (_ : Kept K T N g) => ?_) | apply set1_kept | apply kept_foldl

theorem writeFields_kept (l : Loc) (key v : Nat) (H : Kept K T N h) : Kept K T N (h.writeFields l key v) := by
  unfold Hub.writeFields
  with_reducible repeat' first | assumption | apply wr_kept | apply setFlags_kept

/-! ## Machine/CfgOps.lean -/

theorem refreshLoaded_kept (H : Kept K T N h) : Kept K T N h.refreshLoaded := by
  unfold Hub.refreshLoaded
  with_reducible repeat'
    first
      | assumption | (refine fun (g : Hub) n (_ : Kept K T N g) => ?_) | apply wr_kept | apply forAll_kept
      | apply put_kept

theorem loadFail_kept (why : Nat) (H : Kept K T N h) : Kept K T N (h.loadFail why) := by
  unfold Hub.loadFail
  with_reducible repeat' first | assumption | apply put_kept | (apply kept_hub; first | assumption | apply put_kept)

theorem loadFailAt_kept (why a w : Nat) (H : Kept K T N h) : Kept K T N (h.loadFailAt why a w) := by
  unfold Hub.loadFailAt
  with_reducible repeat' first | assumption | apply loadFail_kept | apply wr_kept

theorem cfgSessionEnd_kept (path : Nat) (H : Kept K T N h) : Kept K T N (h.cfgSessionEnd path) := by
  unfold Hub.cfgSessionEnd
  with_reducible repeat' first | assumption | apply loadFail_kept | apply kept_ite

theorem cfgTakeover_kept (H : Kept K T N h) : Kept K T N h.cfgTakeover := by
  unfold Hub.cfgTakeover
  with_reducible repeat' first | assumption | apply loadFail_kept | apply kept_ite

theorem cfgStall_kept (H : Kept K T N h) : Kept K T N h.cfgStall := by
  unfold Hub.cfgStall
  with_reducible repeat' first | assumption | apply loadFail_kept | apply kept_ite

theorem cfgBegin_kept (m : Nat) (H : Kept K T N h) : Kept K T N (h.cfgBegin m) := by
  unfold Hub.cfgBegin
  with_reducible repeat'
    first
      | assumption | apply refreshLoaded_kept | apply wr_kept | apply put_kept
      | (apply kept_hub; first | assumption | apply refreshLoaded_kept | apply wr_kept | apply put_kept)

theorem cfgCancel_kept (H : Kept K T N h) : Kept K T N h.cfgCancel := by
  unfold Hub.cfgCancel
  with_reducible repeat' first | assumption | apply put_kept

theorem cfgDiscard_kept (H : Kept K T N h) : Kept K T N h.cfgDiscard := by
  unfold Hub.cfgDiscard
  with_reducible repeat'
    first
      | assumption | apply refreshLoaded_kept | apply put_kept | apply cfgCancel_kept | apply kept_ite
      | (apply kept_hub; first | assumption | apply refreshLoaded_kept | apply put_kept | apply cfgCancel_kept | apply kept_ite)

theorem takeFrameWord_kept (i v : Nat) (H : Kept K T N h) : Kept K T N (h.takeFrameWord i v) := by
  unfold Hub.takeFrameWord
  with_reducible repeat'
    first
      | assumption | (intro x; refine (fun (_ : Kept K T N x) => ?_) ?_; clear_value x) | (intro x)
      | (lift_lets; intro x; refine (fun (_ : Kept K T N x) => ?_) ?_; clear_value x) | (lift_lets; intro x)
      | apply loadFailAt_kept | apply kept_ite
      | (apply kept_hub; first | assumption | apply loadFailAt_kept | apply kept_ite) | split
      | (clear_value *; split)

theorem takeTrailerWord_kept (i v : Nat) (H : Kept K T N h) : Kept K T N (h.takeTrailerWord i v) := by
  unfold Hub.takeTrailerWord
  with_reducible repeat' first | assumption | apply loadFail_kept | apply put_kept | apply kept_ite

theorem cfgLoadData_kept (m v : Nat) (H : Kept K T N h) : Kept K T N (h.cfgLoadData m v) := by
  unfold Hub.cfgLoadData
  with_reducible repeat'
    first
      | assumption | (intro x; refine (fun (_ : Kept K T N x) => ?_) ?_; clear_value x) | (intro x)
      | (lift_lets; intro x; refine (fun (_ : Kept K T N x) => ?_) ?_; clear_value x) | (lift_lets; intro x)
      | apply set1_kept | apply wr_kept | apply loadFail_kept | apply takeFrameWord_kept
      | apply takeTrailerWord_kept | apply kept_ite
      | (apply kept_hub; first | assumption | apply set1_kept | apply wr_kept | apply loadFail_kept | apply takeFrameWord_kept | apply takeTrailerWord_kept | apply kept_ite)
      | split | (clear_value *; split)

theorem verifyDone_kept (differs : Bool) (H : Kept K T N h) : Kept K T N (h.verifyDone differs) := by
  unfold Hub.verifyDone
  with_reducible repeat'
    first
      | assumption | (intro x; refine (fun (_ : Kept K T N x) => ?_) ?_; clear_value x) | (intro x)
      | (lift_lets; intro x; refine (fun (_ : Kept K T N x) => ?_) ?_; clear_value x) | (lift_lets; intro x)
      | apply loadFailAt_kept | apply loadFail_kept | apply refreshLoaded_kept | apply put_kept | apply kept_ite
      | (apply kept_hub; first | assumption | apply loadFailAt_kept | apply loadFail_kept | apply refreshLoaded_kept | apply put_kept | apply kept_ite)
      | split | (clear_value *; split)

theorem applyMissed_kept (why : Nat) (H : Kept K T N h) : Kept K T N (h.applyMissed why) := by
  unfold Hub.applyMissed
  with_reducible repeat' first | assumption | apply set1_kept | apply put_kept | apply inc_kept | apply raise_kept

theorem cfgDecide_kept (a : Nat) (H : Kept K T N h) : Kept K T N (h.cfgDecide a) := by
  unfold Hub.cfgDecide
  with_reducible repeat'
    first
      | assumption | apply applyMissed_kept | apply refreshLoaded_kept | apply put_kept | apply set1_kept
      | apply inc_kept | apply w64_kept | apply kept_ite
      | (apply kept_hub; first | assumption | apply applyMissed_kept | apply refreshLoaded_kept | apply put_kept | apply set1_kept | apply inc_kept | apply w64_kept | apply kept_ite)

theorem cfgArm_kept (H : Kept K T N h) : Kept K T N h.cfgArm := by
  unfold Hub.cfgArm
  with_reducible repeat'
    first
      | assumption | apply put_kept | apply set1_kept | apply kept_ite
      | (apply kept_hub; first | assumption | apply put_kept | apply set1_kept | apply kept_ite)

theorem cfgApplyNow_kept (H : Kept K T N h) : Kept K T N h.cfgApplyNow := by
  unfold Hub.cfgApplyNow
  with_reducible repeat' first | assumption | apply set1_kept | apply cfgDecide_kept | apply kept_ite

theorem cfgArmDecision_kept (H : Kept K T N h) : Kept K T N h.cfgArmDecision := by
  unfold Hub.cfgArmDecision
  with_reducible repeat'
    first
      | assumption | apply cfgCancel_kept | apply cfgDecide_kept | apply kept_ite
      | (apply kept_hub; first | assumption | apply cfgCancel_kept | apply cfgDecide_kept | apply kept_ite)

theorem cfgApplyFast_kept (H : Kept K T N h) : Kept K T N h.cfgApplyFast := by
  unfold Hub.cfgApplyFast
  with_reducible repeat'
    first
      | assumption | apply set1_kept | apply cfgCancel_kept | apply cfgDecide_kept | apply kept_ite

theorem cfgBxSet_kept (H : Kept K T N h) : Kept K T N h.cfgBxSet := by
  unfold Hub.cfgBxSet
  with_reducible repeat' first | assumption | apply cfgCancel_kept | apply set1_kept | apply kept_ite

theorem cfgCtrlWrite_kept (m v : Nat) (H : Kept K T N h) : Kept K T N (h.cfgCtrlWrite m v) := by
  unfold Hub.cfgCtrlWrite
  with_reducible repeat'
    first
      | assumption | apply cfgBegin_kept | apply cfgDiscard_kept | apply cfgArm_kept | apply cfgCancel_kept
      | apply cfgApplyNow_kept | apply kept_ite

theorem takeCellWord_kept (n : RegName) (j c a : Nat) (level : Int) (H : Kept K T N h) : Kept K T N (h.takeCellWord
    n j c a level) := by
  unfold Hub.takeCellWord
  with_reducible repeat'
    first
      | assumption | (intro x; refine (fun (_ : Kept K T N x) => ?_) ?_; clear_value x) | (intro x)
      | (lift_lets; intro x; refine (fun (_ : Kept K T N x) => ?_) ?_; clear_value x) | (lift_lets; intro x)
      | apply takeFrontEnd_kept | apply takeEnable_kept | apply takeDiscEnable_kept | apply takeDiscSettings_kept
      | apply takeTdcEnable_kept | apply cdOff_kept | apply takeDelay_kept | apply setDue_kept | apply kept_ite
      | (apply kept_hub; first | assumption | apply takeFrontEnd_kept | apply takeEnable_kept | apply takeDiscEnable_kept | apply takeDiscSettings_kept | apply takeTdcEnable_kept | apply cdOff_kept | apply takeDelay_kept | apply setDue_kept | apply kept_ite)
      | split | (clear_value *; split)

theorem takeChipWord_kept (l : Loc) (old new a : Nat) (H : Kept K T N h) : Kept K T N (h.takeChipWord l old new a)
    := by
  unfold Hub.takeChipWord
  with_reducible repeat'
    first
      | assumption | apply takePolicy_kept | apply relock_kept | apply ulRelock_kept | apply orgCtrlWrite_kept
      | apply skewsCold_kept | apply refreshLatency_kept | apply refreshLags_kept | apply takeOut_kept
      | apply refreshBlk_kept | apply shadowCfg_kept | apply kept_ite
      | (apply kept_hub; first | assumption | apply takePolicy_kept | apply relock_kept | apply ulRelock_kept | apply orgCtrlWrite_kept | apply skewsCold_kept | apply refreshLatency_kept | apply refreshLags_kept | apply takeOut_kept | apply refreshBlk_kept | apply shadowCfg_kept | apply kept_ite)
      | split | (clear_value *; split)

theorem cellWordSoon_kept (key a : Nat) (l : Loc) (level : Int) (H : Kept K T N h) : Kept K T N (h.cellWordSoon key
    a l level) := by
  unfold Hub.cellWordSoon
  with_reducible repeat'
    first
      | assumption | apply takeCellWord_kept | apply kept_ite
      | (apply kept_hub; first | assumption | apply takeCellWord_kept | apply kept_ite)

theorem lateWords_kept (H : Kept K T N h) : Kept K T N h.lateWords := by
  unfold Hub.lateWords
  with_reducible repeat'
    first
      | assumption | (refine fun (g : Hub) n (_ : Kept K T N g) => ?_)
      | (intro x; refine (fun (_ : Kept K T N x) => ?_) ?_; clear_value x) | (intro x)
      | (lift_lets; intro x; refine (fun (_ : Kept K T N x) => ?_) ?_; clear_value x) | (lift_lets; intro x)
      | apply takeCellWord_kept | apply kept_ite | apply kept_foldl
      | (apply kept_hub; first | assumption | apply takeCellWord_kept | apply kept_ite | apply kept_foldl) | split
      | (clear_value *; split)

theorem applyReg_kept (r : RF) (mask v a : Nat) (levels : List (Nat × Int)) (H : Kept K T N h) : Kept K T N
    (h.applyReg r mask v a levels) := by
  unfold Hub.applyReg
  with_reducible repeat'
    first
      | assumption | (intro x; refine (fun (_ : Kept K T N x) => ?_) ?_; clear_value x) | (intro x)
      | (lift_lets; intro x; refine (fun (_ : Kept K T N x) => ?_) ?_; clear_value x) | (lift_lets; intro x)
      | apply wr_kept | apply cellWordSoon_kept | apply takeChipWord_kept
      | (apply kept_hub; first | assumption | apply wr_kept | apply cellWordSoon_kept | apply takeChipWord_kept)
      | split | (clear_value *; split)

theorem putBit_kept (r : RF) (i : Nat) (b : Bool) (H : Kept K T N h) : Kept K T N (h.putBit r i b) := by
  unfold Hub.putBit
  with_reducible repeat' first | assumption | apply put_kept | (apply kept_hub; first | assumption | apply put_kept)

theorem putSpoke_kept (s v : Nat) (H : Kept K T N h) : Kept K T N (h.putSpoke s v) := by
  unfold Hub.putSpoke
  with_reducible repeat' first | assumption | apply putBit_kept | apply put_kept

theorem applySpoke_kept (s v : Nat) (H : Kept K T N h) : Kept K T N (h.applySpoke s v) := by
  unfold Hub.applySpoke
  with_reducible repeat'
    first
      | assumption | apply putSpoke_kept | apply laneEnable_kept | apply laneDisable_kept | apply kept_ite

theorem applyWord_kept (a w v bx : Nat) (levels : List (Nat × Int)) (H : Kept K T N h) : Kept K T N (h.applyWord a w
    v bx levels) := by
  unfold Hub.applyWord
  with_reducible repeat'
    first
      | assumption | (intro x; refine (fun (_ : Kept K T N x) => ?_) ?_; clear_value x) | (intro x)
      | (lift_lets; intro x; refine (fun (_ : Kept K T N x) => ?_) ?_; clear_value x) | (lift_lets; intro x)
      | apply applyReg_kept | apply moveUse_kept | apply applySpoke_kept | apply kept_ite
      | (apply kept_hub; first | assumption | apply applyReg_kept | apply moveUse_kept | apply applySpoke_kept | apply kept_ite)
      | split | (clear_value *; split)

theorem refreshBad_kept (H : Kept K T N h) : Kept K T N h.refreshBad := by
  unfold Hub.refreshBad
  with_reducible repeat'
    first
      | assumption | (refine fun (g : Hub) n (_ : Kept K T N g) => ?_) | apply put_kept | apply forAll_kept

theorem frameRewritten_kept (p : Nat → Bool) (H : Kept K T N h) : Kept K T N (h.frameRewritten p) := by
  unfold Hub.frameRewritten
  with_reducible repeat'
    first
      | assumption | apply refreshBad_kept | apply kept_ite
      | (apply kept_hub; first | assumption | apply refreshBad_kept | apply kept_ite)

theorem cfgTouched_kept (key : Nat) (H : Kept K T N h) : Kept K T N (h.cfgTouched key) := by
  unfold Hub.cfgTouched
  with_reducible repeat'
    first
      | assumption | apply frameRewritten_kept | (apply kept_hub; first | assumption | apply frameRewritten_kept)

theorem applyEffect_kept (levels : List (Nat × Int)) (H : Kept K T N h) : Kept K T N (h.applyEffect levels) := by
  unfold Hub.applyEffect
  with_reducible repeat'
    first
      | assumption | (refine fun (g : Hub) n (_ : Kept K T N g) => ?_)
      | (intro x; refine (fun (_ : Kept K T N x) => ?_) ?_; clear_value x) | (intro x)
      | (lift_lets; intro x; refine (fun (_ : Kept K T N x) => ?_) ?_; clear_value x) | (lift_lets; intro x)
      | apply applyWord_kept | apply frameRewritten_kept | apply refreshUls_kept | apply kept_foldl
      | (apply kept_hub; first | assumption | apply applyWord_kept | apply frameRewritten_kept | apply refreshUls_kept | apply kept_foldl)
      | split | (clear_value *; split)

theorem upsetWord_kept (a w v : Nat) (H : Kept K T N h) : Kept K T N (h.upsetWord a w v) := by
  unfold Hub.upsetWord
  with_reducible repeat'
    first
      | assumption | apply wr_kept | apply putSpoke_kept | apply put_kept
      | (apply kept_hub; first | assumption | apply wr_kept | apply putSpoke_kept | apply put_kept) | split
      | (clear_value *; split)

theorem cfgScrub_kept (a : Nat) (shadow rewrote : Bool) (upset : Option (List (Nat × Nat))) (H : Kept K T N h) :
    Kept K T N (h.cfgScrub a shadow rewrote upset) := by
  unfold Hub.cfgScrub
  with_reducible repeat'
    first
      | assumption | (refine fun (g : Hub) n (_ : Kept K T N g) => ?_)
      | (intro x; refine (fun (_ : Kept K T N x) => ?_) ?_; clear_value x) | (intro x)
      | (lift_lets; intro x; refine (fun (_ : Kept K T N x) => ?_) ?_; clear_value x) | (lift_lets; intro x)
      | apply inc_kept | apply upsetWord_kept | apply refreshBad_kept | apply raise_kept | apply refreshLoaded_kept
      | apply loadFail_kept | apply kept_ite | apply kept_foldl
      | (apply kept_hub; first | assumption | apply inc_kept | apply upsetWord_kept | apply refreshBad_kept | apply raise_kept | apply refreshLoaded_kept | apply loadFail_kept | apply kept_ite | apply kept_foldl)
      | split | (clear_value *; split)

/-! ## Machine/SessionOps.lean -/

theorem setSes_kept (p : Nat) (x : Ses) (H : Kept K T N h) : Kept K T N (h.setSes p x) := by
  unfold Hub.setSes
  with_reducible repeat' first | assumption | (apply kept_hub; first | assumption)

theorem burn_kept (key v : Nat) (H : Kept K T N h) : Kept K T N (h.burn key v) := by
  refine ⟨⟨H.sound.1, H.sound.2.1, ?_⟩, H.keys, H.tap, H.nonces⟩
  have e : ∀ k, k ≠ key → resetWord (SMap.set resetValue h.fuse key v) k = resetWord h.fuse k := by
    intro k n
    simp [resetWord, SMap.get_set, n]
  exact SMap.wf_set_of_agree e H.sound.2.2

theorem putNonce_kept (p : Nat) (ws : List Nat) (H : Kept K T N h) : Kept K T N (h.putNonce p ws) := by
  unfold Hub.putNonce
  with_reducible repeat'
    first
      | assumption | (refine fun (g : Hub) n (_ : Kept K T N g) => ?_) | apply forAll_kept | apply wr_kept

theorem dropNonce_kept (p : Nat) (aged : Bool) (H : Kept K T N h) : Kept K T N (h.dropNonce p aged) := by
  unfold Hub.dropNonce
  with_reducible repeat'
    first
      | assumption | apply setSes_kept | apply putNonce_kept | apply put_kept | apply kept_ite
      | (apply kept_hub; first | assumption | apply setSes_kept | apply putNonce_kept | apply put_kept | apply kept_ite)

theorem sesRefuse_kept (p why : Nat) (H : Kept K T N h) : Kept K T N (h.sesRefuse p why) := by
  unfold Hub.sesRefuse
  with_reducible repeat' first | assumption | apply dropNonce_kept | apply put_kept

theorem challenge_kept (p n : Nat) (H : Kept K T N h) : Kept K T N (h.challenge p n) := by
  unfold Hub.challenge
  split
  · exact sesRefuse_kept _ _ H
  · dsimp only
    generalize nonceSplit (Config.nonce h.nonces).toNat = w
    have H1 := fun x => setSes_kept p x (kept_drawn (putNonce_kept p w H))
    exact kept_ite (H1 _) (put_kept _ _ (H1 _))

theorem sesEnd_kept (p : Nat) (H : Kept K T N h) : Kept K T N (h.sesEnd p) := by
  unfold Hub.sesEnd
  with_reducible repeat'
    first
      | assumption | apply cfgSessionEnd_kept | apply w64_kept | apply put_kept | apply setSes_kept | apply kept_ite
      | (apply kept_hub; first | assumption | apply cfgSessionEnd_kept | apply w64_kept | apply put_kept | apply setSes_kept | apply kept_ite)

theorem sesStart_kept (p n wards : Nat) (H : Kept K T N h) : Kept K T N (h.sesStart p n wards) := by
  unfold Hub.sesStart
  with_reducible repeat'
    first
      | assumption | apply sesEnd_kept | apply put_kept | apply setSes_kept
      | (apply kept_hub; first | assumption | apply sesEnd_kept | apply put_kept | apply setSes_kept)

theorem respond_kept (p : Nat) (H : Kept K T N h) : Kept K T N (h.respond p) := by
  unfold Hub.respond
  with_reducible repeat'
    first
      | assumption | apply sesRefuse_kept | apply dropNonce_kept | apply setSes_kept | apply sesStart_kept
      | apply kept_ite
      | (apply kept_hub; first | assumption | apply sesRefuse_kept | apply dropNonce_kept | apply setSes_kept | apply sesStart_kept | apply kept_ite)

theorem sesClose_kept (p : Nat) (H : Kept K T N h) : Kept K T N (h.sesClose p) := by
  unfold Hub.sesClose
  with_reducible repeat' first | assumption | apply dropNonce_kept | apply sesEnd_kept

theorem nonceExpire_kept (p : Nat) (H : Kept K T N h) : Kept K T N (h.nonceExpire p) := by
  unfold Hub.nonceExpire
  with_reducible repeat' first | assumption | apply dropNonce_kept | apply kept_ite

theorem sesIdle_kept (p : Nat) (H : Kept K T N h) : Kept K T N (h.sesIdle p) := by
  unfold Hub.sesIdle
  with_reducible repeat' first | assumption | apply sesClose_kept | apply put_kept | apply kept_ite

theorem idleLimitWrite_kept (p v : Nat) (H : Kept K T N h) : Kept K T N (h.idleLimitWrite p v) := by
  unfold Hub.idleLimitWrite
  with_reducible repeat' first | assumption | apply set1_kept | apply put_kept | apply kept_ite

theorem bootSession_kept (H : Kept K T N h) : Kept K T N h.bootSession := by
  unfold Hub.bootSession
  with_reducible repeat'
    first
      | assumption | (intro x; refine (fun (_ : Kept K T N x) => ?_) ?_; clear_value x) | (intro x)
      | (lift_lets; intro x; refine (fun (_ : Kept K T N x) => ?_) ?_; clear_value x) | (lift_lets; intro x)
      | apply sesRefuse_kept | apply dropNonce_kept | apply sesStart_kept | apply w64_kept | apply put_kept
      | (apply kept_hub; first | assumption | apply sesRefuse_kept | apply dropNonce_kept | apply sesStart_kept | apply w64_kept | apply put_kept)
      | split | (clear_value *; split)

theorem sesCtrlWrite_kept (p v : Nat) (H : Kept K T N h) : Kept K T N (h.sesCtrlWrite p v) := by
  unfold Hub.sesCtrlWrite
  with_reducible repeat'
    first
      | assumption | apply sesClose_kept | apply respond_kept | apply bootSession_kept | apply challenge_kept
      | apply kept_ite

theorem featAccept_kept (p v : Nat) (H : Kept K T N h) : Kept K T N (h.featAccept p v) := by
  unfold Hub.featAccept
  with_reducible repeat' first | assumption | apply set1_kept | apply w64_kept | apply put_kept | apply kept_ite

theorem keyProgram_kept (n wards : Nat) (H : Kept K T N h) : Kept K T N (h.keyProgram n wards) := by
  unfold Hub.keyProgram
  with_reducible repeat'
    first
      | assumption | apply set1_kept | apply put_kept | apply kept_ite
      | (apply kept_hub; first | assumption | apply set1_kept | apply put_kept | apply kept_ite)

theorem keyRevoke_kept (p n : Nat) (H : Kept K T N h) : Kept K T N (h.keyRevoke p n) := by
  unfold Hub.keyRevoke
  with_reducible repeat' first | assumption | apply set1_kept | apply burn_kept | apply kept_ite

/-! ## Machine/PowerOps.lean -/

theorem chipReset_kept (why : Nat) (H : Kept K T N h) : Kept K T N (h.chipReset why) := by
  unfold Hub.chipReset
  dsimp only
  refine setPState_kept _ (put_kept _ _ (put_kept _ _ (put_kept _ _ (wr_kept _ _ (forAll_kept _ _ (fun g n G => setLane_kept _ _ G) ?_)))))
  exact ⟨⟨by show (0 : Nat) < 2 ^ 48; decide, by show (0 : Nat) < 2; decide, SMap.wf_filter H.sound.2.2⟩,
    H.keys, H.tap, H.nonces⟩

theorem hardReset_kept (H : Kept K T N h) : Kept K T N h.hardReset := by
  unfold Hub.hardReset
  with_reducible repeat'
    first
      | assumption | apply chipReset_kept | apply inc_kept | apply set1_kept | apply kept_ite

theorem resetHeld_kept (why : Nat) (H : Kept K T N h) : Kept K T N (h.resetHeld why) := by
  unfold Hub.resetHeld
  with_reducible repeat'
    first
      | assumption | apply supplyBad_kept | apply chipReset_kept | apply setPState_kept | apply kept_ite

theorem resetPinLow_kept (H : Kept K T N h) : Kept K T N h.resetPinLow := by
  unfold Hub.resetPinLow
  with_reducible repeat'
    first
      | assumption | (intro x; refine (fun (_ : Kept K T N x) => ?_) ?_; clear_value x) | (intro x)
      | (lift_lets; intro x; refine (fun (_ : Kept K T N x) => ?_) ?_; clear_value x) | (lift_lets; intro x)
      | apply w64_kept | apply put_kept | apply resetHeld_kept | apply chipReset_kept
      | (apply kept_hub; first | assumption | apply w64_kept | apply put_kept | apply resetHeld_kept | apply chipReset_kept)
      | split | (clear_value *; split)

theorem wakeNow_kept (why : Nat) (H : Kept K T N h) : Kept K T N (h.wakeNow why) := by
  unfold Hub.wakeNow
  with_reducible repeat'
    first
      | assumption | apply w64_kept | apply put_kept | apply set1_kept | apply chipReset_kept | apply kept_ite
      | (apply kept_hub; first | assumption | apply w64_kept | apply put_kept | apply set1_kept | apply chipReset_kept | apply kept_ite)

theorem wakeHeld_kept (H : Kept K T N h) : Kept K T N h.wakeHeld := by
  unfold Hub.wakeHeld
  with_reducible repeat'
    first
      | assumption | apply supplyBad_kept | apply wakeNow_kept | apply kept_ite
      | (apply kept_hub; first | assumption | apply supplyBad_kept | apply wakeNow_kept | apply kept_ite) | split
      | (clear_value *; split)

theorem setSupplies_kept (bad : Nat) (H : Kept K T N h) : Kept K T N (h.setSupplies bad) := by
  unfold Hub.setSupplies
  with_reducible repeat'
    first
      | assumption | apply put_kept | apply supplyBad_kept
      | (apply kept_hub; first | assumption | apply put_kept | apply supplyBad_kept)

theorem supplyBad_kept (k : Nat) (H : Kept K T N h) : Kept K T N (h.supplyBad k) := by
  unfold Hub.supplyBad
  with_reducible repeat'
    first
      | assumption | (intro x; refine (fun (_ : Kept K T N x) => ?_) ?_; clear_value x) | (intro x)
      | (lift_lets; intro x; refine (fun (_ : Kept K T N x) => ?_) ?_; clear_value x) | (lift_lets; intro x)
      | apply setSupplies_kept | apply chipReset_kept | apply setPState_kept | apply kept_ite
      | (apply kept_hub; first | assumption | apply setSupplies_kept | apply chipReset_kept | apply setPState_kept | apply kept_ite)
      | split | (clear_value *; split)

theorem gazeboPowerUp_kept (H : Kept K T N h) : Kept K T N h.gazeboPowerUp := by
  refine kept_hub (set1_kept _ (wr_kept _ _ ?_))
  exact ⟨⟨H.sound.1, H.sound.2.1, SMap.wf_filter H.sound.2.2⟩, H.keys, H.tap, H.nonces⟩

theorem supplyGood_kept (H : Kept K T N h) : Kept K T N h.supplyGood := by
  unfold Hub.supplyGood
  with_reducible repeat'
    first
      | assumption | apply setSupplies_kept | apply gazeboPowerUp_kept | apply setPState_kept | apply wakeHeld_kept
      | apply kept_ite

theorem supplyMeasure_kept (mv : List Nat) (H : Kept K T N h) : Kept K T N (h.supplyMeasure mv) := by
  unfold Hub.supplyMeasure
  with_reducible repeat'
    first
      | assumption | (refine fun (g : Hub) n (_ : Kept K T N g) => ?_) | apply forAll_kept | apply put_kept

theorem standbyPower_kept (H : Kept K T N h) : Kept K T N h.standbyPower := by
  unfold Hub.standbyPower
  with_reducible repeat' first | assumption | apply monPower_kept | apply heatPower_kept

theorem pwrCfgWritten_kept (was : Nat) (H : Kept K T N h) : Kept K T N (h.pwrCfgWritten was) := by
  unfold Hub.pwrCfgWritten
  with_reducible repeat'
    first
      | assumption | (refine fun (g : Hub) n (_ : Kept K T N g) => ?_) | apply standbyPower_kept | apply forAll_kept
      | apply laneOff_kept | apply setLs_kept | apply startTrain_kept | apply refreshUls_kept | apply kept_ite

theorem enterReady_kept (H : Kept K T N h) : Kept K T N h.enterReady := by
  unfold Hub.enterReady
  with_reducible repeat'
    first
      | assumption | (refine fun (g : Hub) n (_ : Kept K T N g) => ?_) | apply setPState_kept
      | apply standbyPower_kept | apply forAll_kept | apply setCell_kept | apply setChan_kept | apply mark_kept
      | apply setLs_kept | apply startTrain_kept | apply refreshUls_kept | apply calSweep_kept | apply kept_ite
      | (apply kept_hub; first | assumption | apply setPState_kept | apply standbyPower_kept | apply forAll_kept | apply setCell_kept | apply setChan_kept | apply mark_kept | apply setLs_kept | apply startTrain_kept | apply refreshUls_kept | apply calSweep_kept | apply kept_ite)

theorem leaveReady_kept (H : Kept K T N h) : Kept K T N h.leaveReady := by
  unfold Hub.leaveReady
  with_reducible repeat'
    first
      | assumption | (refine fun (g : Hub) n (_ : Kept K T N g) => ?_) | apply forAll_kept | apply calEnd_kept
      | apply restartRings_kept | apply setHitStore_kept | apply setPState_kept | apply standbyPower_kept
      | apply laneOff_kept | apply kept_ite

theorem gotoRefused_kept (H : Kept K T N h) : Kept K T N h.gotoRefused := by
  unfold Hub.gotoRefused
  with_reducible repeat' first | assumption | apply set1_kept

theorem goDone_kept (H : Kept K T N h) : Kept K T N h.goDone := by
  unfold Hub.goDone
  with_reducible repeat' first | assumption | apply put_kept | (apply kept_hub; first | assumption | apply put_kept)

theorem pwrGo_kept (t : Nat) (H : Kept K T N h) : Kept K T N (h.pwrGo t) := by
  unfold Hub.pwrGo
  with_reducible repeat'
    first
      | assumption | apply put_kept | apply gotoRefused_kept | apply kept_ite
      | (apply kept_hub; first | assumption | apply put_kept | apply gotoRefused_kept | apply kept_ite)

theorem pwrTransition_kept (H : Kept K T N h) : Kept K T N h.pwrTransition := by
  unfold Hub.pwrTransition
  with_reducible repeat'
    first
      | assumption | apply goDone_kept | apply gotoRefused_kept | apply leaveReady_kept | apply enterReady_kept
      | apply setPState_kept | apply kept_ite
      | (apply kept_hub; first | assumption | apply goDone_kept | apply gotoRefused_kept | apply leaveReady_kept | apply enterReady_kept | apply setPState_kept | apply kept_ite)
      | split | (clear_value *; split)

theorem goGivesWay_kept (same : Bool) (H : Kept K T N h) : Kept K T N (h.goGivesWay same) := by
  unfold Hub.goGivesWay
  with_reducible repeat'
    first
      | assumption | apply goDone_kept | apply gotoRefused_kept | apply kept_ite
      | (apply kept_hub; first | assumption | apply goDone_kept | apply gotoRefused_kept | apply kept_ite) | split
      | (clear_value *; split)

theorem runStart_kept (H : Kept K T N h) : Kept K T N h.runStart := by
  unfold Hub.runStart
  with_reducible repeat'
    first
      | assumption | apply goGivesWay_kept | apply setPState_kept | apply gotoRefused_kept
      | (apply kept_hub; first | assumption | apply goGivesWay_kept | apply setPState_kept | apply gotoRefused_kept)
      | split | (clear_value *; split)

theorem runStop_kept (H : Kept K T N h) : Kept K T N h.runStop := by
  unfold Hub.runStop
  with_reducible repeat'
    first
      | assumption | (intro x; refine (fun (_ : Kept K T N x) => ?_) ?_; clear_value x) | (intro x)
      | (lift_lets; intro x; refine (fun (_ : Kept K T N x) => ?_) ?_; clear_value x) | (lift_lets; intro x)
      | apply goGivesWay_kept | apply gotoRefused_kept
      | (apply kept_hub; first | assumption | apply goGivesWay_kept | apply gotoRefused_kept) | split
      | (clear_value *; split)

theorem runStopTaken_kept (H : Kept K T N h) : Kept K T N h.runStopTaken := by
  unfold Hub.runStopTaken
  with_reducible repeat'
    first
      | assumption | (intro x; refine (fun (_ : Kept K T N x) => ?_) ?_; clear_value x) | (intro x)
      | (lift_lets; intro x; refine (fun (_ : Kept K T N x) => ?_) ?_; clear_value x) | (lift_lets; intro x)
      | apply setPState_kept | apply kept_ite
      | (apply kept_hub; first | assumption | apply setPState_kept | apply kept_ite) | split
      | (clear_value *; split)

theorem logReplay_kept (n : Nat) (H : Kept K T N h) : Kept K T N (Hub.logReplay n h) := by
  induction n generalizing h with
  | zero => exact H
  | succ n ih =>
    unfold Hub.logReplay
    dsimp only
    split
    · exact ih (kept_hub (raiseGzb_kept _ _ _ _ H))
    · exact H

theorem bootEnd_kept (why : Nat) (H : Kept K T N h) : Kept K T N (h.bootEnd why) := by
  unfold Hub.bootEnd
  with_reducible repeat'
    first
      | assumption | (refine fun (g : Hub) n (_ : Kept K T N g) => ?_) | apply sesEnd_kept | apply put_kept
      | apply wr_kept | apply setPState_kept | apply standbyPower_kept | apply forAll_kept | apply laneOff_kept
      | apply logReplay_kept | apply kept_ite
      | (apply kept_hub; first | assumption | apply sesEnd_kept | apply put_kept | apply wr_kept | apply setPState_kept | apply standbyPower_kept | apply forAll_kept | apply laneOff_kept | apply logReplay_kept | apply kept_ite)

theorem bootComplete_kept (image : Bool) (H : Kept K T N h) : Kept K T N (h.bootComplete image) := by
  unfold Hub.bootComplete
  with_reducible repeat' first | assumption | apply bootEnd_kept | apply kept_ite

theorem bootTimeout_kept (H : Kept K T N h) : Kept K T N h.bootTimeout := by
  unfold Hub.bootTimeout
  with_reducible repeat' first | assumption | apply cfgDiscard_kept | apply bootEnd_kept | apply kept_ite

theorem clearLog_kept (H : Kept K T N h) : Kept K T N h.clearLog := by
  unfold Hub.clearLog
  with_reducible repeat'
    first
      | assumption | (refine fun (g : Hub) n (_ : Kept K T N g) => ?_) | apply wr_kept | apply forAll_kept
      | apply w64_kept

theorem gzbEnter_kept (H : Kept K T N h) : Kept K T N h.gzbEnter := by
  unfold Hub.gzbEnter
  with_reducible repeat'
    first
      | assumption | apply set1_kept | apply put_kept | apply kept_ite
      | (apply kept_hub; first | assumption | apply set1_kept | apply put_kept | apply kept_ite)

theorem gzbEntered_kept (H : Kept K T N h) : Kept K T N h.gzbEntered := by
  unfold Hub.gzbEntered
  with_reducible repeat'
    first
      | assumption | (refine fun (g : Hub) n (_ : Kept K T N g) => ?_) | apply w64_kept | apply clearLog_kept
      | apply put_kept | apply forAll_kept | apply setLane_kept | apply setPState_kept | apply standbyPower_kept
      | apply wakeHeld_kept
      | (apply kept_hub; first | assumption | apply w64_kept | apply clearLog_kept | apply put_kept | apply forAll_kept | apply setLane_kept | apply setPState_kept | apply standbyPower_kept | apply wakeHeld_kept)

theorem gzbEntering_kept (H : Kept K T N h) : Kept K T N h.gzbEntering := by
  unfold Hub.gzbEntering
  with_reducible repeat'
    first
      | assumption | apply gzbEntered_kept | apply kept_ite
      | (apply kept_hub; first | assumption | apply gzbEntered_kept | apply kept_ite) | split
      | (clear_value *; split)

theorem gzbMonPulse_kept (H : Kept K T N h) : Kept K T N h.gzbMonPulse := by
  unfold Hub.gzbMonPulse
  with_reducible repeat' first | assumption | apply kept_ite | (apply kept_hub; first | assumption | apply kept_ite)

theorem wakeBy_kept (why : Nat) (H : Kept K T N h) : Kept K T N (h.wakeBy why) := by
  unfold Hub.wakeBy
  with_reducible repeat' first | assumption | apply kept_ite | (apply kept_hub; first | assumption | apply kept_ite)

theorem gzbAlarm_kept (kind source : Nat) (wakes : Bool) (H : Kept K T N h) : Kept K T N (h.gzbAlarm kind source
    wakes) := by
  unfold Hub.gzbAlarm
  with_reducible repeat'
    first
      | assumption | apply incSat_kept | apply w64_kept | apply wr_kept | apply put_kept | apply wakeBy_kept
      | apply kept_ite

theorem gzbComparator_kept (w code : Nat) (H : Kept K T N h) : Kept K T N (h.gzbComparator w code) := by
  unfold Hub.gzbComparator
  with_reducible repeat' first | assumption | apply winCompare_kept | apply gzbAlarm_kept | apply kept_ite

theorem gzbCompliance_kept (e : Nat) (lost limit : Bool) (H : Kept K T N h) : Kept K T N (h.gzbCompliance e lost
    limit) := by
  unfold Hub.gzbCompliance
  with_reducible repeat'
    first
      | assumption | apply put_kept | apply set1_kept | apply inc_kept | apply gzbAlarm_kept | apply kept_ite

theorem gzbMonEvaluate_kept (codes : List Nat) (lost limit : Nat) (H : Kept K T N h) : Kept K T N (h.gzbMonEvaluate
    codes lost limit) := by
  unfold Hub.gzbMonEvaluate
  with_reducible repeat'
    first
      | assumption | (refine fun (g : Hub) n (_ : Kept K T N g) => ?_) | apply forAll_kept
      | apply gzbComparator_kept | apply gzbCompliance_kept | apply kept_ite
      | (apply kept_hub; first | assumption | apply forAll_kept | apply gzbComparator_kept | apply gzbCompliance_kept | apply kept_ite)

theorem oscStops_kept (H : Kept K T N h) : Kept K T N h.oscStops := by
  unfold Hub.oscStops
  with_reducible repeat' first | assumption | (apply kept_hub; first | assumption)

theorem wakeSource_kept (why : Nat) (H : Kept K T N h) : Kept K T N (h.wakeSource why) := by
  unfold Hub.wakeSource
  with_reducible repeat'
    first
      | assumption | apply wakeBy_kept | apply oscStops_kept | apply kept_ite
      | (apply kept_hub; first | assumption | apply wakeBy_kept | apply oscStops_kept | apply kept_ite) | split
      | (clear_value *; split)

theorem gazeboWake_kept (why : Nat) (H : Kept K T N h) : Kept K T N (h.gazeboWake why) := by
  unfold Hub.gazeboWake
  with_reducible repeat' first | assumption | apply wakeSource_kept | apply wakeHeld_kept | apply kept_ite

theorem wakeBroken_kept (d : Nat) (H : Kept K T N h) : Kept K T N (h.wakeBroken d) := by
  unfold Hub.wakeBroken
  with_reducible repeat' first | assumption | apply kept_ite | (apply kept_hub; first | assumption | apply kept_ite)

theorem wakeListen_kept (d : Nat) (H : Kept K T N h) : Kept K T N (h.wakeListen d) := by
  unfold Hub.wakeListen
  with_reducible repeat'
    first
      | assumption | apply wakeBroken_kept | apply kept_ite
      | (apply kept_hub; first | assumption | apply wakeBroken_kept | apply kept_ite)

theorem wakeFrame_kept (d : Nat) (H : Kept K T N h) : Kept K T N (h.wakeFrame d) := by
  unfold Hub.wakeFrame
  with_reducible repeat'
    first
      | assumption | apply wakeBy_kept | apply kept_ite
      | (apply kept_hub; first | assumption | apply wakeBy_kept | apply kept_ite)

theorem gzbStop_kept (H : Kept K T N h) : Kept K T N h.gzbStop := by
  unfold Hub.gzbStop
  with_reducible repeat' first | assumption | apply oscStops_kept | apply set1_kept | apply kept_ite

theorem gzbOscReturn_kept (H : Kept K T N h) : Kept K T N h.gzbOscReturn := by
  unfold Hub.gzbOscReturn
  with_reducible repeat' first | assumption | (apply kept_hub; first | assumption)

theorem resetUse_kept (j : Nat) (H : Kept K T N h) : Kept K T N (h.resetUse j) := by
  unfold Hub.resetUse
  with_reducible repeat'
    first
      | assumption | apply beginEnding_kept | apply closeDwell_kept | apply dropDiag_kept | apply openHinge_kept
      | apply spareFree_kept | apply setBlk_kept | apply put_kept | apply kept_ite
      | (apply kept_hub; first | assumption | apply beginEnding_kept | apply closeDwell_kept | apply dropDiag_kept | apply openHinge_kept | apply spareFree_kept | apply setBlk_kept | apply put_kept | apply kept_ite)

theorem blockReset_kept (j : Nat) (H : Kept K T N h) : Kept K T N (h.blockReset j) := by
  unfold Hub.blockReset
  with_reducible repeat'
    first
      | assumption | (refine fun (g : Hub) n (_ : Kept K T N g) => ?_) | apply restartRings_kept | apply forAll_kept
      | apply setHitStore_kept | apply put_kept | apply setBlk_kept | apply setChan_kept | apply resetUse_kept
      | (apply kept_hub; first | assumption | apply restartRings_kept | apply forAll_kept | apply setHitStore_kept | apply put_kept | apply setBlk_kept | apply setChan_kept | apply resetUse_kept)

theorem blockResetGo_kept (j : Nat) (H : Kept K T N h) : Kept K T N (h.blockResetGo j) := by
  unfold Hub.blockResetGo
  with_reducible repeat'
    first
      | assumption | apply blockReset_kept | apply setBlk_kept | apply put_kept | apply kept_ite
      | (apply kept_hub; first | assumption | apply blockReset_kept | apply setBlk_kept | apply put_kept | apply kept_ite)

theorem resetsOver_kept (H : Kept K T N h) : Kept K T N h.resetsOver := by
  unfold Hub.resetsOver
  with_reducible repeat'
    first
      | assumption | (refine fun (g : Hub) n (_ : Kept K T N g) => ?_) | apply forAll_kept | apply put_kept
      | apply kept_ite

theorem regionResetEffect_kept (r : Nat) (H : Kept K T N h) : Kept K T N (h.regionResetEffect r) := by
  unfold Hub.regionResetEffect
  with_reducible repeat'
    first
      | assumption | (refine fun (g : Hub) n (_ : Kept K T N g) => ?_) | apply setRgn_kept | apply put_kept
      | apply regionDiscard_kept | apply forAll_kept | apply blockReset_kept | apply kept_ite
      | (apply kept_hub; first | assumption | apply setRgn_kept | apply put_kept | apply regionDiscard_kept | apply forAll_kept | apply blockReset_kept | apply kept_ite)

theorem cellReset_kept (j c : Nat) (H : Kept K T N h) : Kept K T N (h.cellReset j c) := by
  unfold Hub.cellReset
  with_reducible repeat'
    first
      | assumption | (intro x; refine (fun (_ : Kept K T N x) => ?_) ?_; clear_value x) | (intro x)
      | (lift_lets; intro x; refine (fun (_ : Kept K T N x) => ?_) ?_; clear_value x) | (lift_lets; intro x)
      | apply setCell_kept | apply setTdc_kept | apply cdDiscard_kept | apply mark_kept | apply kept_ite
      | (apply kept_hub; first | assumption | apply setCell_kept | apply setTdc_kept | apply cdDiscard_kept | apply mark_kept | apply kept_ite)
      | split | (clear_value *; split)

theorem cellResetGo_kept (v : Nat) (H : Kept K T N h) : Kept K T N (h.cellResetGo v) := by
  unfold Hub.cellResetGo
  with_reducible repeat'
    first
      | assumption | apply set1_kept | apply cellReset_kept | apply put_kept | apply kept_ite
      | (apply kept_hub; first | assumption | apply set1_kept | apply cellReset_kept | apply put_kept | apply kept_ite)

theorem pwrCtrlWrite_kept (v : Nat) (H : Kept K T N h) : Kept K T N (h.pwrCtrlWrite v) := by
  unfold Hub.pwrCtrlWrite
  with_reducible repeat'
    first
      | assumption | apply set1_kept | apply chipReset_kept | apply pwrGo_kept | apply kept_ite

theorem excBlankEnd_kept (e : Nat) (H : Kept K T N h) : Kept K T N (h.excBlankEnd e) := by
  unfold Hub.excBlankEnd
  with_reducible repeat' first | assumption | apply put_kept

theorem excReturn_kept (e : Nat) (H : Kept K T N h) : Kept K T N (h.excReturn e) := by
  unfold Hub.excReturn
  with_reducible repeat' first | assumption | apply put_kept

theorem ctlOscSwap_kept (H : Kept K T N h) : Kept K T N h.ctlOscSwap := by
  unfold Hub.ctlOscSwap
  with_reducible repeat' first | assumption | apply set1_kept

/-! ## Machine/UplinkOps.lean -/

theorem takeSeq_kept (l stream source : Nat) (H : Kept K T N h) : Kept K T N (h.takeSeq l stream source).2 :=
  setUl_kept _ _ H

theorem markStarted_kept (k : Nat) (u : TxUnit) (H : Kept K T N h) : Kept K T N (h.markStarted k u) := by
  unfold Hub.markStarted
  with_reducible repeat'
    first
      | assumption | apply setSlot_kept | apply setRgn_kept | apply setLeaf_kept | apply kept_ite
      | (apply kept_hub; first | assumption | apply setSlot_kept | apply setRgn_kept | apply setLeaf_kept | apply kept_ite)
      | split | (clear_value *; split)

theorem progress_kept (l k : Nat) (open_ : Bool) (n : Nat) (ended : Bool) (H : Kept K T N h) : Kept K T N
    (h.progress l k open_ n ended) := by
  unfold Hub.progress
  with_reducible repeat'
    first
      | assumption | (intro x; refine (fun (_ : Kept K T N x) => ?_) ?_; clear_value x) | (intro x)
      | (lift_lets; intro x; refine (fun (_ : Kept K T N x) => ?_) ?_; clear_value x) | (lift_lets; intro x)
      | apply setTx_kept | apply markStarted_kept | apply kept_ite
      | (apply kept_hub; first | assumption | apply setTx_kept | apply markStarted_kept | apply kept_ite) | split
      | (clear_value *; split)

theorem unitFrame_kept (l k : Nat) (u : TxUnit) (H : Kept K T N h) : Kept K T N (h.unitFrame l k u).2 := by
  have H1 := takeSeq_kept l u.stream u.source H
  unfold Hub.unitFrame
  dsimp only
  split
  · exact progress_kept _ _ _ _ _ H1
  · split
    · exact progress_kept _ _ _ _ _ (progress_kept _ _ _ _ _ H1)
    · exact progress_kept _ _ _ _ _ H1

theorem serviceFrame_kept (l : Nat) (words : List Nat) (H : Kept K T N h) :
    Kept K T N (h.serviceFrame l words).2 :=
  takeSeq_kept l 14 0 H

theorem liveFrame_kept (l : Nat) (H : Kept K T N h) : Kept K T N (h.liveFrame l).2 := by
  unfold Hub.liveFrame
  dsimp only
  split
  · exact serviceFrame_kept _ _ (setUl_kept _ _ H)
  · split
    · exact unitFrame_kept _ _ _ (setUl_kept _ _ H)
    · exact H

theorem slotFrame_kept (l : Nat) (H : Kept K T N h) : Kept K T N (h.slotFrame l).2 := by
  unfold Hub.slotFrame
  split
  · split
    · exact setUl_kept _ _ (liveFrame_kept l H)
    · split
      · exact nextReplay_kept _ (setUl_kept _ _ H)
      · exact setUl_kept _ _ H
  · exact liveFrame_kept l H

theorem frameSent_kept (l : Nat) (f : List Nat) (H : Kept K T N h) : Kept K T N (h.frameSent l f) := by
  unfold Hub.frameSent
  with_reducible repeat'
    first
      | assumption | apply inc64_kept | apply inc_kept | apply setUl_kept | apply transmit_kept
      | (apply kept_hub; first | assumption | apply inc64_kept | apply inc_kept | apply setUl_kept | apply transmit_kept)

theorem uplinkLoop_kept (l : Nat) (H : Kept K T N h) : Kept K T N (h.uplinkLoop l) := by
  unfold Hub.uplinkLoop
  with_reducible repeat'
    first
      | assumption | apply patternFrame_kept | apply frameSent_kept | apply transmit_kept | apply loopCheck_kept
      | apply kept_ite

theorem numberFrame_kept (l : Nat) (f : List Nat) (H : Kept K T N h) : Kept K T N (h.numberFrame l f) := by
  unfold Hub.numberFrame
  with_reducible repeat'
    first
      | assumption | apply setUl_kept | apply put_kept
      | (apply kept_hub; first | assumption | apply setUl_kept | apply put_kept)

theorem uplinkFrame_kept (l : Nat) (H : Kept K T N h) : Kept K T N (h.uplinkFrame l) := by
  unfold Hub.uplinkFrame
  with_reducible repeat'
    first
      | assumption | (intro x; refine (fun (_ : Kept K T N x) => ?_) ?_; clear_value x) | (intro x)
      | (lift_lets; intro x; refine (fun (_ : Kept K T N x) => ?_) ?_; clear_value x) | (lift_lets; intro x)
      | apply setLane_kept | apply slotFrame_kept | apply frameSent_kept | apply numberFrame_kept
      | apply serviceFrame_kept | apply uplinkLoop_kept
      | (apply kept_hub; first | assumption | apply setLane_kept | apply slotFrame_kept | apply frameSent_kept | apply numberFrame_kept | apply serviceFrame_kept | apply uplinkLoop_kept)
      | split | (clear_value *; split)

theorem rttDownlink_kept (H : Kept K T N h) : Kept K T N h.rttDownlink := by
  unfold Hub.rttDownlink
  dsimp only
  apply kept_ite H
  split
  · exact put_kept _ _ (put_kept _ _ H)
  · exact put_kept _ _ (put_kept _ _ (kept_hub (setUl_kept _ _ H)))

theorem rttSpokeTurn_kept (H : Kept K T N h) : Kept K T N h.rttSpokeTurn := by
  unfold Hub.rttSpokeTurn
  with_reducible repeat'
    first
      | assumption | (intro x; refine (fun (_ : Kept K T N x) => ?_) ?_; clear_value x) | (intro x)
      | (lift_lets; intro x; refine (fun (_ : Kept K T N x) => ?_) ?_; clear_value x) | (lift_lets; intro x)
      | apply setLeaf_kept | (apply kept_hub; first | assumption | apply setLeaf_kept) | split
      | (clear_value *; split)

theorem rttStart_kept (H : Kept K T N h) : Kept K T N h.rttStart := by
  unfold Hub.rttStart
  with_reducible repeat'
    first
      | assumption | apply rttDownlink_kept | apply rttSpokeTurn_kept | apply kept_ite
      | (apply kept_hub; first | assumption | apply rttDownlink_kept | apply rttSpokeTurn_kept | apply kept_ite)

theorem rttReply_kept (ps : Nat) (H : Kept K T N h) : Kept K T N (h.rttReply ps) := by
  unfold Hub.rttReply
  with_reducible repeat'
    first
      | assumption | (intro x; refine (fun (_ : Kept K T N x) => ?_) ?_; clear_value x) | (intro x)
      | (lift_lets; intro x; refine (fun (_ : Kept K T N x) => ?_) ?_; clear_value x) | (lift_lets; intro x)
      | apply wr_kept | apply put_kept | apply setLeaf_kept | apply recomputeOffset_kept | apply leafPresentNow_kept
      | (apply kept_hub; first | assumption | apply wr_kept | apply put_kept | apply setLeaf_kept | apply recomputeOffset_kept | apply leafPresentNow_kept)
      | split | (clear_value *; split)

theorem rttTimeout_kept (H : Kept K T N h) : Kept K T N h.rttTimeout := by
  unfold Hub.rttTimeout
  with_reducible repeat'
    first
      | assumption | apply inc_kept | apply set1_kept | apply kept_ite
      | (apply kept_hub; first | assumption | apply inc_kept | apply set1_kept | apply kept_ite)

theorem echo_kept (n ps : Nat) (H : Kept K T N h) : Kept K T N (h.echo n ps) := by
  unfold Hub.echo
  with_reducible repeat' first | assumption | apply rttReply_kept | apply kept_ite

theorem rttRestartAll_kept (H : Kept K T N h) : Kept K T N h.rttRestartAll := by
  unfold Hub.rttRestartAll
  with_reducible repeat' first | assumption | (apply kept_hub; first | assumption)

/-! ## Machine/KeeperOps.lean -/

theorem setKeeper_kept (k : Nat) (x : Keeper) (H : Kept K T N h) : Kept K T N (h.setKeeper k x) := by
  unfold Hub.setKeeper
  with_reducible repeat' first | assumption | (apply kept_hub; first | assumption)

theorem refreshStandby_kept (H : Kept K T N h) : Kept K T N h.refreshStandby := by
  unfold Hub.refreshStandby
  with_reducible repeat' first | assumption | apply put_kept | (apply kept_hub; first | assumption | apply put_kept)

theorem keeperTo_kept (k st : Nat) (H : Kept K T N h) : Kept K T N (h.keeperTo k st) := by
  unfold Hub.keeperTo
  with_reducible repeat' first | assumption | apply put_kept | apply refreshStandby_kept

theorem updFail_kept (why : Nat) (H : Kept K T N h) : Kept K T N (h.updFail why) := by
  unfold Hub.updFail
  with_reducible repeat' first | assumption | apply put_kept | (apply kept_hub; first | assumption | apply put_kept)

theorem keeperClear_kept (k area : Nat) (H : Kept K T N h) : Kept K T N (h.keeperClear k area) := by
  unfold Hub.keeperClear
  with_reducible repeat'
    first
      | assumption | apply wr_kept | apply put_kept | apply setKeeper_kept | apply refreshStandby_kept
      | (apply kept_hub; first | assumption | apply wr_kept | apply put_kept | apply setKeeper_kept | apply refreshStandby_kept)

theorem provingFails_kept (k : Nat) (H : Kept K T N h) : Kept K T N (h.provingFails k) := by
  unfold Hub.provingFails
  with_reducible repeat'
    first
      | assumption | apply updFail_kept | apply keeperClear_kept | apply swap_kept | apply kept_ite

theorem updTakeover_kept (H : Kept K T N h) : Kept K T N h.updTakeover := by
  unfold Hub.updTakeover
  with_reducible repeat' first | assumption | apply updFail_kept | apply kept_ite

theorem keeperFault_kept (k why : Nat) (H : Kept K T N h) : Kept K T N (h.keeperFault k why) := by
  unfold Hub.keeperFault
  with_reducible repeat'
    first
      | assumption | apply put_kept | apply keeperTo_kept | apply provingFails_kept | apply kept_ite

theorem keeperHalt_kept (k : Nat) (instr : Bool) (H : Kept K T N h) : Kept K T N (h.keeperHalt k instr) := by
  unfold Hub.keeperHalt
  with_reducible repeat' first | assumption | apply incSat_kept | apply keeperFault_kept | apply kept_ite

theorem checkpointStart_kept (H : Kept K T N h) : Kept K T N h.checkpointStart := by
  unfold Hub.checkpointStart
  with_reducible repeat' first | assumption | apply kept_ite | (apply kept_hub; first | assumption | apply kept_ite)

theorem keeperSync_kept (k : Nat) (H : Kept K T N h) : Kept K T N (h.keeperSync k) := by
  unfold Hub.keeperSync
  with_reducible repeat'
    first
      | assumption | apply setKeeper_kept | apply keeperTo_kept | apply checkpointStart_kept
      | (apply kept_hub; first | assumption | apply setKeeper_kept | apply keeperTo_kept | apply checkpointStart_kept)

theorem instrCheck_kept (k : Nat) (pass : Bool) (corrected : Nat) (H : Kept K T N h) : Kept K T N (h.instrCheck k
    pass corrected) := by
  unfold Hub.instrCheck
  with_reducible repeat'
    first
      | assumption | apply add_kept | apply keeperHalt_kept | apply keeperTo_kept | apply kept_ite

theorem marchStep_kept (k : Nat) (bad : Bool) (corrected : Nat) (H : Kept K T N h) : Kept K T N (h.marchStep k bad
    corrected) := by
  unfold Hub.marchStep
  with_reducible repeat'
    first
      | assumption | apply add_kept | apply setKeeper_kept | apply inc_kept | apply incSat_kept
      | apply keeperFault_kept | apply kept_ite
      | (apply kept_hub; first | assumption | apply add_kept | apply setKeeper_kept | apply inc_kept | apply incSat_kept | apply keeperFault_kept | apply kept_ite)

theorem takeHasp_kept (k : Nat) (H : Kept K T N h) : Kept K T N (h.takeHasp k) := by
  unfold Hub.takeHasp
  with_reducible repeat'
    first
      | assumption | apply put_kept | apply keeperTo_kept
      | (apply kept_hub; first | assumption | apply put_kept | apply keeperTo_kept)

theorem fence_kept (k : Nat) (H : Kept K T N h) : Kept K T N (h.fence k) := by
  unfold Hub.fence
  with_reducible repeat'
    first
      | assumption | apply put_kept | apply set1_kept | apply keeperTo_kept | apply kept_ite

theorem swapOver_kept (H : Kept K T N h) : Kept K T N h.swapOver := by
  unfold Hub.swapOver
  with_reducible repeat'
    first
      | assumption | apply swap_kept | apply put_kept
      | (apply kept_hub; first | assumption | apply swap_kept | apply put_kept)

theorem takeoverSwap_kept (o : Nat) (H : Kept K T N h) : Kept K T N (h.takeoverSwap o) := by
  unfold Hub.takeoverSwap
  with_reducible repeat'
    first
      | assumption | apply swap_kept | apply swapOver_kept | apply keeperClear_kept | apply kept_ite

theorem grantClaim_kept (k : Nat) (H : Kept K T N h) : Kept K T N (h.grantClaim k) := by
  unfold Hub.grantClaim
  with_reducible repeat'
    first
      | assumption | (intro x; refine (fun (_ : Kept K T N x) => ?_) ?_; clear_value x) | (intro x)
      | (lift_lets; intro x; refine (fun (_ : Kept K T N x) => ?_) ?_; clear_value x) | (lift_lets; intro x)
      | apply takeHasp_kept | apply fence_kept | apply inc_kept | apply w64_kept | apply updTakeover_kept
      | apply cfgTakeover_kept | apply raise_kept | apply takeoverSwap_kept
      | (apply kept_hub; first | assumption | apply takeHasp_kept | apply fence_kept | apply inc_kept | apply w64_kept | apply updTakeover_kept | apply cfgTakeover_kept | apply raise_kept | apply takeoverSwap_kept)
      | split | (clear_value *; split)

theorem haspClaim_kept (k : Nat) (H : Kept K T N h) : Kept K T N (h.haspClaim k) := by
  unfold Hub.haspClaim
  with_reducible repeat'
    first
      | assumption | apply grantClaim_kept | apply set1_kept | apply kept_ite
      | (apply kept_hub; first | assumption | apply grantClaim_kept | apply set1_kept | apply kept_ite)

theorem haspClaims_kept (a b : Bool) (H : Kept K T N h) : Kept K T N (h.haspClaims a b) := by
  unfold Hub.haspClaims
  with_reducible repeat' first | assumption | apply haspClaim_kept | apply kept_ite

theorem keepaliveAbsent_kept (beat : Bool) (H : Kept K T N h) : Kept K T N (h.keepaliveAbsent beat) := by
  unfold Hub.keepaliveAbsent
  with_reducible repeat'
    first
      | assumption | (intro x; refine (fun (_ : Kept K T N x) => ?_) ?_; clear_value x) | (intro x)
      | (lift_lets; intro x; refine (fun (_ : Kept K T N x) => ?_) ?_; clear_value x) | (lift_lets; intro x)
      | apply put_kept | apply raise_kept | apply kept_ite
      | (apply kept_hub; first | assumption | apply put_kept | apply raise_kept | apply kept_ite) | split
      | (clear_value *; split)

theorem heartbeatAbsent_kept (k : Nat) (H : Kept K T N h) : Kept K T N (h.heartbeatAbsent k) := by
  unfold Hub.heartbeatAbsent
  with_reducible repeat'
    first
      | assumption | apply put_kept | apply raise_kept | apply kept_ite
      | (apply kept_hub; first | assumption | apply put_kept | apply raise_kept | apply kept_ite)

theorem pathClear_kept (hasp : Bool) (H : Kept K T N h) : Kept K T N (h.pathClear hasp) := by
  unfold Hub.pathClear
  with_reducible repeat'
    first
      | assumption | apply put_kept | apply kept_ite
      | (apply kept_hub; first | assumption | apply put_kept | apply kept_ite)

theorem keepaliveTick_kept (H : Kept K T N h) : Kept K T N h.keepaliveTick := by
  unfold Hub.keepaliveTick
  with_reducible repeat'
    first
      | assumption | apply put_kept | apply kept_ite
      | (apply kept_hub; first | assumption | apply put_kept | apply kept_ite)

theorem takeoverDone_kept (H : Kept K T N h) : Kept K T N h.takeoverDone := by
  unfold Hub.takeoverDone
  with_reducible repeat' first | assumption | apply kept_ite | (apply kept_hub; first | assumption | apply kept_ite)

theorem journalTaken_kept (gap : Bool) (H : Kept K T N h) : Kept K T N (h.journalTaken gap) := by
  unfold Hub.journalTaken
  with_reducible repeat'
    first
      | assumption | (intro x; refine (fun (_ : Kept K T N x) => ?_) ?_; clear_value x) | (intro x)
      | (lift_lets; intro x; refine (fun (_ : Kept K T N x) => ?_) ?_; clear_value x) | (lift_lets; intro x)
      | apply keeperSync_kept | apply kept_ite
      | (apply kept_hub; first | assumption | apply keeperSync_kept | apply kept_ite) | split
      | (clear_value *; split)

theorem journalEntry_kept (gap : Bool) (H : Kept K T N h) : Kept K T N (h.journalEntry gap) := by
  unfold Hub.journalEntry
  with_reducible repeat'
    first
      | assumption | (intro x; refine (fun (_ : Kept K T N x) => ?_) ?_; clear_value x) | (intro x)
      | (lift_lets; intro x; refine (fun (_ : Kept K T N x) => ?_) ?_; clear_value x) | (lift_lets; intro x)
      | apply journalTaken_kept | apply put_kept | apply incSat_kept | apply checkpointStart_kept
      | apply qCross_kept | apply kept_ite
      | (apply kept_hub; first | assumption | apply journalTaken_kept | apply put_kept | apply incSat_kept | apply checkpointStart_kept | apply qCross_kept | apply kept_ite)
      | split | (clear_value *; split)

theorem mirrorCheck_kept (k : Nat) (same : Bool) (H : Kept K T N h) : Kept K T N (h.mirrorCheck k same) := by
  unfold Hub.mirrorCheck
  with_reducible repeat'
    first
      | assumption | apply incSat_kept | apply setKeeper_kept | apply keeperFault_kept | apply kept_ite
      | (apply kept_hub; first | assumption | apply incSat_kept | apply setKeeper_kept | apply keeperFault_kept | apply kept_ite)

theorem swapNow_kept (k o : Nat) (H : Kept K T N h) : Kept K T N (h.swapNow k o) := by
  have H1 : Kept K T N { h with kpr := { h.kpr with swap := false } } := kept_hub H
  have H2 := takeHasp_kept k (put_kept HASP_STATUS_OWNER 0 (put_kept (kState o) kSyncing (put_kept KPR_CTRL_SWAP 0 H1)))
  unfold Hub.swapNow
  exact kept_ite (keeperClear_kept _ _ H2) (keeperSync_kept _ H2)

theorem checkpointCommit_kept (crcOk same : Bool) (H : Kept K T N h) : Kept K T N (h.checkpointCommit crcOk same) := by
  have H1 : Kept K T N { h with kpr := { h.kpr with ckpt := none } } := kept_hub H
  unfold Hub.checkpointCommit
  split
  · rename_i g o _ _
    dsimp only
    have H2 := put_kept KPR_JOURNAL_LEVEL h.kpr.since (wr_kept KPR_CKPT_GEN.addr g H1)
    refine kept_ite H1 ?_
    generalize ({ h with kpr := { h.kpr with ckpt := none } }.wr KPR_CKPT_GEN.addr g).put KPR_JOURNAL_LEVEL h.kpr.since = b at H2 ⊢
    have H3 := kept_ite (c := b.kSt (1 - o) = kSyncing)
      (setKeeper_kept (1 - o) { b.keeper (1 - o) with synced := true } H2) (mirrorCheck_kept (1 - o) same H2)
    exact kept_ite (swapNow_kept _ _ H3) H3
  · exact H

theorem standbyLost_kept (H : Kept K T N h) : Kept K T N h.standbyLost := by
  unfold Hub.standbyLost
  with_reducible repeat'
    first
      | assumption | (intro x; refine (fun (_ : Kept K T N x) => ?_) ?_; clear_value x) | (intro x)
      | (lift_lets; intro x; refine (fun (_ : Kept K T N x) => ?_) ?_; clear_value x) | (lift_lets; intro x)
      | apply flushQueue_kept | apply set1_kept | apply raise_kept
      | (apply kept_hub; first | assumption | apply flushQueue_kept | apply set1_kept | apply raise_kept) | split
      | (clear_value *; split)

theorem keeperReset_kept (k : Nat) (H : Kept K T N h) : Kept K T N (h.keeperReset k) := by
  unfold Hub.keeperReset
  with_reducible repeat'
    first
      | assumption | apply set1_kept | apply provingFails_kept | apply keeperClear_kept | apply kept_ite

theorem keeperBooted_kept (k : Nat) (image : Option Nat) (H : Kept K T N h) : Kept K T N (h.keeperBooted k image) :=
    by
  unfold Hub.keeperBooted
  with_reducible repeat'
    first
      | assumption | (refine fun (g : Hub) n (_ : Kept K T N g) => ?_)
      | (intro x; refine (fun (_ : Kept K T N x) => ?_) ?_; clear_value x) | (intro x)
      | (lift_lets; intro x; refine (fun (_ : Kept K T N x) => ?_) ?_; clear_value x) | (lift_lets; intro x)
      | apply put_kept | apply keeperTo_kept | apply provingFails_kept | apply wr_kept | apply grantClaim_kept
      | apply keeperSync_kept | apply kept_ite | apply kept_foldl
      | (apply kept_hub; first | assumption | apply put_kept | apply keeperTo_kept | apply provingFails_kept | apply wr_kept | apply grantClaim_kept | apply keeperSync_kept | apply kept_ite | apply kept_foldl)
      | split | (clear_value *; split)

theorem rejoinTimeout_kept (k : Nat) (H : Kept K T N h) : Kept K T N (h.rejoinTimeout k) := by
  unfold Hub.rejoinTimeout
  with_reducible repeat'
    first
      | assumption | apply put_kept | apply set1_kept | apply keeperTo_kept | apply provingFails_kept
      | apply kept_ite

theorem keeperSwap_kept (H : Kept K T N h) : Kept K T N h.keeperSwap := by
  unfold Hub.keeperSwap
  with_reducible repeat'
    first
      | assumption | apply set1_kept | apply swap_kept | apply put_kept | apply checkpointStart_kept
      | apply kept_ite
      | (apply kept_hub; first | assumption | apply set1_kept | apply swap_kept | apply put_kept | apply checkpointStart_kept | apply kept_ite)
      | split | (clear_value *; split)

theorem stepRefused_kept (H : Kept K T N h) : Kept K T N h.stepRefused := by
  unfold Hub.stepRefused
  with_reducible repeat' first | assumption | apply set1_kept

theorem updBegin_kept (H : Kept K T N h) : Kept K T N h.updBegin := by
  unfold Hub.updBegin
  with_reducible repeat'
    first
      | assumption | apply put_kept | apply wr_kept | apply stepRefused_kept | apply kept_ite
      | (apply kept_hub; first | assumption | apply put_kept | apply wr_kept | apply stepRefused_kept | apply kept_ite)

theorem updEraseDone_kept (ok : Bool) (H : Kept K T N h) : Kept K T N (h.updEraseDone ok) := by
  unfold Hub.updEraseDone
  with_reducible repeat'
    first
      | assumption | apply updFail_kept | apply put_kept | apply kept_ite
      | (apply kept_hub; first | assumption | apply updFail_kept | apply put_kept | apply kept_ite)

theorem updData_kept (H : Kept K T N h) : Kept K T N h.updData := by
  unfold Hub.updData
  with_reducible repeat'
    first
      | assumption | apply wr_kept | apply put_kept | apply stepRefused_kept | apply kept_ite

theorem updEnd_kept (H : Kept K T N h) : Kept K T N h.updEnd := by
  unfold Hub.updEnd
  with_reducible repeat' first | assumption | apply put_kept | apply stepRefused_kept | apply kept_ite

theorem updVerifyDone_kept (flashOk sigOk formatOk : Bool) (version : Nat) (H : Kept K T N h) : Kept K T N
    (h.updVerifyDone flashOk sigOk formatOk version) := by
  unfold Hub.updVerifyDone
  with_reducible repeat'
    first
      | assumption | (refine fun (g : Hub) n (_ : Kept K T N g) => ?_) | apply updFail_kept | apply wr_kept
      | apply put_kept | apply kept_ite | apply kept_foldl

theorem updProve_kept (H : Kept K T N h) : Kept K T N h.updProve := by
  unfold Hub.updProve
  with_reducible repeat'
    first
      | assumption | (intro x; refine (fun (_ : Kept K T N x) => ?_) ?_; clear_value x) | (intro x)
      | (lift_lets; intro x; refine (fun (_ : Kept K T N x) => ?_) ?_; clear_value x) | (lift_lets; intro x)
      | apply put_kept | apply keeperClear_kept | apply stepRefused_kept | apply kept_ite
      | (apply kept_hub; first | assumption | apply put_kept | apply keeperClear_kept | apply stepRefused_kept | apply kept_ite)
      | split | (clear_value *; split)

theorem updProveDone_kept (ok : Bool) (H : Kept K T N h) : Kept K T N (h.updProveDone ok) := by
  unfold Hub.updProveDone
  with_reducible repeat'
    first
      | assumption | apply put_kept | apply updFail_kept | apply keeperClear_kept | apply kept_ite
      | (apply kept_hub; first | assumption | apply put_kept | apply updFail_kept | apply keeperClear_kept | apply kept_ite)
      | split | (clear_value *; split)

theorem updProveTimeout_kept (H : Kept K T N h) : Kept K T N h.updProveTimeout := by
  unfold Hub.updProveTimeout
  with_reducible repeat'
    first
      | assumption | apply updFail_kept | apply keeperClear_kept | apply kept_ite
      | (apply kept_hub; first | assumption | apply updFail_kept | apply keeperClear_kept | apply kept_ite) | split
      | (clear_value *; split)

theorem updComplete_kept (H : Kept K T N h) : Kept K T N h.updComplete := by
  unfold Hub.updComplete
  with_reducible repeat'
    first
      | assumption | apply put_kept | apply keeperSwap_kept | apply stepRefused_kept | apply kept_ite
      | (apply kept_hub; first | assumption | apply put_kept | apply keeperSwap_kept | apply stepRefused_kept | apply kept_ite)

theorem updFinishDone_kept (ok : Bool) (H : Kept K T N h) : Kept K T N (h.updFinishDone ok) := by
  unfold Hub.updFinishDone
  with_reducible repeat' first | assumption | apply swap_kept | apply put_kept | apply updFail_kept | apply kept_ite

theorem updAbort_kept (H : Kept K T N h) : Kept K T N h.updAbort := by
  unfold Hub.updAbort
  with_reducible repeat'
    first
      | assumption | (intro x; refine (fun (_ : Kept K T N x) => ?_) ?_; clear_value x) | (intro x)
      | (lift_lets; intro x; refine (fun (_ : Kept K T N x) => ?_) ?_; clear_value x) | (lift_lets; intro x)
      | apply updFail_kept | apply keeperClear_kept | apply stepRefused_kept | apply kept_ite
      | (apply kept_hub; first | assumption | apply updFail_kept | apply keeperClear_kept | apply stepRefused_kept | apply kept_ite)
      | split | (clear_value *; split)

theorem updStep_kept (v : Nat) (H : Kept K T N h) : Kept K T N (h.updStep v) := by
  unfold Hub.updStep
  with_reducible repeat'
    first
      | assumption | apply updBegin_kept | apply updEnd_kept | apply updProve_kept | apply updComplete_kept
      | apply updAbort_kept | apply stepRefused_kept | apply kept_ite

theorem keeperCtrl_kept (v : Nat) (H : Kept K T N h) : Kept K T N (h.keeperCtrl v) := by
  unfold Hub.keeperCtrl
  with_reducible repeat' first | assumption | apply keeperReset_kept | apply keeperSwap_kept | apply kept_ite

theorem keeperDo_kept (op : KeeperOp) (H : Kept K T N h) : Kept K T N (h.keeperDo op) := by
  unfold Hub.keeperDo
  with_reducible repeat'
    first
      | assumption | apply calSweep_kept | apply calQueue_kept | apply keeperCtrl_kept | apply updStep_kept
      | apply updData_kept
      | (apply kept_hub; first | assumption | apply calSweep_kept | apply calQueue_kept | apply keeperCtrl_kept | apply updStep_kept | apply updData_kept)
      | split | (clear_value *; split)

theorem keeperServed_kept (op : KeeperOp) (H : Kept K T N h) : Kept K T N (h.keeperServed op) := by
  unfold Hub.keeperServed
  with_reducible repeat' first | assumption | apply keeperDo_kept | apply kept_ite

theorem keeperPend_kept (m access pos : Nat) (op : KeeperOp) (H : Kept K T N h) : Kept K T N (h.keeperPend m access
    pos op) := by
  unfold Hub.keeperPend
  with_reducible repeat' first | assumption | (apply kept_hub; first | assumption)

theorem keeperHealth_kept (H : Kept K T N h) : Kept K T N h.keeperHealth := by
  unfold Hub.keeperHealth
  with_reducible repeat'
    first
      | assumption | apply sendHealth_kept | apply kept_ite
      | (apply kept_hub; first | assumption | apply sendHealth_kept | apply kept_ite)

/-! ## Machine/SampleOps.lean -/

theorem measure_kept (x : Measure) (H : Kept K T N h) : Kept K T N (h.measure x) := by
  cases x <;> unfold Hub.measure <;> dsimp only
  · exact bxcMeasured_kept _ H
  · exact kept_ite (setDlGood_kept _ _ (wr_kept _ _ (kept_clk H))) (wr_kept _ _ (kept_clk H))
  · exact refreshHeat_kept (put_kept _ _ H)
  · exact kept_ite (refreshHeat_kept (put_kept _ _ H)) H
  · exact refreshMargin_kept (put_kept _ _ (wr_kept _ _ H))
  · exact kept_ite H (put_kept _ _ (put_kept _ _ H))

theorem advance_kept (H : Kept K T N h) : Kept K T N h.advance := by
  refine ⟨⟨?_, ?_, H.sound.2.2⟩, H.keys, H.tap, H.nonces⟩
  · show (if h.clk.slot = 1 then (h.clk.frame + 1) % bxSpan else h.clk.frame) < 2 ^ 48
    split
    · exact Nat.mod_lt _ (by decide)
    · exact H.sound.1
  · show 1 - h.clk.slot < 2
    omega

theorem takeSettings_kept (H : Kept K T N h) : Kept K T N h.takeSettings := by
  unfold Hub.takeSettings
  with_reducible repeat'
    first
      | assumption | (refine fun (g : Hub) n (_ : Kept K T N g) => ?_) | apply forAll_kept | apply takeQuiet_kept
      | apply takeSkew_kept | apply takePed_kept | apply takeTin_kept

theorem startBx_kept (H : Kept K T N h) : Kept K T N h.startBx := by
  unfold Hub.startBx
  with_reducible repeat'
    first
      | assumption | (refine fun (g : Hub) n (_ : Kept K T N g) => ?_) | apply runStopTaken_kept
      | apply takeSettings_kept | apply calTrimsTaken_kept | apply forAll_kept | apply takeOut_kept
      | apply resetsOver_kept | apply downstreamFrame_kept | apply loopTick_kept
      | (apply kept_hub; first | assumption | apply runStopTaken_kept | apply takeSettings_kept | apply calTrimsTaken_kept | apply forAll_kept | apply takeOut_kept | apply resetsOver_kept | apply downstreamFrame_kept | apply loopTick_kept)

theorem present_kept (l : List Conversion) (H : Kept K T N h) : Kept K T N (h.present l) := by
  unfold Hub.present
  with_reducible repeat'
    first
      | assumption | (refine fun (g : Hub) n (_ : Kept K T N g) => ?_) | apply setCell_kept | apply kept_foldl
      | (apply kept_hub; first | assumption | apply setCell_kept | apply kept_foldl)

theorem convert_kept (id : Nat) (H : Kept K T N h) : Kept K T N (h.convert id) := by
  unfold Hub.convert
  with_reducible repeat'
    first
      | assumption | apply setCell_kept | apply kept_ite
      | (apply kept_hub; first | assumption | apply setCell_kept | apply kept_ite)

theorem setCauses_kept (j c m : Nat) (H : Kept K T N h) : Kept K T N (h.setCauses j c m) := by
  unfold Hub.setCauses
  with_reducible repeat' first | assumption | apply wr_kept | apply kept_ite

theorem leaveCell_kept (j c : Nat) (H : Kept K T N h) : Kept K T N (h.leaveCell j c) := by
  unfold Hub.leaveCell
  with_reducible repeat'
    first
      | assumption | (intro x; refine (fun (_ : Kept K T N x) => ?_) ?_; clear_value x) | (intro x)
      | (lift_lets; intro x; refine (fun (_ : Kept K T N x) => ?_) ?_; clear_value x) | (lift_lets; intro x)
      | apply setChan_kept | apply setCauses_kept | apply kept_ite
      | (apply kept_hub; first | assumption | apply setChan_kept | apply setCauses_kept | apply kept_ite) | split
      | (clear_value *; split)

theorem branches_kept (j c label : Nat) (w : LineWord) (H : Kept K T N h) : Kept K T N (h.branches j c label w) :=
    by
  unfold Hub.branches
  with_reducible repeat'
    first
      | assumption | apply inc_kept | apply ringPresent_kept | apply responseDue_kept | apply estimate_kept
      | apply decimate_kept | apply kept_ite

theorem channelSample_kept (j c : Nat) (H : Kept K T N h) : Kept K T N (h.channelSample j c) := by
  unfold Hub.channelSample
  with_reducible repeat'
    first
      | assumption | apply leaveCell_kept | apply setChan_kept | apply setCauses_kept | apply branches_kept
      | apply kept_ite
      | (apply kept_hub; first | assumption | apply leaveCell_kept | apply setChan_kept | apply setCauses_kept | apply branches_kept | apply kept_ite)

theorem spareSample_kept (j : Nat) (H : Kept K T N h) : Kept K T N (h.spareSample j) := by
  unfold Hub.spareSample
  with_reducible repeat'
    first
      | assumption | apply ringPresent_kept | (apply kept_hub; first | assumption | apply ringPresent_kept) | split
      | (clear_value *; split)

theorem resumed_kept (j : Nat) (H : Kept K T N h) : Kept K T N (h.resumed j) := by
  unfold Hub.resumed
  with_reducible repeat'
    first
      | assumption | apply setBlk_kept | apply kept_ite
      | (apply kept_hub; first | assumption | apply setBlk_kept | apply kept_ite)

theorem sampleAll_kept (H : Kept K T N h) : Kept K T N h.sampleAll := by
  unfold Hub.sampleAll
  with_reducible repeat'
    first
      | assumption | (refine fun (g : Hub) n (_ : Kept K T N g) => ?_) | apply forAll_kept | apply convert_kept
      | apply hingeSample_kept | apply resumed_kept | apply channelSample_kept | apply spareSample_kept

theorem fixRestarts_kept (H : Kept K T N h) : Kept K T N h.fixRestarts := by
  unfold Hub.fixRestarts
  with_reducible repeat' first | assumption | (apply kept_hub; first | assumption)

theorem restartsDue_kept (H : Kept K T N h) : Kept K T N h.restartsDue := by
  unfold Hub.restartsDue
  with_reducible repeat'
    first
      | assumption | apply restartAll_kept | apply w64_kept | apply kept_ite
      | (apply kept_hub; first | assumption | apply restartAll_kept | apply w64_kept | apply kept_ite)

theorem samplePeriod_kept (codes : List Conversion) (found : List Measure) (H : Kept K T N h) : Kept K T N
    (h.samplePeriod codes found) := by
  unfold Hub.samplePeriod
  with_reducible repeat'
    first
      | assumption | (refine fun (g : Hub) n (_ : Kept K T N g) => ?_) | apply measure_kept | apply lateWords_kept
      | apply fixRestarts_kept | apply advance_kept | apply monBegun_kept | apply startBx_kept
      | apply restartsDue_kept | apply present_kept | apply sampleAll_kept | apply calPulseSample_kept
      | apply kept_ite | apply kept_foldl

theorem millisecond_kept (H : Kept K T N h) : Kept K T N h.millisecond := by
  unfold Hub.millisecond
  with_reducible repeat'
    first
      | assumption | (refine fun (g : Hub) n (_ : Kept K T N g) => ?_) | apply forAll_kept | apply cdAge_kept
      | apply incSat_kept | apply kept_ite

theorem microsecond_kept (H : Kept K T N h) : Kept K T N h.microsecond := by
  unfold Hub.microsecond
  with_reducible repeat'
    first
      | assumption | apply supplyBad_kept | apply w64_kept | apply incSat_kept | apply keepaliveTick_kept
      | apply excOpenAgain_kept | apply millisecond_kept | apply gzbEntering_kept | apply kept_ite
      | (apply kept_hub; first | assumption | apply supplyBad_kept | apply w64_kept | apply incSat_kept | apply keepaliveTick_kept | apply excOpenAgain_kept | apply millisecond_kept | apply gzbEntering_kept | apply kept_ite)
      | (apply kept_clk; first | assumption | apply supplyBad_kept | apply w64_kept | apply incSat_kept | apply keepaliveTick_kept | apply excOpenAgain_kept | apply millisecond_kept | apply gzbEntering_kept | apply kept_ite)

end Hub

end Sys2Proof.Machine
end

