-- ==== Sys2Proof/Laws/KeptBus.lean ====
section
/-! SUPPORT. What the operations of the bus, requests and the rows of the command table keep: one lemma per operation. -/

namespace Sys2Proof.Machine

namespace Hub

variable {K : SMap (List Nat)} {T : Tap} {N : Nat} {h : Hub}

/-! ## Machine/BusOps.lean -/

theorem loadShadow_kept (m a : Nat) (l : Loc) (high : Nat) (H : Kept K T N h) : Kept K T N (h.loadShadow m a l high)
    := by
  unfold Hub.loadShadow
  with_reducible repeat'
    first
      | assumption | apply setMaster_kept | (apply kept_hub; first | assumption | apply setMaster_kept)

theorem readLow_kept (m a : Nat) (l : Loc) (H : Kept K T N h) : Kept K T N (h.readLow m a l).1 := by
  unfold Hub.readLow
  with_reducible repeat'
    first
      | assumption | (intro x; refine (fun (_ : Kept K T N x) => ?_) ?_; clear_value x) | (intro x)
      | (lift_lets; intro x; refine (fun (_ : Kept K T N x) => ?_) ?_; clear_value x) | (lift_lets; intro x)
      | apply tinPop_kept | apply wr_kept | apply loadShadow_kept | apply kept_ite
      | (apply kept_hub; first | assumption | apply tinPop_kept | apply wr_kept | apply loadShadow_kept | apply kept_ite)
      | split | (clear_value *; split)

theorem readHigh_kept (m a : Nat) (l : Loc) (H : Kept K T N h) : Kept K T N (h.readHigh m a l).1 := by
  unfold Hub.readHigh
  with_reducible repeat'
    first
      | assumption | apply kept_ite | (apply kept_hub; first | assumption | apply kept_ite) | split
      | (clear_value *; split)

theorem readFlags_kept (m a : Nat) (l : Loc) (H : Kept K T N h) : Kept K T N (h.readFlags m a l).1 := by
  unfold Hub.readFlags
  with_reducible repeat'
    first
      | assumption | apply setMaster_kept | apply kept_ite
      | (apply kept_hub; first | assumption | apply setMaster_kept | apply kept_ite) | split
      | (clear_value *; split)

theorem readLoc_kept (m a : Nat) (l : Loc) (H : Kept K T N h) : Kept K T N (h.readLoc m a l).1 := by
  unfold Hub.readLoc
  split
  · exact readFlags_kept _ _ _ H
  · split
    · split
      · exact readHigh_kept _ _ _ H
      · exact readLow_kept _ _ _ H
    · exact H

/-! ## Machine/WriteOps.lean -/

theorem writeClkCtrl_kept (l : Loc) (key v : Nat) (H : Kept K T N h) : Kept K T N (h.writeClkCtrl l key v) := by
  unfold Hub.writeClkCtrl
  with_reducible repeat'
    first
      | assumption | apply writeFields_kept | apply holdForce_kept | apply relock_kept | apply kept_ite

theorem writeAlignCtrl_kept (v : Nat) (H : Kept K T N h) : Kept K T N (h.writeAlignCtrl v) := by
  unfold Hub.writeAlignCtrl
  with_reducible repeat'
    first
      | assumption | apply alignCompute_kept | apply alignArm_kept | apply alignCancel_kept | apply kept_ite

theorem writeAlignNext_kept (l : Loc) (key v : Nat) (H : Kept K T N h) : Kept K T N (h.writeAlignNext l key v) := by
  unfold Hub.writeAlignNext
  with_reducible repeat' first | assumption | apply set1_kept | apply writeFields_kept | apply kept_ite

theorem writeTrim_kept (l : Loc) (key v : Nat) (H : Kept K T N h) : Kept K T N (h.writeTrim l key v) := by
  unfold Hub.writeTrim
  with_reducible repeat' first | assumption | apply set1_kept | apply writeFields_kept | apply kept_ite

theorem writeMove_kept (j v : Nat) (H : Kept K T N h) : Kept K T N (h.writeMove j v) := by
  unfold Hub.writeMove
  with_reducible repeat'
    first
      | assumption | apply moveIllegal_kept | apply spareRestore_kept | apply spareRetire_kept
      | apply moveShadow_kept | apply moveUse_kept | apply kept_ite

theorem writeCommit_kept (j v : Nat) (H : Kept K T N h) : Kept K T N (h.writeCommit j v) := by
  unfold Hub.writeCommit
  with_reducible repeat' first | assumption | apply commitBack_kept | apply commitToSpare_kept | apply kept_ite

theorem writeHngCfg_kept (l : Loc) (key v : Nat) (H : Kept K T N h) : Kept K T N (h.writeHngCfg l key v) := by
  unfold Hub.writeHngCfg
  with_reducible repeat' first | assumption | apply writeFields_kept | apply shadowCfg_kept

theorem writeSnapCtrl_kept (j v : Nat) (H : Kept K T N h) : Kept K T N (h.writeSnapCtrl j v) := by
  unfold Hub.writeSnapCtrl
  with_reducible repeat'
    first
      | assumption | apply snapArm_kept | apply snapFreeze_kept | apply snapRelease_kept | apply kept_ite

theorem writeFlt_kept (l : Loc) (key v : Nat) (H : Kept K T N h) : Kept K T N (h.writeFlt l key v) := by
  unfold Hub.writeFlt
  with_reducible repeat' first | assumption | apply writeFields_kept | apply wr_kept | apply kept_ite

theorem writeCrecCfg_kept (l : Loc) (key v : Nat) (H : Kept K T N h) : Kept K T N (h.writeCrecCfg l key v) := by
  unfold Hub.writeCrecCfg
  with_reducible repeat' first | assumption | apply writeFields_kept | apply put_kept

theorem writeCrecCtrl_kept (v : Nat) (H : Kept K T N h) : Kept K T N (h.writeCrecCtrl v) := by
  unfold Hub.writeCrecCtrl
  with_reducible repeat'
    first
      | assumption | apply put_kept | apply kept_ite
      | (apply kept_hub; first | assumption | apply put_kept | apply kept_ite)

theorem writeTrgCtrl_kept (v : Nat) (H : Kept K T N h) : Kept K T N (h.writeTrgCtrl v) := by
  unfold Hub.writeTrgCtrl
  with_reducible repeat' first | assumption | apply putIf_kept

theorem writeIvlCtrl_kept (e v : Nat) (H : Kept K T N h) : Kept K T N (h.writeIvlCtrl e v) := by
  unfold Hub.writeIvlCtrl
  with_reducible repeat' first | assumption | apply ivlArm_kept | apply ivlCancel_kept | apply kept_ite

theorem writeFrqCtrl_kept (v : Nat) (H : Kept K T N h) : Kept K T N (h.writeFrqCtrl v) := by
  unfold Hub.writeFrqCtrl
  with_reducible repeat' first | assumption | apply frqCancel_kept | apply frqStart_kept | apply kept_ite

theorem writeRttCfg_kept (l : Loc) (key v : Nat) (H : Kept K T N h) : Kept K T N (h.writeRttCfg l key v) := by
  unfold Hub.writeRttCfg
  with_reducible repeat' first | assumption | apply writeFields_kept | apply rttRestartAll_kept | apply kept_ite

theorem writeMonCh_kept (l : Loc) (key v : Nat) (H : Kept K T N h) : Kept K T N (h.writeMonCh l key v) := by
  unfold Hub.writeMonCh
  with_reducible repeat' first | assumption | apply writeFields_kept | apply monChWritten_kept | apply kept_ite

theorem writeUrgent_kept (l : Loc) (key v : Nat) (H : Kept K T N h) : Kept K T N (h.writeUrgent l key v) := by
  unfold Hub.writeUrgent
  with_reducible repeat' first | assumption | apply writeFields_kept | apply monUrgentGo_kept | apply kept_ite

theorem writeWin_kept (l : Loc) (key v : Nat) (H : Kept K T N h) : Kept K T N (h.writeWin l key v) := by
  unfold Hub.writeWin
  with_reducible repeat' first | assumption | apply writeFields_kept | apply winWritten_kept | apply kept_ite

theorem writeExc_kept (l : Loc) (key v : Nat) (H : Kept K T N h) : Kept K T N (h.writeExc l key v) := by
  unfold Hub.writeExc
  with_reducible repeat' first | assumption | apply writeFields_kept | apply excWritten_kept | apply kept_ite

theorem writeLaneCtrl_kept (l v : Nat) (H : Kept K T N h) : Kept K T N (h.writeLaneCtrl l v) := by
  unfold Hub.writeLaneCtrl
  with_reducible repeat'
    first
      | assumption | apply set1_kept | apply laneEnable_kept | apply laneDisable_kept | apply laneLoop_kept
      | apply laneRetrain_kept | apply kept_ite

theorem writeSpare_kept (v : Nat) (H : Kept K T N h) : Kept K T N (h.writeSpare v) := by
  unfold Hub.writeSpare
  with_reducible repeat'
    first
      | assumption | apply set1_kept | apply spareEnable_kept | apply spareWrite_kept | apply kept_ite

theorem writeLeafCtrl_kept (l : Loc) (key v : Nat) (H : Kept K T N h) : Kept K T N (h.writeLeafCtrl l key v) := by
  unfold Hub.writeLeafCtrl
  with_reducible repeat'
    first
      | assumption | apply writeFields_kept | apply leafSyncWrite_kept | apply leafReset_kept | apply kept_ite

theorem writeKeyCtrl_kept (m : Nat) (l : Loc) (key v : Nat) (H : Kept K T N h) : Kept K T N (h.writeKeyCtrl m l key
    v) := by
  unfold Hub.writeKeyCtrl
  with_reducible repeat'
    first
      | assumption | apply writeFields_kept | apply keyProgram_kept | apply keyRevoke_kept | apply kept_ite

theorem writeOrgCtrl_kept (v : Nat) (H : Kept K T N h) : Kept K T N (h.writeOrgCtrl v) := by
  unfold Hub.writeOrgCtrl
  with_reducible repeat' first | assumption | apply orgCtrlWrite_kept | apply skewsCold_kept

theorem writeReg_kept (m : Nat) (l : Loc) (key v : Nat) (H : Kept K T N h) : Kept K T N (h.writeReg m l key v) := by
  unfold Hub.writeReg
  with_reducible repeat'
    first
      | assumption | (intro x; refine (fun (_ : Kept K T N x) => ?_) ?_; clear_value x) | (intro x)
      | (lift_lets; intro x; refine (fun (_ : Kept K T N x) => ?_) ?_; clear_value x) | (lift_lets; intro x)
      | apply pwrCtrlWrite_kept | apply cellResetGo_kept | apply gzbEnter_kept | apply writeClkCtrl_kept
      | apply writeAlignCtrl_kept | apply writeAlignNext_kept | apply writeOrgCtrl_kept | apply writeTrim_kept
      | apply writeFields_kept | apply healthClear_kept | apply refreshBlk_kept | apply blockResetGo_kept
      | apply writeMove_kept | apply writeCommit_kept | apply writeHngCfg_kept | apply writeSnapCtrl_kept
      | apply refreshLags_kept | apply regionReset_kept | apply writeFlt_kept | apply writeCrecCfg_kept
      | apply writeCrecCtrl_kept | apply writeTrgCtrl_kept | apply cdOff_kept | apply writeIvlCtrl_kept
      | apply writeFrqCtrl_kept | apply writeRttCfg_kept | apply writeMonCh_kept | apply writeUrgent_kept
      | apply writeWin_kept | apply writeExc_kept | apply monPower_kept | apply pwrCfgWritten_kept
      | apply writeLaneCtrl_kept | apply ulRelock_kept | apply writeSpare_kept | apply hrstArm_kept
      | apply writeLeafCtrl_kept | apply bcastGo_kept | apply cfgCtrlWrite_kept | apply cfgLoadData_kept
      | apply sesCtrlWrite_kept | apply idleLimitWrite_kept | apply wr_kept | apply writeKeyCtrl_kept
      | apply flushQueue_kept | apply refreshLatency_kept | apply kept_ite
      | (apply kept_hub; first | assumption | apply pwrCtrlWrite_kept | apply cellResetGo_kept | apply gzbEnter_kept | apply writeClkCtrl_kept | apply writeAlignCtrl_kept | apply writeAlignNext_kept | apply writeOrgCtrl_kept | apply writeTrim_kept | apply writeFields_kept | apply healthClear_kept | apply refreshBlk_kept | apply blockResetGo_kept | apply writeMove_kept | apply writeCommit_kept | apply writeHngCfg_kept | apply writeSnapCtrl_kept | apply refreshLags_kept | apply regionReset_kept | apply writeFlt_kept | apply writeCrecCfg_kept | apply writeCrecCtrl_kept | apply writeTrgCtrl_kept | apply cdOff_kept | apply writeIvlCtrl_kept | apply writeFrqCtrl_kept | apply writeRttCfg_kept | apply writeMonCh_kept | apply writeUrgent_kept | apply writeWin_kept | apply writeExc_kept | apply monPower_kept | apply pwrCfgWritten_kept | apply writeLaneCtrl_kept | apply ulRelock_kept | apply writeSpare_kept | apply hrstArm_kept | apply writeLeafCtrl_kept | apply bcastGo_kept | apply cfgCtrlWrite_kept | apply cfgLoadData_kept | apply sesCtrlWrite_kept | apply idleLimitWrite_kept | apply wr_kept | apply writeKeyCtrl_kept | apply flushQueue_kept | apply refreshLatency_kept | apply kept_ite)
      | split | (clear_value *; split)

theorem writeTouch_kept (l : Loc) (key : Nat) (H : Kept K T N h) : Kept K T N (h.writeTouch l key) := by
  unfold Hub.writeTouch
  with_reducible repeat' first | assumption | apply cfgTouched_kept | apply kept_ite

theorem writePair_kept (m : Nat) (l : Loc) (a v : Nat) (H : Kept K T N h) : Kept K T N (h.writePair m l a v) := by
  unfold Hub.writePair
  with_reducible repeat'
    first
      | assumption | apply w64_kept | apply set1_kept | apply featAccept_kept | apply writeFields_kept
      | apply kept_ite
      | (apply kept_hub; first | assumption | apply w64_kept | apply set1_kept | apply featAccept_kept | apply writeFields_kept | apply kept_ite)
      | split | (clear_value *; split)

theorem writeLoc_kept (m a : Nat) (l : Loc) (v : Nat) (H : Kept K T N h) : Kept K T N (h.writeLoc m a l v).1 := by
  unfold Hub.writeLoc
  dsimp only
  split
  · exact writeTouch_kept _ _ (writeReg_kept _ _ _ _ (setMaster_kept _ _ H))
  · split
    · exact setMaster_kept _ _ H
    · split
      · split
        · exact writePair_kept _ _ _ _ (setMaster_kept _ _ H)
        · exact setMaster_kept _ _ H
      · exact H

/-! ## Machine/AccessOps.lean -/

theorem result_kept (m : Nat) (i : BusItem) (value : Nat) (void : Bool) (H : Kept K T N h) : Kept K T N (h.result m
    i value void) := by
  unfold Hub.result
  with_reducible repeat' first | assumption | apply resolve_kept

theorem stale_kept (m : Nat) (i : BusItem) (b : Bool) (H : Kept K T N h) : Kept K T N (h.stale m i b) := by
  unfold Hub.stale
  with_reducible repeat' first | assumption | apply markStale_kept | apply kept_ite

theorem hardPart_kept (l : Loc) (key v : Nat) (H : Kept K T N h) : Kept K T N (h.hardPart l key v) := by
  unfold Hub.hardPart
  with_reducible repeat'
    first
      | assumption | apply writeFields_kept | apply set1_kept | apply kept_ite
      | (apply kept_hub; first | assumption | apply writeFields_kept | apply set1_kept | apply kept_ite) | split
      | (clear_value *; split)

theorem keeperWrite_kept (m : Nat) (i : BusItem) (l : Loc) (key v : Nat) (H : Kept K T N h) : Kept K T N
    (h.keeperWrite m i l key v) := by
  unfold Hub.keeperWrite
  with_reducible repeat'
    first
      | assumption | (intro x; refine (fun (_ : Kept K T N x) => ?_) ?_; clear_value x) | (intro x)
      | (lift_lets; intro x; refine (fun (_ : Kept K T N x) => ?_) ?_; clear_value x) | (lift_lets; intro x)
      | apply hardPart_kept | apply result_kept | apply keeperPend_kept | apply keeperCtrl_kept | apply kept_ite
      | (apply kept_hub; first | assumption | apply hardPart_kept | apply result_kept | apply keeperPend_kept | apply keeperCtrl_kept | apply kept_ite)
      | split | (clear_value *; split)

theorem flashRead_kept (m : Nat) (i : BusItem) (offset : Nat) (H : Kept K T N h) : Kept K T N (h.flashRead m i
    offset) := by
  unfold Hub.flashRead
  with_reducible repeat'
    first
      | assumption | (intro x; refine (fun (_ : Kept K T N x) => ?_) ?_; clear_value x) | (intro x)
      | (lift_lets; intro x; refine (fun (_ : Kept K T N x) => ?_) ?_; clear_value x) | (lift_lets; intro x)
      | apply inc_kept | apply result_kept | apply set1_kept | apply kept_ite
      | (apply kept_hub; first | assumption | apply inc_kept | apply result_kept | apply set1_kept | apply kept_ite)
      | split | (clear_value *; split)

theorem headerRead_kept (line : Nat) (bytes : List Nat) (H : Kept K T N h) : Kept K T N (h.headerRead line bytes) :=
    by
  unfold Hub.headerRead
  with_reducible repeat' first | assumption | apply kept_ite | (apply kept_hub; first | assumption | apply kept_ite)

theorem lineFetched_kept (line : Nat) (bytes : List Nat) (H : Kept K T N h) : Kept K T N (h.lineFetched line bytes)
    := by
  unfold Hub.lineFetched
  with_reducible repeat'
    first
      | assumption | (refine fun (g : Hub) n (_ : Kept K T N g) => ?_) | apply headerRead_kept | apply inc_kept
      | apply resolve_kept | apply kept_foldl
      | (apply kept_hub; first | assumption | apply headerRead_kept | apply inc_kept | apply resolve_kept | apply kept_foldl)

theorem fetchDone_kept (cache : Option Nat) (bytes : List Nat) (H : Kept K T N h) : Kept K T N (h.fetchDone cache
    bytes) := by
  unfold Hub.fetchDone
  with_reducible repeat'
    first
      | assumption | (intro x; refine (fun (_ : Kept K T N x) => ?_) ?_; clear_value x) | (intro x)
      | (lift_lets; intro x; refine (fun (_ : Kept K T N x) => ?_) ?_; clear_value x) | (lift_lets; intro x)
      | apply lineFetched_kept | (apply kept_hub; first | assumption | apply lineFetched_kept) | split
      | (clear_value *; split)

theorem flashDiscovered_kept (id signature head0 head1 : Nat) (table : List Nat) (H : Kept K T N h) : Kept K T N
    (h.flashDiscovered id signature head0 head1 table) := by
  unfold Hub.flashDiscovered
  with_reducible repeat'
    first
      | assumption | (intro x; refine (fun (_ : Kept K T N x) => ?_) ?_; clear_value x) | (intro x)
      | (lift_lets; intro x; refine (fun (_ : Kept K T N x) => ?_) ?_; clear_value x) | (lift_lets; intro x)
      | apply set1_kept | apply wr_kept | apply put_kept | apply kept_ite
      | (apply kept_hub; first | assumption | apply set1_kept | apply wr_kept | apply put_kept | apply kept_ite)

theorem flashEngine_kept (H : Kept K T N h) : Kept K T N h.flashEngine := by
  unfold Hub.flashEngine
  with_reducible repeat' first | assumption | apply put_kept | apply kept_ite

theorem flashEngineDone_kept (H : Kept K T N h) : Kept K T N h.flashEngineDone := by
  unfold Hub.flashEngineDone
  with_reducible repeat'
    first
      | assumption | apply put_kept | apply kept_ite
      | (apply kept_hub; first | assumption | apply put_kept | apply kept_ite)

theorem doReg_kept (m : Nat) (i : BusItem) (a : Nat) (l : Loc) (H : Kept K T N h) : Kept K T N (h.doReg m i a l) :=
    by
  unfold Hub.doReg
  with_reducible repeat'
    first
      | assumption | apply readLoc_kept | apply stale_kept | apply result_kept | apply keeperWrite_kept
      | apply writeLoc_kept | apply kept_ite

theorem dropLatch_kept (m : Nat) (writes : Bool) (H : Kept K T N h) : Kept K T N (h.dropLatch m writes) := by
  unfold Hub.dropLatch
  with_reducible repeat'
    first
      | assumption | apply setMaster_kept | apply kept_ite
      | (apply kept_hub; first | assumption | apply setMaster_kept | apply kept_ite)

theorem doItem_kept (m : Nat) (i : BusItem) (H : Kept K T N h) : Kept K T N (h.doItem m i) := by
  unfold Hub.doItem
  with_reducible repeat'
    first
      | assumption | (intro x; refine (fun (_ : Kept K T N x) => ?_) ?_; clear_value x) | (intro x)
      | (lift_lets; intro x; refine (fun (_ : Kept K T N x) => ?_) ?_; clear_value x) | (lift_lets; intro x)
      | apply dropLatch_kept | apply result_kept | apply doReg_kept | apply flashRead_kept | apply raiseRead_kept
      | apply raiseBufRead_kept | apply kept_ite
      | (apply kept_hub; first | assumption | apply dropLatch_kept | apply result_kept | apply doReg_kept | apply flashRead_kept | apply raiseRead_kept | apply raiseBufRead_kept | apply kept_ite)
      | split | (clear_value *; split)

theorem doLeaf_kept (m : Nat) (l : List BusItem) (H : Kept K T N h) : Kept K T N (h.doLeaf m l) := by
  unfold Hub.doLeaf
  with_reducible repeat'
    first
      | assumption | (refine fun (g : Hub) n (_ : Kept K T N g) => ?_)
      | (intro x; refine (fun (_ : Kept K T N x) => ?_) ?_; clear_value x) | (intro x)
      | (lift_lets; intro x; refine (fun (_ : Kept K T N x) => ?_) ?_; clear_value x) | (lift_lets; intro x)
      | apply dropLatch_kept | apply result_kept | apply leafModify_kept | apply leafAccess_kept | apply kept_ite
      | apply kept_foldl
      | (apply kept_hub; first | assumption | apply dropLatch_kept | apply result_kept | apply leafModify_kept | apply leafAccess_kept | apply kept_ite | apply kept_foldl)
      | split | (clear_value *; split)

theorem runTodo_kept (m n : Nat) (H : Kept K T N h) : Kept K T N (Hub.runTodo m n h) := by
  induction n generalizing h with
  | zero => exact H
  | succ n ih =>
    unfold Hub.runTodo
    dsimp only
    split
    · exact H
    · split
      · exact H
      · split
        · exact ih (doLeaf_kept _ _ (setMaster_kept _ _ H))
        · exact ih (doItem_kept _ _ (setMaster_kept _ _ H))

theorem runMaster_kept (m : Nat) (H : Kept K T N h) : Kept K T N (h.runMaster m) := by
  unfold Hub.runMaster
  with_reducible repeat' first | assumption | apply runTodo_kept

theorem submit_kept (m addr : Nat) (fix : Bool) (ops : List BusOp) (H : Kept K T N h) : Kept K T N (h.submit m addr
    fix ops) := by
  unfold Hub.submit
  with_reducible repeat'
    first
      | assumption | apply setMaster_kept | apply runMaster_kept
      | (apply kept_hub; first | assumption | apply setMaster_kept | apply runMaster_kept)

theorem nextAccess_kept (H : Kept K T N h) : Kept K T N h.nextAccess := by
  unfold Hub.nextAccess
  with_reducible repeat' first | assumption | (apply kept_hub; first | assumption)

theorem act_kept (m addr : Nat) (ops : List BusOp) (H : Kept K T N h) : Kept K T N (h.act m addr ops) := by
  unfold Hub.act
  with_reducible repeat' first | assumption | apply nextAccess_kept | apply submit_kept | apply kept_ite

theorem busWrite_kept (m addr v : Nat) (H : Kept K T N h) : Kept K T N (h.busWrite m addr v) := by
  unfold Hub.busWrite
  with_reducible repeat' first | assumption | apply act_kept

theorem writeTo_kept (m : Nat) (r : RF) (v : Nat) (H : Kept K T N h) : Kept K T N (h.writeTo m r v) := by
  unfold Hub.writeTo
  with_reducible repeat' first | assumption | apply busWrite_kept

theorem busRead_kept (m addr : Nat) (H : Kept K T N h) : Kept K T N (h.busRead m addr) := by
  unfold Hub.busRead
  with_reducible repeat' first | assumption | apply act_kept

theorem cmdResult_kept (c : KeeperCmd) (void : Bool) (H : Kept K T N h) : Kept K T N (h.cmdResult c void) := by
  unfold Hub.cmdResult
  with_reducible repeat' first | assumption | apply resolve_kept

theorem keeperCommit_kept (m : Nat) (H : Kept K T N h) : Kept K T N (h.keeperCommit m) := by
  unfold Hub.keeperCommit
  with_reducible repeat'
    first
      | assumption | (intro x; refine (fun (_ : Kept K T N x) => ?_) ?_; clear_value x) | (intro x)
      | (lift_lets; intro x; refine (fun (_ : Kept K T N x) => ?_) ?_; clear_value x) | (lift_lets; intro x)
      | apply keeperDo_kept | apply inc_kept | apply markReplayed_kept | apply cmdResult_kept | apply runMaster_kept
      | apply kept_ite
      | (apply kept_hub; first | assumption | apply keeperDo_kept | apply inc_kept | apply markReplayed_kept | apply cmdResult_kept | apply runMaster_kept | apply kept_ite)
      | split | (clear_value *; split)

theorem keeperless_kept (H : Kept K T N h) : Kept K T N h.keeperless := by
  unfold Hub.keeperless
  with_reducible repeat'
    first
      | assumption | (refine fun (g : Hub) n (_ : Kept K T N g) => ?_) | apply put_kept | apply refreshStandby_kept
      | apply raise_kept | apply cmdResult_kept | apply forAll_kept | apply runMaster_kept | apply kept_ite
      | apply kept_foldl
      | (apply kept_hub; first | assumption | apply put_kept | apply refreshStandby_kept | apply raise_kept | apply cmdResult_kept | apply forAll_kept | apply runMaster_kept | apply kept_ite | apply kept_foldl)

/-! ## Machine/RequestOps.lean -/

theorem dlExec_kept (mode tag addr : Nat) (fix : Bool) (ops : List BusOp) (H : Kept K T N h) : Kept K T N (h.dlExec
    mode tag addr fix ops) := by
  unfold Hub.dlExec
  with_reducible repeat'
    first
      | assumption | apply pushReply_kept | apply nextAccess_kept | apply submit_kept | apply kept_ite

theorem dlTake_kept (r : DlReq) (H : Kept K T N h) : Kept K T N (h.dlTake r) := by
  unfold Hub.dlTake
  exact dlRequest_kept _ _ _ (fun g G => kept_ite (dlExec_kept _ _ _ _ _ G) (replyMalformed_kept _ _ G)) H

theorem dlAsk_kept (words : List Nat) (H : Kept K T N h) : Kept K T N (h.dlAsk words) := by
  unfold Hub.dlAsk
  with_reducible repeat' first | assumption | apply qCross_kept | apply dlTake_kept | apply kept_ite

theorem dlRead_kept (mode target tag addr n : Nat) (fix : Bool) (H : Kept K T N h) : Kept K T N (h.dlRead mode
    target tag addr n fix) := by
  unfold Hub.dlRead
  with_reducible repeat' first | assumption | apply dlAsk_kept | apply kept_ite

theorem dlWrite_kept (mode target tag addr n : Nat) (data : List Nat) (fix : Bool) (H : Kept K T N h) : Kept K T N
    (h.dlWrite mode target tag addr n data fix) := by
  unfold Hub.dlWrite
  with_reducible repeat' first | assumption | apply dlAsk_kept | apply kept_ite

theorem dlModify_kept (mode target tag addr count mask v : Nat) (H : Kept K T N h) : Kept K T N (h.dlModify mode
    target tag addr count mask v) := by
  unfold Hub.dlModify
  with_reducible repeat' first | assumption | apply dlAsk_kept

theorem portHeld_kept (H : Kept K T N h) : Kept K T N h.portHeld := by
  unfold Hub.portHeld
  with_reducible repeat' first | assumption | apply kept_ite | (apply kept_hub; first | assumption | apply kept_ite)

theorem portStart_kept (addr n : Nat) (read fix : Bool) (ops : List BusOp) (H : Kept K T N h) : Kept K T N
    (h.portStart addr n read fix ops) := by
  unfold Hub.portStart
  with_reducible repeat'
    first
      | assumption | apply portFinish_kept | apply inc_kept | apply nextAccess_kept | apply qCross_kept
      | apply submit_kept | apply portHeld_kept | apply kept_ite
      | (apply kept_hub; first | assumption | apply portFinish_kept | apply inc_kept | apply nextAccess_kept | apply qCross_kept | apply submit_kept | apply portHeld_kept | apply kept_ite)

theorem portHeader_kept (id addr n : Nat) (read fix : Bool) (ops : List BusOp) (H : Kept K T N h) : Kept K T N
    (h.portHeader id addr n read fix ops) := by
  unfold Hub.portHeader
  with_reducible repeat'
    first
      | assumption | apply portStart_kept | apply kept_ite
      | (apply kept_hub; first | assumption | apply portStart_kept | apply kept_ite)

theorem portRead_kept (id addr n : Nat) (fix : Bool) (H : Kept K T N h) : Kept K T N (h.portRead id addr n fix) :=
    by
  unfold Hub.portRead
  with_reducible repeat' first | assumption | apply portHeader_kept

theorem portWrite_kept (id addr n : Nat) (data : List Nat) (fix : Bool) (H : Kept K T N h) : Kept K T N (h.portWrite
    id addr n data fix) := by
  unfold Hub.portWrite
  with_reducible repeat' first | assumption | apply portHeader_kept

theorem portEnd_kept (late cut : Bool) (H : Kept K T N h) : Kept K T N (h.portEnd late cut) := by
  unfold Hub.portEnd
  with_reducible repeat'
    first
      | assumption | apply portSettle_kept | (apply kept_hub; first | assumption | apply portSettle_kept)

theorem portListen_kept (H : Kept K T N h) : Kept K T N h.portListen := by
  unfold Hub.portListen
  with_reducible repeat' first | assumption | (apply kept_hub; first | assumption)

theorem portTransactionEnd_kept (late : Bool) (H : Kept K T N h) : Kept K T N (h.portTransactionEnd late) := by
  unfold Hub.portTransactionEnd
  with_reducible repeat' first | assumption | apply portListen_kept | apply portEnd_kept | apply kept_ite

theorem portCut_kept (late : Bool) (H : Kept K T N h) : Kept K T N (h.portCut late) := by
  unfold Hub.portCut
  with_reducible repeat'
    first
      | assumption | apply portListen_kept | apply set1_kept | apply inc_kept | apply portEnd_kept | apply kept_ite

theorem portOverclock_kept (H : Kept K T N h) : Kept K T N h.portOverclock := by
  unfold Hub.portOverclock
  with_reducible repeat'
    first
      | assumption | apply set1_kept | apply kept_ite
      | (apply kept_hub; first | assumption | apply set1_kept | apply kept_ite)

/-! ## Machine/RowOps.lean -/

theorem bootOver_kept (image : Bool) (H : Kept K T N h) : Kept K T N (h.bootOver image) := by
  unfold Hub.bootOver
  with_reducible repeat' first | assumption | apply bootComplete_kept | apply keeperless_kept | apply kept_ite

theorem bootLate_kept (H : Kept K T N h) : Kept K T N h.bootLate := by
  unfold Hub.bootLate
  with_reducible repeat' first | assumption | apply bootTimeout_kept | apply keeperless_kept | apply kept_ite

theorem alarmTaken_kept (item : List Nat) (H : Kept K T N h) : Kept K T N (h.alarmTaken item) := by
  unfold Hub.alarmTaken
  with_reducible repeat' first | assumption | apply logReplay_kept | apply sendHealth_kept

theorem alarmForward_kept (H : Kept K T N h) : Kept K T N h.alarmForward := by
  unfold Hub.alarmForward
  split
  · exact H
  · exact logReplay_kept _ (sendHealth_kept _ _ (qTake_kept H ‹_›))

theorem summary_kept (H : Kept K T N h) : Kept K T N h.summary := by
  unfold Hub.summary
  with_reducible repeat'
    first
      | assumption | (refine fun (g : Hub) n (_ : Kept K T N g) => ?_) | apply sendHealth_kept | apply kept_ite
      | apply kept_foldl
      | (apply kept_hub; first | assumption | apply sendHealth_kept | apply kept_ite | apply kept_foldl)

theorem ocxoLevel_kept (warm : Bool) (H : Kept K T N h) : Kept K T N (h.ocxoLevel warm) := by
  unfold Hub.ocxoLevel
  with_reducible repeat'
    first
      | assumption | apply ocxoWarmChange_kept | apply kept_ite
      | (apply kept_hub; first | assumption | apply ocxoWarmChange_kept | apply kept_ite)
      | (apply kept_clk; first | assumption | apply ocxoWarmChange_kept | apply kept_ite)

theorem bxSetActs_kept (H : Kept K T N h) : Kept K T N h.bxSetActs := by
  unfold Hub.bxSetActs
  with_reducible repeat'
    first
      | assumption | apply bxSetCount_kept | apply wr_kept | apply leafSyncAll_kept | apply cfgBxSet_kept
      | apply kept_ite

theorem bxSet_kept (H : Kept K T N h) : Kept K T N h.bxSet := by
  unfold Hub.bxSet
  with_reducible repeat' first | assumption | apply fcGate_kept | apply bxSetActs_kept

theorem alignTake_kept (H : Kept K T N h) : Kept K T N h.alignTake := by
  unfold Hub.alignTake
  with_reducible repeat'
    first
      | assumption | (refine fun (g : Hub) n (_ : Kept K T N g) => ?_) | apply alignApply_kept
      | apply refreshLatency_kept | apply forAll_kept | apply recomputeOffset_kept | apply kept_ite

theorem swapTake_kept (s : Stage) (j c : Nat) (force : Bool) (H : Kept K T N h) : Kept K T N (h.swapTake s j c
    force) := by
  unfold Hub.swapTake
  with_reducible repeat' first | assumption | apply swapForce_kept | apply swap_kept | apply kept_ite

theorem recSyncActs_kept (H : Kept K T N h) : Kept K T N h.recSyncActs := by
  unfold Hub.recSyncActs
  with_reducible repeat' first | assumption | (apply kept_hub; first | assumption)

theorem recSync_kept (H : Kept K T N h) : Kept K T N h.recSync := by
  unfold Hub.recSync
  with_reducible repeat' first | assumption | apply fcGate_kept | apply recSyncActs_kept

theorem diagRingRead_kept (m j c w : Nat) (errs : List EccErr) (H : Kept K T N h) : Kept K T N (h.diagRingRead m j c
    w errs) := by
  unfold Hub.diagRingRead
  with_reducible repeat'
    first
      | assumption | apply busRead_kept | apply diagRead_kept | apply kept_ite
      | (apply kept_hub; first | assumption | apply busRead_kept | apply diagRead_kept | apply kept_ite)

theorem signalLevel_kept (l : Nat) (on los : Bool) (H : Kept K T N h) : Kept K T N (h.signalLevel l on los) := by
  unfold Hub.signalLevel
  with_reducible repeat'
    first
      | assumption | apply setLane_kept | apply signalRise_kept | apply signalLoss_kept | apply kept_ite
      | (apply kept_hub; first | assumption | apply setLane_kept | apply signalRise_kept | apply signalLoss_kept | apply kept_ite)

theorem serve_kept (m : Nat) (r : RF) (ok : Bool) (op : KeeperOp) (H : Kept K T N h) : Kept K T N (h.serve m r ok
    op) := by
  unfold Hub.serve
  with_reducible repeat' first | assumption | apply keeperServed_kept | apply kept_ite

theorem serveReset_kept (m k : Nat) (H : Kept K T N h) : Kept K T N (h.serveReset m k) := by
  unfold Hub.serveReset
  with_reducible repeat' first | assumption | apply keeperCtrl_kept | apply kept_ite

/-! ## Machine/ItemOps.lean -/

theorem consumed_kept (q : Nat) (got : List Nat) (item : QItem) (H : Kept K T N h) : Kept K T N (h.consumed q got
    item) := by
  unfold Hub.consumed
  with_reducible repeat'
    first
      | assumption | (intro x; refine (fun (_ : Kept K T N x) => ?_) ?_; clear_value x) | (intro x)
      | (lift_lets; intro x; refine (fun (_ : Kept K T N x) => ?_) ?_; clear_value x) | (lift_lets; intro x)
      | apply send_kept | apply submit_kept | apply portResults_kept | apply journalTaken_kept | apply sendLeaf_kept
      | apply alarmTaken_kept | apply dlTake_kept | apply monTaken_kept | apply kept_ite
      | (apply kept_hub; first | assumption | apply send_kept | apply submit_kept | apply portResults_kept | apply journalTaken_kept | apply sendLeaf_kept | apply alarmTaken_kept | apply dlTake_kept | apply monTaken_kept | apply kept_ite)
      | split | (clear_value *; split)

theorem headLost_kept (x : Queue) (H : Kept K T N h) : Kept K T N (h.headLost x) := by
  unfold Hub.headLost
  with_reducible repeat'
    first
      | assumption | apply itemLost_kept | apply kept_ite
      | (apply kept_hub; first | assumption | apply itemLost_kept | apply kept_ite) | split | (clear_value *; split)

theorem queuePop_kept (q : Nat) (err : QErr) (H : Kept K T N h) : Kept K T N (h.queuePop q err) := by
  unfold Hub.queuePop
  with_reducible repeat'
    first
      | assumption | (intro x; refine (fun (_ : Kept K T N x) => ?_) ?_; clear_value x) | (intro x)
      | (lift_lets; intro x; refine (fun (_ : Kept K T N x) => ?_) ?_; clear_value x) | (lift_lets; intro x)
      | apply qPop_kept | apply headLost_kept | apply mark_kept | apply consumed_kept | apply kept_ite
      | (apply kept_hub; first | assumption | apply qPop_kept | apply headLost_kept | apply mark_kept | apply consumed_kept | apply kept_ite)
      | split | (clear_value *; split)

theorem itemDone_kept (d : Nat) (echo : Option Nat) (words : List Nat) (H : Kept K T N h) : Kept K T N (h.itemDone d
    echo words) := by
  unfold Hub.itemDone
  with_reducible repeat'
    first
      | assumption | (refine fun (g : Hub) n (_ : Kept K T N g) => ?_)
      | (intro x; refine (fun (_ : Kept K T N x) => ?_) ?_; clear_value x) | (intro x)
      | (lift_lets; intro x; refine (fun (_ : Kept K T N x) => ?_) ?_; clear_value x) | (lift_lets; intro x)
      | apply dlAsk_kept | apply ulAck_kept | apply laneBad_kept | apply resend_kept | apply hostIdent_kept
      | apply ulIdentAck_kept | apply echo_kept | apply kept_ite | apply kept_foldl
      | (apply kept_hub; first | assumption | apply dlAsk_kept | apply ulAck_kept | apply laneBad_kept | apply resend_kept | apply hostIdent_kept | apply ulIdentAck_kept | apply echo_kept | apply kept_ite | apply kept_foldl)
      | split | (clear_value *; split)

theorem ctlSymbol_kept (d : Nat) (echo : Option Nat) (sym : Nat) (H : Kept K T N h) : Kept K T N (h.ctlSymbol d echo
    sym) := by
  unfold Hub.ctlSymbol
  with_reducible repeat'
    first
      | assumption | (intro x; refine (fun (_ : Kept K T N x) => ?_) ?_; clear_value x) | (intro x)
      | (lift_lets; intro x; refine (fun (_ : Kept K T N x) => ?_) ?_; clear_value x) | (lift_lets; intro x)
      | apply echo_kept | apply ctlDiscard_kept | apply itemDone_kept | apply kept_ite
      | (apply kept_hub; first | assumption | apply echo_kept | apply ctlDiscard_kept | apply itemDone_kept | apply kept_ite)
      | split | (clear_value *; split)

theorem ctlSymbols_kept (d : Nat) (echo : Option Nat) (l : List Nat) (H : Kept K T N h) : Kept K T N (h.ctlSymbols d
    echo l) := by
  unfold Hub.ctlSymbols
  with_reducible repeat'
    first
      | assumption | (refine fun (g : Hub) n (_ : Kept K T N g) => ?_) | apply ctlSymbol_kept | apply echo_kept
      | apply kept_foldl

theorem identSymbols_kept (d : Nat) (l : List Nat) (H : Kept K T N h) : Kept K T N (h.identSymbols d l) := by
  induction l generalizing h with
  | nil => exact H
  | cons x t ih =>
    unfold Hub.identSymbols
    dsimp only
    apply ih
    split
    · exact kept_ite (hostIdent_kept _ _ _ (kept_hub H)) (kept_hub H)
    · exact kept_hub H

theorem fastCode_kept (code : Nat) (H : Kept K T N h) : Kept K T N (h.fastCode code) := by
  unfold Hub.fastCode
  with_reducible repeat'
    first
      | assumption | apply fcGate_kept | apply runStart_kept | apply runStop_kept | apply fcIgnored_kept
      | (apply kept_hub; first | assumption | apply fcGate_kept | apply runStart_kept | apply runStop_kept | apply fcIgnored_kept)
      | split | (clear_value *; split)

theorem fastStrobes_kept (cal rec_ : Bool) (H : Kept K T N h) : Kept K T N (h.fastStrobes cal rec_) := by
  unfold Hub.fastStrobes
  with_reducible repeat'
    first
      | assumption | apply recSync_kept | apply fcGate_kept | apply calStrobe_kept | apply leafForward_kept
      | apply kept_ite

theorem fastCommands_kept (byte : Nat) (H : Kept K T N h) : Kept K T N (h.fastCommands byte) := by
  unfold Hub.fastCommands
  with_reducible repeat'
    first
      | assumption | apply bxSet_kept | apply fcGate_kept | apply cfgApplyFast_kept | apply fastStrobes_kept
      | apply fastCode_kept | apply accept_kept | apply kept_ite

theorem takeFrame_kept (d : Nat) (f : List Nat) (ps : Nat) (H : Kept K T N h) : Kept K T N (h.takeFrame d f ps) :=
    by
  unfold Hub.takeFrame
  with_reducible repeat'
    first
      | assumption | apply hardReset_kept | apply fastCommands_kept | apply ctlSymbols_kept | apply kept_ite

theorem receiveFrame_kept (d : Nat) (f : Option LineFrame) (H : Kept K T N h) : Kept K T N (h.receiveFrame d f).2 :=
    by
  unfold Hub.receiveFrame
  with_reducible repeat'
    first
      | assumption | (intro x; refine (fun (_ : Kept K T N x) => ?_) ?_; clear_value x) | (intro x)
      | (lift_lets; intro x; refine (fun (_ : Kept K T N x) => ?_) ?_; clear_value x) | (lift_lets; intro x)
      | apply receive_kept | (apply kept_hub; first | assumption | apply receive_kept) | split
      | (clear_value *; split)

theorem dlSeen_kept (d : Nat) (f : Option DlFrame) (H : Kept K T N h) : Kept K T N (h.dlSeen d f) := by
  unfold Hub.dlSeen
  dsimp only
  split
  · exact kept_ite (identSymbols_kept _ _ (dlRecord_kept _ _ H)) (dlRecord_kept _ _ H)
  · exact dlRecord_kept _ _ H

theorem dlFrame_kept (a b : Option DlFrame) (H : Kept K T N h) : Kept K T N (h.dlFrame a b) := by
  unfold Hub.dlFrame
  with_reducible repeat'
    first
      | assumption | (intro x; refine (fun (_ : Kept K T N x) => ?_) ?_; clear_value x) | (intro x)
      | (lift_lets; intro x; refine (fun (_ : Kept K T N x) => ?_) ?_; clear_value x) | (lift_lets; intro x)
      | apply dlSeen_kept | apply checkFreeRun_kept | apply takeFrame_kept | apply dlFault_kept | apply inc_kept
      | apply fcLost_kept | apply kept_ite
      | (apply kept_hub; first | assumption | apply dlSeen_kept | apply checkFreeRun_kept | apply takeFrame_kept | apply dlFault_kept | apply inc_kept | apply fcLost_kept | apply kept_ite)
      | split | (clear_value *; split)

theorem gazeboFrame_kept (d : Nat) (f : Option DlFrame) (H : Kept K T N h) : Kept K T N (h.gazeboFrame d f) := by
  unfold Hub.gazeboFrame
  with_reducible repeat'
    first
      | assumption | apply wakeFrame_kept | apply wakeBroken_kept | apply kept_ite
      | (apply kept_hub; first | assumption | apply wakeFrame_kept | apply wakeBroken_kept | apply kept_ite) | split
      | (clear_value *; split)

theorem dlReceive_kept (a b : Option LineFrame) (H : Kept K T N h) : Kept K T N (h.dlReceive a b) := by
  unfold Hub.dlReceive
  with_reducible repeat'
    first
      | assumption | apply receiveFrame_kept | apply dlFrame_kept | apply gazeboFrame_kept | apply kept_ite

theorem upItem_kept (s : Nat) (words : List Nat) (H : Kept K T N h) : Kept K T N (h.upItem s words) := by
  unfold Hub.upItem
  with_reducible repeat'
    first
      | assumption | (intro x; refine (fun (_ : Kept K T N x) => ?_) ?_; clear_value x) | (intro x)
      | (lift_lets; intro x; refine (fun (_ : Kept K T N x) => ?_) ?_; clear_value x) | (lift_lets; intro x)
      | apply leafIdent_kept | apply leafReply_kept | apply leafAlarm_kept
      | (apply kept_hub; first | assumption | apply leafIdent_kept | apply leafReply_kept | apply leafAlarm_kept)
      | split | (clear_value *; split)

theorem upControl_kept (s sym : Nat) (H : Kept K T N h) : Kept K T N (h.upControl s sym) := by
  unfold Hub.upControl
  with_reducible repeat'
    first
      | assumption | (intro x; refine (fun (_ : Kept K T N x) => ?_) ?_; clear_value x) | (intro x)
      | (lift_lets; intro x; refine (fun (_ : Kept K T N x) => ?_) ?_; clear_value x) | (lift_lets; intro x)
      | apply setLeaf_kept | apply leafItemDiscard_kept | apply upItem_kept | apply kept_ite
      | (apply kept_hub; first | assumption | apply setLeaf_kept | apply leafItemDiscard_kept | apply upItem_kept | apply kept_ite)
      | split | (clear_value *; split)

theorem upData_kept (s n : Nat) (l : List Nat) (H : Kept K T N h) : Kept K T N (h.upData s n l) := by
  induction l generalizing h with
  | nil => exact H
  | cons x t ih =>
    have H2 : ∀ w, Kept K T N (if (assemble (fun _ => true) (h.leaf s).record x).discarded = true then
        (h.setLeaf s w).recordDrop s 4 else h.setLeaf s w) :=
      fun w => kept_ite (recordDrop_kept _ _ (setLeaf_kept _ _ H)) (setLeaf_kept _ _ H)
    unfold Hub.upData
    dsimp only
    apply ih
    split
    · exact leafRecord_kept _ _ _ _ (H2 _)
    · exact H2 _

theorem upBad_kept (s : Nat) (H : Kept K T N h) : Kept K T N (h.upBad s) := by
  unfold Hub.upBad
  with_reducible repeat'
    first
      | assumption | apply leafFault_kept | apply setLeaf_kept | apply leafItemDiscard_kept | apply recordDrop_kept
      | apply kept_ite
      | (apply kept_hub; first | assumption | apply leafFault_kept | apply setLeaf_kept | apply leafItemDiscard_kept | apply recordDrop_kept | apply kept_ite)

theorem upPassed_kept (s k : Nat) (H : Kept K T N h) : Kept K T N (h.upPassed s k) := by
  unfold Hub.upPassed
  with_reducible repeat'
    first
      | assumption | apply leafSyncDone_kept | apply leafPresentNow_kept | apply setLeaf_kept | apply kept_ite
      | (apply kept_hub; first | assumption | apply leafSyncDone_kept | apply leafPresentNow_kept | apply setLeaf_kept | apply kept_ite)

theorem upEcho_kept (s k ps : Nat) (H : Kept K T N h) : Kept K T N (h.upEcho s k ps) := by
  unfold Hub.upEcho
  with_reducible repeat' first | assumption | apply rttReply_kept | apply kept_ite

theorem upGood_kept (s : Nat) (f : List Nat) (n : Option Nat) (ps : Nat) (H : Kept K T N h) :
    Kept K T N (h.upGood s f n ps) := by
  unfold Hub.upGood
  dsimp only
  generalize lbxSlip f n = slip
  have H1 := setLeaf_kept s { h.leaf s with slipped := slip } H
  have H2 := kept_ite (c := slip = true) (set1_kept (LEAF_STATUS_LBX_SLIP s) H1) H1
  cases n with
  | none =>
    have H3 := upData_kept s ((none : Option Nat).getD 0 % 2 ^ 16) ((f.drop 3).take 11) (upControl_kept s (f.getD 2 0) H2)
    exact kept_ite (leafSync_kept s H3) H3
  | some k =>
    have H3 := kept_ite (c := (!slip) = true ∧ f.getD 2 0 = k286) (upEcho_kept s k ps H2) H2
    have H4 := upData_kept s (k % 2 ^ 16) ((f.drop 3).take 11) (upControl_kept s (f.getD 2 0) H3)
    exact kept_ite (leafSync_kept s H4) (upPassed_kept s k H4)

theorem upstreamFrame_kept (s : Nat) (f : List Nat) (codeErrs ps : Nat) (H : Kept K T N h) : Kept K T N
    (h.upstreamFrame s f codeErrs ps) := by
  unfold Hub.upstreamFrame
  with_reducible repeat'
    first
      | assumption | (intro x; refine (fun (_ : Kept K T N x) => ?_) ?_; clear_value x) | (intro x)
      | (lift_lets; intro x; refine (fun (_ : Kept K T N x) => ?_) ?_; clear_value x) | (lift_lets; intro x)
      | apply add_kept | apply setLeaf_kept | apply upGood_kept | apply upBad_kept | apply kept_ite
      | (apply kept_hub; first | assumption | apply add_kept | apply setLeaf_kept | apply upGood_kept | apply upBad_kept | apply kept_ite)

theorem spokeFrame_kept (s : Nat) (f : LineFrame) (H : Kept K T N h) : Kept K T N (h.spokeFrame s f) := by
  unfold Hub.spokeFrame
  with_reducible repeat'
    first
      | assumption | apply receive_kept | apply loopOutside_kept | apply upstreamFrame_kept | apply kept_ite

/-! ## Keys and the test access port: what is left when they change -/

/-- A key is written. -/
theorem keyWritten_kept {K' : SMap (List Nat)} (H : Kept K T N h) :
    Kept K' T N { h with keyJob := none, keys := K' } := ⟨H.sound, rfl, H.tap, H.nonces⟩

/-- The end of a key programming may write a key, and keeps the rest (R416). -/
theorem keyDone_kept (good : Bool) (H : Kept K T N h) : Kept (h.keyDone good).keys T N (h.keyDone good) := by
  suffices e : ∃ K', Kept K' T N (h.keyDone good) by
    obtain ⟨K', H'⟩ := e
    exact ⟨H'.sound, rfl, H'.tap, H'.nonces⟩
  unfold Hub.keyDone
  with_reducible
    split
    · exact ⟨K, H⟩
    · rename_i job _
      refine ⟨SMap.set blankKey h.keys job.slot job.key, ?_⟩
      have H1 := keyWritten_kept (K' := SMap.set blankKey h.keys job.slot job.key) H
      generalize { h with keyJob := none, keys := SMap.set blankKey h.keys job.slot job.key } = g at H1 ⊢
      have H2 := forAll_kept (List.range 8) _ (fun f k F => wr_kept (SES_KEY_DATA k).addr 0 F)
        (put_kept SES_KEY_CTRL_PROGRAM 0 (put_kept SES_KEY_CTRL_BUSY 0 (burn_kept (SES_SLOT job.slot).addr
          (2 ^ 31 + b2n (!good || g.on (SES_SLOT_REVOKED job.slot)) * 2 ^ 30 + job.wards) H1)))
      exact kept_ite (set1_kept _ H2) (set1_kept _ H2)

/-- An instruction of the test access port changes its state, and keeps the rest (R528). -/
theorem tapLoad_kept (i : TapInstr) (H : Kept K T N h) : Kept K (h.tapLoad i).tap N (h.tapLoad i) := by
  have H1 := kept_ite (c := ((h.tap.instr.takesBalls && !i.takesBalls) && h.pwr.state != .off) = true)
    (resetPinLow_kept H) H
  exact ⟨H1.sound, H1.keys, rfl, H1.nonces⟩

theorem tapPreload_kept (word : Nat) (H : Kept K T N h) : Kept K (h.tapPreload word).tap N (h.tapPreload word) := by
  have H1 := tapLoad_kept .samplePreload H
  exact ⟨H1.sound, H1.keys, rfl, H1.nonces⟩

end Hub

end Sys2Proof.Machine
end

