-- ==== Sys2Proof/Laws/Places.lean ====
section
/-! SUPPORT. Where the registers lie whose write or read is a command of its own (R22, R23). -/

namespace Sys2Proof.Machine

theorem place_Q_CTRL : ∀ (q : Fin 8), place (Q_CTRL q).addr = .reg ⟨.Q_CTRL, q, 0, false⟩ := by decide +kernel
theorem place_CLK_CTRL : place CLK_CTRL.addr = .reg ⟨.CLK_CTRL, 0, 0, false⟩ := rfl
theorem place_TIME_ALIGN_CTRL : place TIME_ALIGN_CTRL.addr = .reg ⟨.TIME_ALIGN_CTRL, 0, 0, false⟩ := rfl
theorem place_ORG_CTRL : place ORG_CTRL.addr = .reg ⟨.ORG_CTRL, 0, 0, false⟩ := rfl
theorem place_CELL_HEALTH : ∀ (j : Fin 24) (c : Fin 17), place (CELL_HEALTH j c).addr = .reg ⟨.CELL_HEALTH, j, c, false⟩ :=
  by decide +kernel
theorem place_HNG_MOVE : ∀ (j : Fin 24), place (HNG_MOVE j).addr = .reg ⟨.HNG_MOVE, j, 0, false⟩ := by decide +kernel
theorem place_HNG_COMMIT : ∀ (j : Fin 24), place (HNG_COMMIT j).addr = .reg ⟨.HNG_COMMIT, j, 0, false⟩ :=
  by decide +kernel
theorem place_BLK_CTRL : ∀ (j : Fin 24), place (BLK_CTRL j).addr = .reg ⟨.BLK_CTRL, j, 0, false⟩ := by decide +kernel
theorem place_CREC_CTRL : place CREC_CTRL.addr = .reg ⟨.CREC_CTRL, 0, 0, false⟩ := rfl
theorem place_BLK_SNAP_CTRL : ∀ (j : Fin 24), place (BLK_SNAP_CTRL j).addr = .reg ⟨.BLK_SNAP_CTRL, j, 0, false⟩ :=
  by decide +kernel
theorem place_RGN_CTRL : ∀ (g : Fin 6), place (RGN_CTRL g).addr = .reg ⟨.RGN_CTRL, g, 0, false⟩ := by decide +kernel
theorem place_IVL_CTRL : ∀ (e : Fin 4), place (IVL_CTRL e).addr = .reg ⟨.IVL_CTRL, e, 0, false⟩ := by decide +kernel
theorem place_FRQ_CTRL : place FRQ_CTRL.addr = .reg ⟨.FRQ_CTRL, 0, 0, false⟩ := rfl
theorem place_MON_URGENT : place MON_URGENT.addr = .reg ⟨.MON_URGENT, 0, 0, false⟩ := rfl
theorem place_UL_SPARE : place UL_SPARE.addr = .reg ⟨.UL_SPARE, 0, 0, false⟩ := rfl
theorem place_UL_COMMON_CTRL : place UL_COMMON_CTRL.addr = .reg ⟨.UL_COMMON_CTRL, 0, 0, false⟩ := rfl
theorem place_DL_HRST_ARM : place DL_HRST_ARM.addr = .reg ⟨.DL_HRST_ARM, 0, 0, false⟩ := rfl
theorem place_LEAF_CTRL : ∀ (sp : Fin 16), place (LEAF_CTRL sp).addr = .reg ⟨.LEAF_CTRL, sp, 0, false⟩ :=
  by decide +kernel
theorem place_LEAF_BCAST_CTRL : place LEAF_BCAST_CTRL.addr = .reg ⟨.LEAF_BCAST_CTRL, 0, 0, false⟩ := rfl
theorem place_CFG_CTRL : place CFG_CTRL.addr = .reg ⟨.CFG_CTRL, 0, 0, false⟩ := rfl
theorem place_CFG_LOAD_DATA : place CFG_LOAD_DATA.addr = .reg ⟨.CFG_LOAD_DATA, 0, 0, false⟩ := rfl
theorem place_SES_CTRL : place SES_CTRL.addr = .reg ⟨.SES_CTRL, 0, 0, false⟩ := rfl
theorem place_SES_KEY_CTRL : place SES_KEY_CTRL.addr = .reg ⟨.SES_KEY_CTRL, 0, 0, false⟩ := rfl
theorem place_PWR_CTRL : place PWR_CTRL.addr = .reg ⟨.PWR_CTRL, 0, 0, false⟩ := rfl
theorem place_PWR_CELL_RESET : place PWR_CELL_RESET.addr = .reg ⟨.PWR_CELL_RESET, 0, 0, false⟩ := rfl
theorem place_GZB_CTRL : place GZB_CTRL.addr = .reg ⟨.GZB_CTRL, 0, 0, false⟩ := rfl
theorem place_TDC_TIN_FIFO : ∀ (i : Fin 4), place (TDC_TIN_FIFO i).addr = .reg ⟨.TDC_TIN_FIFO, i, 0, false⟩ :=
  by decide +kernel
theorem place_TDC_LAST : ∀ (j : Fin 24) (c : Fin 17), place (TDC_LAST j c).addr = .reg ⟨.TDC_LAST, j, c, false⟩ :=
  by decide +kernel
theorem place_lane : ∀ l : Fin 30, place (laneBase l) = .reg (laneLoc l) := by decide +kernel

end Sys2Proof.Machine
end

