-- ==== Sys2Proof/Laws/State.lean ====
section
/-! SUPPORT. The fields of the hub after each basic update: one lemma per field per update. -/

namespace Sys2Proof.Machine

variable (h : Hub)

/-! ## wr -/

@[simp] theorem Hub.wr_fuse (k v : Nat) : (h.wr k v).fuse = h.fuse := rfl
@[simp] theorem Hub.wr_clk (k v : Nat) : (h.wr k v).clk = h.clk := rfl
@[simp] theorem Hub.wr_queues (k v : Nat) : (h.wr k v).queues = h.queues := rfl
@[simp] theorem Hub.wr_seq6 (k v : Nat) : (h.wr k v).seq6 = h.seq6 := rfl
@[simp] theorem Hub.wr_tx (k v : Nat) : (h.wr k v).tx = h.tx := rfl
@[simp] theorem Hub.wr_cells (k v : Nat) : (h.wr k v).cells = h.cells := rfl
@[simp] theorem Hub.wr_chans (k v : Nat) : (h.wr k v).chans = h.chans := rfl
@[simp] theorem Hub.wr_blks (k v : Nat) : (h.wr k v).blks = h.blks := rfl
@[simp] theorem Hub.wr_rgns (k v : Nat) : (h.wr k v).rgns = h.rgns := rfl
@[simp] theorem Hub.wr_rings (k v : Nat) : (h.wr k v).rings = h.rings := rfl
@[simp] theorem Hub.wr_hitStores (k v : Nat) : (h.wr k v).hitStores = h.hitStores := rfl
@[simp] theorem Hub.wr_trig (k v : Nat) : (h.wr k v).trig = h.trig := rfl
@[simp] theorem Hub.wr_crec (k v : Nat) : (h.wr k v).crec = h.crec := rfl
@[simp] theorem Hub.wr_tdcs (k v : Nat) : (h.wr k v).tdcs = h.tdcs := rfl
@[simp] theorem Hub.wr_tins (k v : Nat) : (h.wr k v).tins = h.tins := rfl
@[simp] theorem Hub.wr_ivls (k v : Nat) : (h.wr k v).ivls = h.ivls := rfl
@[simp] theorem Hub.wr_lanes (k v : Nat) : (h.wr k v).lanes = h.lanes := rfl
@[simp] theorem Hub.wr_uls (k v : Nat) : (h.wr k v).uls = h.uls := rfl
@[simp] theorem Hub.wr_ulRate (k v : Nat) : (h.wr k v).ulRate = h.ulRate := rfl
@[simp] theorem Hub.wr_lom (k v : Nat) : (h.wr k v).lom = h.lom := rfl
@[simp] theorem Hub.wr_leaves (k v : Nat) : (h.wr k v).leaves = h.leaves := rfl
@[simp] theorem Hub.wr_access (k v : Nat) : (h.wr k v).access = h.access := rfl
@[simp] theorem Hub.wr_flash (k v : Nat) : (h.wr k v).flash = h.flash := rfl
@[simp] theorem Hub.wr_kpr (k v : Nat) : (h.wr k v).kpr = h.kpr := rfl
@[simp] theorem Hub.wr_laneMap (k v : Nat) : (h.wr k v).laneMap = h.laneMap := rfl
@[simp] theorem Hub.wr_cfg (k v : Nat) : (h.wr k v).cfg = h.cfg := rfl
@[simp] theorem Hub.wr_sess (k v : Nat) : (h.wr k v).sess = h.sess := rfl
@[simp] theorem Hub.wr_keys (k v : Nat) : (h.wr k v).keys = h.keys := rfl
@[simp] theorem Hub.wr_keyJob (k v : Nat) : (h.wr k v).keyJob = h.keyJob := rfl
@[simp] theorem Hub.wr_nonces (k v : Nat) : (h.wr k v).nonces = h.nonces := rfl
@[simp] theorem Hub.wr_port (k v : Nat) : (h.wr k v).port = h.port := rfl
@[simp] theorem Hub.wr_masters (k v : Nat) : (h.wr k v).masters = h.masters := rfl
@[simp] theorem Hub.wr_rtt (k v : Nat) : (h.wr k v).rtt = h.rtt := rfl
@[simp] theorem Hub.wr_frq (k v : Nat) : (h.wr k v).frq = h.frq := rfl
@[simp] theorem Hub.wr_mon (k v : Nat) : (h.wr k v).mon = h.mon := rfl
@[simp] theorem Hub.wr_cal (k v : Nat) : (h.wr k v).cal = h.cal := rfl
@[simp] theorem Hub.wr_pwr (k v : Nat) : (h.wr k v).pwr = h.pwr := rfl
@[simp] theorem Hub.wr_tap (k v : Nat) : (h.wr k v).tap = h.tap := rfl

/-! ## put -/

@[simp] theorem Hub.put_fuse (f : RF) (n : Nat) : (h.put f n).fuse = h.fuse := rfl
@[simp] theorem Hub.put_clk (f : RF) (n : Nat) : (h.put f n).clk = h.clk := rfl
@[simp] theorem Hub.put_queues (f : RF) (n : Nat) : (h.put f n).queues = h.queues := rfl
@[simp] theorem Hub.put_seq6 (f : RF) (n : Nat) : (h.put f n).seq6 = h.seq6 := rfl
@[simp] theorem Hub.put_tx (f : RF) (n : Nat) : (h.put f n).tx = h.tx := rfl
@[simp] theorem Hub.put_cells (f : RF) (n : Nat) : (h.put f n).cells = h.cells := rfl
@[simp] theorem Hub.put_chans (f : RF) (n : Nat) : (h.put f n).chans = h.chans := rfl
@[simp] theorem Hub.put_blks (f : RF) (n : Nat) : (h.put f n).blks = h.blks := rfl
@[simp] theorem Hub.put_rgns (f : RF) (n : Nat) : (h.put f n).rgns = h.rgns := rfl
@[simp] theorem Hub.put_rings (f : RF) (n : Nat) : (h.put f n).rings = h.rings := rfl
@[simp] theorem Hub.put_hitStores (f : RF) (n : Nat) : (h.put f n).hitStores = h.hitStores := rfl
@[simp] theorem Hub.put_trig (f : RF) (n : Nat) : (h.put f n).trig = h.trig := rfl
@[simp] theorem Hub.put_crec (f : RF) (n : Nat) : (h.put f n).crec = h.crec := rfl
@[simp] theorem Hub.put_tdcs (f : RF) (n : Nat) : (h.put f n).tdcs = h.tdcs := rfl
@[simp] theorem Hub.put_tins (f : RF) (n : Nat) : (h.put f n).tins = h.tins := rfl
@[simp] theorem Hub.put_ivls (f : RF) (n : Nat) : (h.put f n).ivls = h.ivls := rfl
@[simp] theorem Hub.put_lanes (f : RF) (n : Nat) : (h.put f n).lanes = h.lanes := rfl
@[simp] theorem Hub.put_uls (f : RF) (n : Nat) : (h.put f n).uls = h.uls := rfl
@[simp] theorem Hub.put_ulRate (f : RF) (n : Nat) : (h.put f n).ulRate = h.ulRate := rfl
@[simp] theorem Hub.put_lom (f : RF) (n : Nat) : (h.put f n).lom = h.lom := rfl
@[simp] theorem Hub.put_leaves (f : RF) (n : Nat) : (h.put f n).leaves = h.leaves := rfl
@[simp] theorem Hub.put_access (f : RF) (n : Nat) : (h.put f n).access = h.access := rfl
@[simp] theorem Hub.put_flash (f : RF) (n : Nat) : (h.put f n).flash = h.flash := rfl
@[simp] theorem Hub.put_kpr (f : RF) (n : Nat) : (h.put f n).kpr = h.kpr := rfl
@[simp] theorem Hub.put_laneMap (f : RF) (n : Nat) : (h.put f n).laneMap = h.laneMap := rfl
@[simp] theorem Hub.put_cfg (f : RF) (n : Nat) : (h.put f n).cfg = h.cfg := rfl
@[simp] theorem Hub.put_sess (f : RF) (n : Nat) : (h.put f n).sess = h.sess := rfl
@[simp] theorem Hub.put_keys (f : RF) (n : Nat) : (h.put f n).keys = h.keys := rfl
@[simp] theorem Hub.put_keyJob (f : RF) (n : Nat) : (h.put f n).keyJob = h.keyJob := rfl
@[simp] theorem Hub.put_nonces (f : RF) (n : Nat) : (h.put f n).nonces = h.nonces := rfl
@[simp] theorem Hub.put_port (f : RF) (n : Nat) : (h.put f n).port = h.port := rfl
@[simp] theorem Hub.put_masters (f : RF) (n : Nat) : (h.put f n).masters = h.masters := rfl
@[simp] theorem Hub.put_rtt (f : RF) (n : Nat) : (h.put f n).rtt = h.rtt := rfl
@[simp] theorem Hub.put_frq (f : RF) (n : Nat) : (h.put f n).frq = h.frq := rfl
@[simp] theorem Hub.put_mon (f : RF) (n : Nat) : (h.put f n).mon = h.mon := rfl
@[simp] theorem Hub.put_cal (f : RF) (n : Nat) : (h.put f n).cal = h.cal := rfl
@[simp] theorem Hub.put_pwr (f : RF) (n : Nat) : (h.put f n).pwr = h.pwr := rfl
@[simp] theorem Hub.put_tap (f : RF) (n : Nat) : (h.put f n).tap = h.tap := rfl

/-! ## set1 -/

@[simp] theorem Hub.set1_fuse (f : RF) : (h.set1 f).fuse = h.fuse := rfl
@[simp] theorem Hub.set1_clk (f : RF) : (h.set1 f).clk = h.clk := rfl
@[simp] theorem Hub.set1_queues (f : RF) : (h.set1 f).queues = h.queues := rfl
@[simp] theorem Hub.set1_seq6 (f : RF) : (h.set1 f).seq6 = h.seq6 := rfl
@[simp] theorem Hub.set1_tx (f : RF) : (h.set1 f).tx = h.tx := rfl
@[simp] theorem Hub.set1_cells (f : RF) : (h.set1 f).cells = h.cells := rfl
@[simp] theorem Hub.set1_chans (f : RF) : (h.set1 f).chans = h.chans := rfl
@[simp] theorem Hub.set1_blks (f : RF) : (h.set1 f).blks = h.blks := rfl
@[simp] theorem Hub.set1_rgns (f : RF) : (h.set1 f).rgns = h.rgns := rfl
@[simp] theorem Hub.set1_rings (f : RF) : (h.set1 f).rings = h.rings := rfl
@[simp] theorem Hub.set1_hitStores (f : RF) : (h.set1 f).hitStores = h.hitStores := rfl
@[simp] theorem Hub.set1_trig (f : RF) : (h.set1 f).trig = h.trig := rfl
@[simp] theorem Hub.set1_crec (f : RF) : (h.set1 f).crec = h.crec := rfl
@[simp] theorem Hub.set1_tdcs (f : RF) : (h.set1 f).tdcs = h.tdcs := rfl
@[simp] theorem Hub.set1_tins (f : RF) : (h.set1 f).tins = h.tins := rfl
@[simp] theorem Hub.set1_ivls (f : RF) : (h.set1 f).ivls = h.ivls := rfl
@[simp] theorem Hub.set1_lanes (f : RF) : (h.set1 f).lanes = h.lanes := rfl
@[simp] theorem Hub.set1_uls (f : RF) : (h.set1 f).uls = h.uls := rfl
@[simp] theorem Hub.set1_ulRate (f : RF) : (h.set1 f).ulRate = h.ulRate := rfl
@[simp] theorem Hub.set1_lom (f : RF) : (h.set1 f).lom = h.lom := rfl
@[simp] theorem Hub.set1_leaves (f : RF) : (h.set1 f).leaves = h.leaves := rfl
@[simp] theorem Hub.set1_access (f : RF) : (h.set1 f).access = h.access := rfl
@[simp] theorem Hub.set1_flash (f : RF) : (h.set1 f).flash = h.flash := rfl
@[simp] theorem Hub.set1_kpr (f : RF) : (h.set1 f).kpr = h.kpr := rfl
@[simp] theorem Hub.set1_laneMap (f : RF) : (h.set1 f).laneMap = h.laneMap := rfl
@[simp] theorem Hub.set1_cfg (f : RF) : (h.set1 f).cfg = h.cfg := rfl
@[simp] theorem Hub.set1_sess (f : RF) : (h.set1 f).sess = h.sess := rfl
@[simp] theorem Hub.set1_keys (f : RF) : (h.set1 f).keys = h.keys := rfl
@[simp] theorem Hub.set1_keyJob (f : RF) : (h.set1 f).keyJob = h.keyJob := rfl
@[simp] theorem Hub.set1_nonces (f : RF) : (h.set1 f).nonces = h.nonces := rfl
@[simp] theorem Hub.set1_port (f : RF) : (h.set1 f).port = h.port := rfl
@[simp] theorem Hub.set1_masters (f : RF) : (h.set1 f).masters = h.masters := rfl
@[simp] theorem Hub.set1_rtt (f : RF) : (h.set1 f).rtt = h.rtt := rfl
@[simp] theorem Hub.set1_frq (f : RF) : (h.set1 f).frq = h.frq := rfl
@[simp] theorem Hub.set1_mon (f : RF) : (h.set1 f).mon = h.mon := rfl
@[simp] theorem Hub.set1_cal (f : RF) : (h.set1 f).cal = h.cal := rfl
@[simp] theorem Hub.set1_pwr (f : RF) : (h.set1 f).pwr = h.pwr := rfl
@[simp] theorem Hub.set1_tap (f : RF) : (h.set1 f).tap = h.tap := rfl

/-! ## setCell -/

@[simp] theorem Hub.setCell_regs (n : Nat) (x : Cell) : (h.setCell n x).regs = h.regs := rfl
@[simp] theorem Hub.setCell_fuse (n : Nat) (x : Cell) : (h.setCell n x).fuse = h.fuse := rfl
@[simp] theorem Hub.setCell_clk (n : Nat) (x : Cell) : (h.setCell n x).clk = h.clk := rfl
@[simp] theorem Hub.setCell_queues (n : Nat) (x : Cell) : (h.setCell n x).queues = h.queues := rfl
@[simp] theorem Hub.setCell_seq6 (n : Nat) (x : Cell) : (h.setCell n x).seq6 = h.seq6 := rfl
@[simp] theorem Hub.setCell_tx (n : Nat) (x : Cell) : (h.setCell n x).tx = h.tx := rfl
@[simp] theorem Hub.setCell_chans (n : Nat) (x : Cell) : (h.setCell n x).chans = h.chans := rfl
@[simp] theorem Hub.setCell_blks (n : Nat) (x : Cell) : (h.setCell n x).blks = h.blks := rfl
@[simp] theorem Hub.setCell_rgns (n : Nat) (x : Cell) : (h.setCell n x).rgns = h.rgns := rfl
@[simp] theorem Hub.setCell_rings (n : Nat) (x : Cell) : (h.setCell n x).rings = h.rings := rfl
@[simp] theorem Hub.setCell_hitStores (n : Nat) (x : Cell) : (h.setCell n x).hitStores = h.hitStores := rfl
@[simp] theorem Hub.setCell_trig (n : Nat) (x : Cell) : (h.setCell n x).trig = h.trig := rfl
@[simp] theorem Hub.setCell_crec (n : Nat) (x : Cell) : (h.setCell n x).crec = h.crec := rfl
@[simp] theorem Hub.setCell_tdcs (n : Nat) (x : Cell) : (h.setCell n x).tdcs = h.tdcs := rfl
@[simp] theorem Hub.setCell_tins (n : Nat) (x : Cell) : (h.setCell n x).tins = h.tins := rfl
@[simp] theorem Hub.setCell_ivls (n : Nat) (x : Cell) : (h.setCell n x).ivls = h.ivls := rfl
@[simp] theorem Hub.setCell_lanes (n : Nat) (x : Cell) : (h.setCell n x).lanes = h.lanes := rfl
@[simp] theorem Hub.setCell_uls (n : Nat) (x : Cell) : (h.setCell n x).uls = h.uls := rfl
@[simp] theorem Hub.setCell_ulRate (n : Nat) (x : Cell) : (h.setCell n x).ulRate = h.ulRate := rfl
@[simp] theorem Hub.setCell_lom (n : Nat) (x : Cell) : (h.setCell n x).lom = h.lom := rfl
@[simp] theorem Hub.setCell_leaves (n : Nat) (x : Cell) : (h.setCell n x).leaves = h.leaves := rfl
@[simp] theorem Hub.setCell_access (n : Nat) (x : Cell) : (h.setCell n x).access = h.access := rfl
@[simp] theorem Hub.setCell_flash (n : Nat) (x : Cell) : (h.setCell n x).flash = h.flash := rfl
@[simp] theorem Hub.setCell_kpr (n : Nat) (x : Cell) : (h.setCell n x).kpr = h.kpr := rfl
@[simp] theorem Hub.setCell_laneMap (n : Nat) (x : Cell) : (h.setCell n x).laneMap = h.laneMap := rfl
@[simp] theorem Hub.setCell_cfg (n : Nat) (x : Cell) : (h.setCell n x).cfg = h.cfg := rfl
@[simp] theorem Hub.setCell_sess (n : Nat) (x : Cell) : (h.setCell n x).sess = h.sess := rfl
@[simp] theorem Hub.setCell_keys (n : Nat) (x : Cell) : (h.setCell n x).keys = h.keys := rfl
@[simp] theorem Hub.setCell_keyJob (n : Nat) (x : Cell) : (h.setCell n x).keyJob = h.keyJob := rfl
@[simp] theorem Hub.setCell_nonces (n : Nat) (x : Cell) : (h.setCell n x).nonces = h.nonces := rfl
@[simp] theorem Hub.setCell_port (n : Nat) (x : Cell) : (h.setCell n x).port = h.port := rfl
@[simp] theorem Hub.setCell_masters (n : Nat) (x : Cell) : (h.setCell n x).masters = h.masters := rfl
@[simp] theorem Hub.setCell_rtt (n : Nat) (x : Cell) : (h.setCell n x).rtt = h.rtt := rfl
@[simp] theorem Hub.setCell_frq (n : Nat) (x : Cell) : (h.setCell n x).frq = h.frq := rfl
@[simp] theorem Hub.setCell_mon (n : Nat) (x : Cell) : (h.setCell n x).mon = h.mon := rfl
@[simp] theorem Hub.setCell_cal (n : Nat) (x : Cell) : (h.setCell n x).cal = h.cal := rfl
@[simp] theorem Hub.setCell_pwr (n : Nat) (x : Cell) : (h.setCell n x).pwr = h.pwr := rfl
@[simp] theorem Hub.setCell_tap (n : Nat) (x : Cell) : (h.setCell n x).tap = h.tap := rfl

/-! ## setChan -/

@[simp] theorem Hub.setChan_regs (n : Nat) (x : Chan) : (h.setChan n x).regs = h.regs := rfl
@[simp] theorem Hub.setChan_fuse (n : Nat) (x : Chan) : (h.setChan n x).fuse = h.fuse := rfl
@[simp] theorem Hub.setChan_clk (n : Nat) (x : Chan) : (h.setChan n x).clk = h.clk := rfl
@[simp] theorem Hub.setChan_queues (n : Nat) (x : Chan) : (h.setChan n x).queues = h.queues := rfl
@[simp] theorem Hub.setChan_seq6 (n : Nat) (x : Chan) : (h.setChan n x).seq6 = h.seq6 := rfl
@[simp] theorem Hub.setChan_tx (n : Nat) (x : Chan) : (h.setChan n x).tx = h.tx := rfl
@[simp] theorem Hub.setChan_cells (n : Nat) (x : Chan) : (h.setChan n x).cells = h.cells := rfl
@[simp] theorem Hub.setChan_blks (n : Nat) (x : Chan) : (h.setChan n x).blks = h.blks := rfl
@[simp] theorem Hub.setChan_rgns (n : Nat) (x : Chan) : (h.setChan n x).rgns = h.rgns := rfl
@[simp] theorem Hub.setChan_rings (n : Nat) (x : Chan) : (h.setChan n x).rings = h.rings := rfl
@[simp] theorem Hub.setChan_hitStores (n : Nat) (x : Chan) : (h.setChan n x).hitStores = h.hitStores := rfl
@[simp] theorem Hub.setChan_trig (n : Nat) (x : Chan) : (h.setChan n x).trig = h.trig := rfl
@[simp] theorem Hub.setChan_crec (n : Nat) (x : Chan) : (h.setChan n x).crec = h.crec := rfl
@[simp] theorem Hub.setChan_tdcs (n : Nat) (x : Chan) : (h.setChan n x).tdcs = h.tdcs := rfl
@[simp] theorem Hub.setChan_tins (n : Nat) (x : Chan) : (h.setChan n x).tins = h.tins := rfl
@[simp] theorem Hub.setChan_ivls (n : Nat) (x : Chan) : (h.setChan n x).ivls = h.ivls := rfl
@[simp] theorem Hub.setChan_lanes (n : Nat) (x : Chan) : (h.setChan n x).lanes = h.lanes := rfl
@[simp] theorem Hub.setChan_uls (n : Nat) (x : Chan) : (h.setChan n x).uls = h.uls := rfl
@[simp] theorem Hub.setChan_ulRate (n : Nat) (x : Chan) : (h.setChan n x).ulRate = h.ulRate := rfl
@[simp] theorem Hub.setChan_lom (n : Nat) (x : Chan) : (h.setChan n x).lom = h.lom := rfl
@[simp] theorem Hub.setChan_leaves (n : Nat) (x : Chan) : (h.setChan n x).leaves = h.leaves := rfl
@[simp] theorem Hub.setChan_access (n : Nat) (x : Chan) : (h.setChan n x).access = h.access := rfl
@[simp] theorem Hub.setChan_flash (n : Nat) (x : Chan) : (h.setChan n x).flash = h.flash := rfl
@[simp] theorem Hub.setChan_kpr (n : Nat) (x : Chan) : (h.setChan n x).kpr = h.kpr := rfl
@[simp] theorem Hub.setChan_laneMap (n : Nat) (x : Chan) : (h.setChan n x).laneMap = h.laneMap := rfl
@[simp] theorem Hub.setChan_cfg (n : Nat) (x : Chan) : (h.setChan n x).cfg = h.cfg := rfl
@[simp] theorem Hub.setChan_sess (n : Nat) (x : Chan) : (h.setChan n x).sess = h.sess := rfl
@[simp] theorem Hub.setChan_keys (n : Nat) (x : Chan) : (h.setChan n x).keys = h.keys := rfl
@[simp] theorem Hub.setChan_keyJob (n : Nat) (x : Chan) : (h.setChan n x).keyJob = h.keyJob := rfl
@[simp] theorem Hub.setChan_nonces (n : Nat) (x : Chan) : (h.setChan n x).nonces = h.nonces := rfl
@[simp] theorem Hub.setChan_port (n : Nat) (x : Chan) : (h.setChan n x).port = h.port := rfl
@[simp] theorem Hub.setChan_masters (n : Nat) (x : Chan) : (h.setChan n x).masters = h.masters := rfl
@[simp] theorem Hub.setChan_rtt (n : Nat) (x : Chan) : (h.setChan n x).rtt = h.rtt := rfl
@[simp] theorem Hub.setChan_frq (n : Nat) (x : Chan) : (h.setChan n x).frq = h.frq := rfl
@[simp] theorem Hub.setChan_mon (n : Nat) (x : Chan) : (h.setChan n x).mon = h.mon := rfl
@[simp] theorem Hub.setChan_cal (n : Nat) (x : Chan) : (h.setChan n x).cal = h.cal := rfl
@[simp] theorem Hub.setChan_pwr (n : Nat) (x : Chan) : (h.setChan n x).pwr = h.pwr := rfl
@[simp] theorem Hub.setChan_tap (n : Nat) (x : Chan) : (h.setChan n x).tap = h.tap := rfl

/-! ## setBlk -/

@[simp] theorem Hub.setBlk_regs (n : Nat) (x : Blk) : (h.setBlk n x).regs = h.regs := rfl
@[simp] theorem Hub.setBlk_fuse (n : Nat) (x : Blk) : (h.setBlk n x).fuse = h.fuse := rfl
@[simp] theorem Hub.setBlk_clk (n : Nat) (x : Blk) : (h.setBlk n x).clk = h.clk := rfl
@[simp] theorem Hub.setBlk_queues (n : Nat) (x : Blk) : (h.setBlk n x).queues = h.queues := rfl
@[simp] theorem Hub.setBlk_seq6 (n : Nat) (x : Blk) : (h.setBlk n x).seq6 = h.seq6 := rfl
@[simp] theorem Hub.setBlk_tx (n : Nat) (x : Blk) : (h.setBlk n x).tx = h.tx := rfl
@[simp] theorem Hub.setBlk_cells (n : Nat) (x : Blk) : (h.setBlk n x).cells = h.cells := rfl
@[simp] theorem Hub.setBlk_chans (n : Nat) (x : Blk) : (h.setBlk n x).chans = h.chans := rfl
@[simp] theorem Hub.setBlk_rgns (n : Nat) (x : Blk) : (h.setBlk n x).rgns = h.rgns := rfl
@[simp] theorem Hub.setBlk_rings (n : Nat) (x : Blk) : (h.setBlk n x).rings = h.rings := rfl
@[simp] theorem Hub.setBlk_hitStores (n : Nat) (x : Blk) : (h.setBlk n x).hitStores = h.hitStores := rfl
@[simp] theorem Hub.setBlk_trig (n : Nat) (x : Blk) : (h.setBlk n x).trig = h.trig := rfl
@[simp] theorem Hub.setBlk_crec (n : Nat) (x : Blk) : (h.setBlk n x).crec = h.crec := rfl
@[simp] theorem Hub.setBlk_tdcs (n : Nat) (x : Blk) : (h.setBlk n x).tdcs = h.tdcs := rfl
@[simp] theorem Hub.setBlk_tins (n : Nat) (x : Blk) : (h.setBlk n x).tins = h.tins := rfl
@[simp] theorem Hub.setBlk_ivls (n : Nat) (x : Blk) : (h.setBlk n x).ivls = h.ivls := rfl
@[simp] theorem Hub.setBlk_lanes (n : Nat) (x : Blk) : (h.setBlk n x).lanes = h.lanes := rfl
@[simp] theorem Hub.setBlk_uls (n : Nat) (x : Blk) : (h.setBlk n x).uls = h.uls := rfl
@[simp] theorem Hub.setBlk_ulRate (n : Nat) (x : Blk) : (h.setBlk n x).ulRate = h.ulRate := rfl
@[simp] theorem Hub.setBlk_lom (n : Nat) (x : Blk) : (h.setBlk n x).lom = h.lom := rfl
@[simp] theorem Hub.setBlk_leaves (n : Nat) (x : Blk) : (h.setBlk n x).leaves = h.leaves := rfl
@[simp] theorem Hub.setBlk_access (n : Nat) (x : Blk) : (h.setBlk n x).access = h.access := rfl
@[simp] theorem Hub.setBlk_flash (n : Nat) (x : Blk) : (h.setBlk n x).flash = h.flash := rfl
@[simp] theorem Hub.setBlk_kpr (n : Nat) (x : Blk) : (h.setBlk n x).kpr = h.kpr := rfl
@[simp] theorem Hub.setBlk_laneMap (n : Nat) (x : Blk) : (h.setBlk n x).laneMap = h.laneMap := rfl
@[simp] theorem Hub.setBlk_cfg (n : Nat) (x : Blk) : (h.setBlk n x).cfg = h.cfg := rfl
@[simp] theorem Hub.setBlk_sess (n : Nat) (x : Blk) : (h.setBlk n x).sess = h.sess := rfl
@[simp] theorem Hub.setBlk_keys (n : Nat) (x : Blk) : (h.setBlk n x).keys = h.keys := rfl
@[simp] theorem Hub.setBlk_keyJob (n : Nat) (x : Blk) : (h.setBlk n x).keyJob = h.keyJob := rfl
@[simp] theorem Hub.setBlk_nonces (n : Nat) (x : Blk) : (h.setBlk n x).nonces = h.nonces := rfl
@[simp] theorem Hub.setBlk_port (n : Nat) (x : Blk) : (h.setBlk n x).port = h.port := rfl
@[simp] theorem Hub.setBlk_masters (n : Nat) (x : Blk) : (h.setBlk n x).masters = h.masters := rfl
@[simp] theorem Hub.setBlk_rtt (n : Nat) (x : Blk) : (h.setBlk n x).rtt = h.rtt := rfl
@[simp] theorem Hub.setBlk_frq (n : Nat) (x : Blk) : (h.setBlk n x).frq = h.frq := rfl
@[simp] theorem Hub.setBlk_mon (n : Nat) (x : Blk) : (h.setBlk n x).mon = h.mon := rfl
@[simp] theorem Hub.setBlk_cal (n : Nat) (x : Blk) : (h.setBlk n x).cal = h.cal := rfl
@[simp] theorem Hub.setBlk_pwr (n : Nat) (x : Blk) : (h.setBlk n x).pwr = h.pwr := rfl
@[simp] theorem Hub.setBlk_tap (n : Nat) (x : Blk) : (h.setBlk n x).tap = h.tap := rfl

/-! ## setRgn -/

@[simp] theorem Hub.setRgn_regs (n : Nat) (x : Rgn) : (h.setRgn n x).regs = h.regs := rfl
@[simp] theorem Hub.setRgn_fuse (n : Nat) (x : Rgn) : (h.setRgn n x).fuse = h.fuse := rfl
@[simp] theorem Hub.setRgn_clk (n : Nat) (x : Rgn) : (h.setRgn n x).clk = h.clk := rfl
@[simp] theorem Hub.setRgn_queues (n : Nat) (x : Rgn) : (h.setRgn n x).queues = h.queues := rfl
@[simp] theorem Hub.setRgn_seq6 (n : Nat) (x : Rgn) : (h.setRgn n x).seq6 = h.seq6 := rfl
@[simp] theorem Hub.setRgn_tx (n : Nat) (x : Rgn) : (h.setRgn n x).tx = h.tx := rfl
@[simp] theorem Hub.setRgn_cells (n : Nat) (x : Rgn) : (h.setRgn n x).cells = h.cells := rfl
@[simp] theorem Hub.setRgn_chans (n : Nat) (x : Rgn) : (h.setRgn n x).chans = h.chans := rfl
@[simp] theorem Hub.setRgn_blks (n : Nat) (x : Rgn) : (h.setRgn n x).blks = h.blks := rfl
@[simp] theorem Hub.setRgn_rings (n : Nat) (x : Rgn) : (h.setRgn n x).rings = h.rings := rfl
@[simp] theorem Hub.setRgn_hitStores (n : Nat) (x : Rgn) : (h.setRgn n x).hitStores = h.hitStores := rfl
@[simp] theorem Hub.setRgn_trig (n : Nat) (x : Rgn) : (h.setRgn n x).trig = h.trig := rfl
@[simp] theorem Hub.setRgn_crec (n : Nat) (x : Rgn) : (h.setRgn n x).crec = h.crec := rfl
@[simp] theorem Hub.setRgn_tdcs (n : Nat) (x : Rgn) : (h.setRgn n x).tdcs = h.tdcs := rfl
@[simp] theorem Hub.setRgn_tins (n : Nat) (x : Rgn) : (h.setRgn n x).tins = h.tins := rfl
@[simp] theorem Hub.setRgn_ivls (n : Nat) (x : Rgn) : (h.setRgn n x).ivls = h.ivls := rfl
@[simp] theorem Hub.setRgn_lanes (n : Nat) (x : Rgn) : (h.setRgn n x).lanes = h.lanes := rfl
@[simp] theorem Hub.setRgn_uls (n : Nat) (x : Rgn) : (h.setRgn n x).uls = h.uls := rfl
@[simp] theorem Hub.setRgn_ulRate (n : Nat) (x : Rgn) : (h.setRgn n x).ulRate = h.ulRate := rfl
@[simp] theorem Hub.setRgn_lom (n : Nat) (x : Rgn) : (h.setRgn n x).lom = h.lom := rfl
@[simp] theorem Hub.setRgn_leaves (n : Nat) (x : Rgn) : (h.setRgn n x).leaves = h.leaves := rfl
@[simp] theorem Hub.setRgn_access (n : Nat) (x : Rgn) : (h.setRgn n x).access = h.access := rfl
@[simp] theorem Hub.setRgn_flash (n : Nat) (x : Rgn) : (h.setRgn n x).flash = h.flash := rfl
@[simp] theorem Hub.setRgn_kpr (n : Nat) (x : Rgn) : (h.setRgn n x).kpr = h.kpr := rfl
@[simp] theorem Hub.setRgn_laneMap (n : Nat) (x : Rgn) : (h.setRgn n x).laneMap = h.laneMap := rfl
@[simp] theorem Hub.setRgn_cfg (n : Nat) (x : Rgn) : (h.setRgn n x).cfg = h.cfg := rfl
@[simp] theorem Hub.setRgn_sess (n : Nat) (x : Rgn) : (h.setRgn n x).sess = h.sess := rfl
@[simp] theorem Hub.setRgn_keys (n : Nat) (x : Rgn) : (h.setRgn n x).keys = h.keys := rfl
@[simp] theorem Hub.setRgn_keyJob (n : Nat) (x : Rgn) : (h.setRgn n x).keyJob = h.keyJob := rfl
@[simp] theorem Hub.setRgn_nonces (n : Nat) (x : Rgn) : (h.setRgn n x).nonces = h.nonces := rfl
@[simp] theorem Hub.setRgn_port (n : Nat) (x : Rgn) : (h.setRgn n x).port = h.port := rfl
@[simp] theorem Hub.setRgn_masters (n : Nat) (x : Rgn) : (h.setRgn n x).masters = h.masters := rfl
@[simp] theorem Hub.setRgn_rtt (n : Nat) (x : Rgn) : (h.setRgn n x).rtt = h.rtt := rfl
@[simp] theorem Hub.setRgn_frq (n : Nat) (x : Rgn) : (h.setRgn n x).frq = h.frq := rfl
@[simp] theorem Hub.setRgn_mon (n : Nat) (x : Rgn) : (h.setRgn n x).mon = h.mon := rfl
@[simp] theorem Hub.setRgn_cal (n : Nat) (x : Rgn) : (h.setRgn n x).cal = h.cal := rfl
@[simp] theorem Hub.setRgn_pwr (n : Nat) (x : Rgn) : (h.setRgn n x).pwr = h.pwr := rfl
@[simp] theorem Hub.setRgn_tap (n : Nat) (x : Rgn) : (h.setRgn n x).tap = h.tap := rfl

/-! ## setRing -/

@[simp] theorem Hub.setRing_regs (n : Nat) (x : Ring) : (h.setRing n x).regs = h.regs := rfl
@[simp] theorem Hub.setRing_fuse (n : Nat) (x : Ring) : (h.setRing n x).fuse = h.fuse := rfl
@[simp] theorem Hub.setRing_clk (n : Nat) (x : Ring) : (h.setRing n x).clk = h.clk := rfl
@[simp] theorem Hub.setRing_queues (n : Nat) (x : Ring) : (h.setRing n x).queues = h.queues := rfl
@[simp] theorem Hub.setRing_seq6 (n : Nat) (x : Ring) : (h.setRing n x).seq6 = h.seq6 := rfl
@[simp] theorem Hub.setRing_tx (n : Nat) (x : Ring) : (h.setRing n x).tx = h.tx := rfl
@[simp] theorem Hub.setRing_cells (n : Nat) (x : Ring) : (h.setRing n x).cells = h.cells := rfl
@[simp] theorem Hub.setRing_chans (n : Nat) (x : Ring) : (h.setRing n x).chans = h.chans := rfl
@[simp] theorem Hub.setRing_blks (n : Nat) (x : Ring) : (h.setRing n x).blks = h.blks := rfl
@[simp] theorem Hub.setRing_rgns (n : Nat) (x : Ring) : (h.setRing n x).rgns = h.rgns := rfl
@[simp] theorem Hub.setRing_hitStores (n : Nat) (x : Ring) : (h.setRing n x).hitStores = h.hitStores := rfl
@[simp] theorem Hub.setRing_trig (n : Nat) (x : Ring) : (h.setRing n x).trig = h.trig := rfl
@[simp] theorem Hub.setRing_crec (n : Nat) (x : Ring) : (h.setRing n x).crec = h.crec := rfl
@[simp] theorem Hub.setRing_tdcs (n : Nat) (x : Ring) : (h.setRing n x).tdcs = h.tdcs := rfl
@[simp] theorem Hub.setRing_tins (n : Nat) (x : Ring) : (h.setRing n x).tins = h.tins := rfl
@[simp] theorem Hub.setRing_ivls (n : Nat) (x : Ring) : (h.setRing n x).ivls = h.ivls := rfl
@[simp] theorem Hub.setRing_lanes (n : Nat) (x : Ring) : (h.setRing n x).lanes = h.lanes := rfl
@[simp] theorem Hub.setRing_uls (n : Nat) (x : Ring) : (h.setRing n x).uls = h.uls := rfl
@[simp] theorem Hub.setRing_ulRate (n : Nat) (x : Ring) : (h.setRing n x).ulRate = h.ulRate := rfl
@[simp] theorem Hub.setRing_lom (n : Nat) (x : Ring) : (h.setRing n x).lom = h.lom := rfl
@[simp] theorem Hub.setRing_leaves (n : Nat) (x : Ring) : (h.setRing n x).leaves = h.leaves := rfl
@[simp] theorem Hub.setRing_access (n : Nat) (x : Ring) : (h.setRing n x).access = h.access := rfl
@[simp] theorem Hub.setRing_flash (n : Nat) (x : Ring) : (h.setRing n x).flash = h.flash := rfl
@[simp] theorem Hub.setRing_kpr (n : Nat) (x : Ring) : (h.setRing n x).kpr = h.kpr := rfl
@[simp] theorem Hub.setRing_laneMap (n : Nat) (x : Ring) : (h.setRing n x).laneMap = h.laneMap := rfl
@[simp] theorem Hub.setRing_cfg (n : Nat) (x : Ring) : (h.setRing n x).cfg = h.cfg := rfl
@[simp] theorem Hub.setRing_sess (n : Nat) (x : Ring) : (h.setRing n x).sess = h.sess := rfl
@[simp] theorem Hub.setRing_keys (n : Nat) (x : Ring) : (h.setRing n x).keys = h.keys := rfl
@[simp] theorem Hub.setRing_keyJob (n : Nat) (x : Ring) : (h.setRing n x).keyJob = h.keyJob := rfl
@[simp] theorem Hub.setRing_nonces (n : Nat) (x : Ring) : (h.setRing n x).nonces = h.nonces := rfl
@[simp] theorem Hub.setRing_port (n : Nat) (x : Ring) : (h.setRing n x).port = h.port := rfl
@[simp] theorem Hub.setRing_masters (n : Nat) (x : Ring) : (h.setRing n x).masters = h.masters := rfl
@[simp] theorem Hub.setRing_rtt (n : Nat) (x : Ring) : (h.setRing n x).rtt = h.rtt := rfl
@[simp] theorem Hub.setRing_frq (n : Nat) (x : Ring) : (h.setRing n x).frq = h.frq := rfl
@[simp] theorem Hub.setRing_mon (n : Nat) (x : Ring) : (h.setRing n x).mon = h.mon := rfl
@[simp] theorem Hub.setRing_cal (n : Nat) (x : Ring) : (h.setRing n x).cal = h.cal := rfl
@[simp] theorem Hub.setRing_pwr (n : Nat) (x : Ring) : (h.setRing n x).pwr = h.pwr := rfl
@[simp] theorem Hub.setRing_tap (n : Nat) (x : Ring) : (h.setRing n x).tap = h.tap := rfl

/-! ## setHitStore -/

@[simp] theorem Hub.setHitStore_regs (n : Nat) (x : HitStore) : (h.setHitStore n x).regs = h.regs := rfl
@[simp] theorem Hub.setHitStore_fuse (n : Nat) (x : HitStore) : (h.setHitStore n x).fuse = h.fuse := rfl
@[simp] theorem Hub.setHitStore_clk (n : Nat) (x : HitStore) : (h.setHitStore n x).clk = h.clk := rfl
@[simp] theorem Hub.setHitStore_queues (n : Nat) (x : HitStore) : (h.setHitStore n x).queues = h.queues := rfl
@[simp] theorem Hub.setHitStore_seq6 (n : Nat) (x : HitStore) : (h.setHitStore n x).seq6 = h.seq6 := rfl
@[simp] theorem Hub.setHitStore_tx (n : Nat) (x : HitStore) : (h.setHitStore n x).tx = h.tx := rfl
@[simp] theorem Hub.setHitStore_cells (n : Nat) (x : HitStore) : (h.setHitStore n x).cells = h.cells := rfl
@[simp] theorem Hub.setHitStore_chans (n : Nat) (x : HitStore) : (h.setHitStore n x).chans = h.chans := rfl
@[simp] theorem Hub.setHitStore_blks (n : Nat) (x : HitStore) : (h.setHitStore n x).blks = h.blks := rfl
@[simp] theorem Hub.setHitStore_rgns (n : Nat) (x : HitStore) : (h.setHitStore n x).rgns = h.rgns := rfl
@[simp] theorem Hub.setHitStore_rings (n : Nat) (x : HitStore) : (h.setHitStore n x).rings = h.rings := rfl
@[simp] theorem Hub.setHitStore_trig (n : Nat) (x : HitStore) : (h.setHitStore n x).trig = h.trig := rfl
@[simp] theorem Hub.setHitStore_crec (n : Nat) (x : HitStore) : (h.setHitStore n x).crec = h.crec := rfl
@[simp] theorem Hub.setHitStore_tdcs (n : Nat) (x : HitStore) : (h.setHitStore n x).tdcs = h.tdcs := rfl
@[simp] theorem Hub.setHitStore_tins (n : Nat) (x : HitStore) : (h.setHitStore n x).tins = h.tins := rfl
@[simp] theorem Hub.setHitStore_ivls (n : Nat) (x : HitStore) : (h.setHitStore n x).ivls = h.ivls := rfl
@[simp] theorem Hub.setHitStore_lanes (n : Nat) (x : HitStore) : (h.setHitStore n x).lanes = h.lanes := rfl
@[simp] theorem Hub.setHitStore_uls (n : Nat) (x : HitStore) : (h.setHitStore n x).uls = h.uls := rfl
@[simp] theorem Hub.setHitStore_ulRate (n : Nat) (x : HitStore) : (h.setHitStore n x).ulRate = h.ulRate := rfl
@[simp] theorem Hub.setHitStore_lom (n : Nat) (x : HitStore) : (h.setHitStore n x).lom = h.lom := rfl
@[simp] theorem Hub.setHitStore_leaves (n : Nat) (x : HitStore) : (h.setHitStore n x).leaves = h.leaves := rfl
@[simp] theorem Hub.setHitStore_access (n : Nat) (x : HitStore) : (h.setHitStore n x).access = h.access := rfl
@[simp] theorem Hub.setHitStore_flash (n : Nat) (x : HitStore) : (h.setHitStore n x).flash = h.flash := rfl
@[simp] theorem Hub.setHitStore_kpr (n : Nat) (x : HitStore) : (h.setHitStore n x).kpr = h.kpr := rfl
@[simp] theorem Hub.setHitStore_laneMap (n : Nat) (x : HitStore) : (h.setHitStore n x).laneMap = h.laneMap := rfl
@[simp] theorem Hub.setHitStore_cfg (n : Nat) (x : HitStore) : (h.setHitStore n x).cfg = h.cfg := rfl
@[simp] theorem Hub.setHitStore_sess (n : Nat) (x : HitStore) : (h.setHitStore n x).sess = h.sess := rfl
@[simp] theorem Hub.setHitStore_keys (n : Nat) (x : HitStore) : (h.setHitStore n x).keys = h.keys := rfl
@[simp] theorem Hub.setHitStore_keyJob (n : Nat) (x : HitStore) : (h.setHitStore n x).keyJob = h.keyJob := rfl
@[simp] theorem Hub.setHitStore_nonces (n : Nat) (x : HitStore) : (h.setHitStore n x).nonces = h.nonces := rfl
@[simp] theorem Hub.setHitStore_port (n : Nat) (x : HitStore) : (h.setHitStore n x).port = h.port := rfl
@[simp] theorem Hub.setHitStore_masters (n : Nat) (x : HitStore) : (h.setHitStore n x).masters = h.masters := rfl
@[simp] theorem Hub.setHitStore_rtt (n : Nat) (x : HitStore) : (h.setHitStore n x).rtt = h.rtt := rfl
@[simp] theorem Hub.setHitStore_frq (n : Nat) (x : HitStore) : (h.setHitStore n x).frq = h.frq := rfl
@[simp] theorem Hub.setHitStore_mon (n : Nat) (x : HitStore) : (h.setHitStore n x).mon = h.mon := rfl
@[simp] theorem Hub.setHitStore_cal (n : Nat) (x : HitStore) : (h.setHitStore n x).cal = h.cal := rfl
@[simp] theorem Hub.setHitStore_pwr (n : Nat) (x : HitStore) : (h.setHitStore n x).pwr = h.pwr := rfl
@[simp] theorem Hub.setHitStore_tap (n : Nat) (x : HitStore) : (h.setHitStore n x).tap = h.tap := rfl

/-! ## setSlot -/

@[simp] theorem Hub.setSlot_regs (n : Nat) (x : Option Slot) : (h.setSlot n x).regs = h.regs := rfl
@[simp] theorem Hub.setSlot_fuse (n : Nat) (x : Option Slot) : (h.setSlot n x).fuse = h.fuse := rfl
@[simp] theorem Hub.setSlot_clk (n : Nat) (x : Option Slot) : (h.setSlot n x).clk = h.clk := rfl
@[simp] theorem Hub.setSlot_queues (n : Nat) (x : Option Slot) : (h.setSlot n x).queues = h.queues := rfl
@[simp] theorem Hub.setSlot_seq6 (n : Nat) (x : Option Slot) : (h.setSlot n x).seq6 = h.seq6 := rfl
@[simp] theorem Hub.setSlot_tx (n : Nat) (x : Option Slot) : (h.setSlot n x).tx = h.tx := rfl
@[simp] theorem Hub.setSlot_cells (n : Nat) (x : Option Slot) : (h.setSlot n x).cells = h.cells := rfl
@[simp] theorem Hub.setSlot_chans (n : Nat) (x : Option Slot) : (h.setSlot n x).chans = h.chans := rfl
@[simp] theorem Hub.setSlot_blks (n : Nat) (x : Option Slot) : (h.setSlot n x).blks = h.blks := rfl
@[simp] theorem Hub.setSlot_rgns (n : Nat) (x : Option Slot) : (h.setSlot n x).rgns = h.rgns := rfl
@[simp] theorem Hub.setSlot_rings (n : Nat) (x : Option Slot) : (h.setSlot n x).rings = h.rings := rfl
@[simp] theorem Hub.setSlot_hitStores (n : Nat) (x : Option Slot) : (h.setSlot n x).hitStores = h.hitStores := rfl
@[simp] theorem Hub.setSlot_crec (n : Nat) (x : Option Slot) : (h.setSlot n x).crec = h.crec := rfl
@[simp] theorem Hub.setSlot_tdcs (n : Nat) (x : Option Slot) : (h.setSlot n x).tdcs = h.tdcs := rfl
@[simp] theorem Hub.setSlot_tins (n : Nat) (x : Option Slot) : (h.setSlot n x).tins = h.tins := rfl
@[simp] theorem Hub.setSlot_ivls (n : Nat) (x : Option Slot) : (h.setSlot n x).ivls = h.ivls := rfl
@[simp] theorem Hub.setSlot_lanes (n : Nat) (x : Option Slot) : (h.setSlot n x).lanes = h.lanes := rfl
@[simp] theorem Hub.setSlot_uls (n : Nat) (x : Option Slot) : (h.setSlot n x).uls = h.uls := rfl
@[simp] theorem Hub.setSlot_ulRate (n : Nat) (x : Option Slot) : (h.setSlot n x).ulRate = h.ulRate := rfl
@[simp] theorem Hub.setSlot_lom (n : Nat) (x : Option Slot) : (h.setSlot n x).lom = h.lom := rfl
@[simp] theorem Hub.setSlot_leaves (n : Nat) (x : Option Slot) : (h.setSlot n x).leaves = h.leaves := rfl
@[simp] theorem Hub.setSlot_access (n : Nat) (x : Option Slot) : (h.setSlot n x).access = h.access := rfl
@[simp] theorem Hub.setSlot_flash (n : Nat) (x : Option Slot) : (h.setSlot n x).flash = h.flash := rfl
@[simp] theorem Hub.setSlot_kpr (n : Nat) (x : Option Slot) : (h.setSlot n x).kpr = h.kpr := rfl
@[simp] theorem Hub.setSlot_laneMap (n : Nat) (x : Option Slot) : (h.setSlot n x).laneMap = h.laneMap := rfl
@[simp] theorem Hub.setSlot_cfg (n : Nat) (x : Option Slot) : (h.setSlot n x).cfg = h.cfg := rfl
@[simp] theorem Hub.setSlot_sess (n : Nat) (x : Option Slot) : (h.setSlot n x).sess = h.sess := rfl
@[simp] theorem Hub.setSlot_keys (n : Nat) (x : Option Slot) : (h.setSlot n x).keys = h.keys := rfl
@[simp] theorem Hub.setSlot_keyJob (n : Nat) (x : Option Slot) : (h.setSlot n x).keyJob = h.keyJob := rfl
@[simp] theorem Hub.setSlot_nonces (n : Nat) (x : Option Slot) : (h.setSlot n x).nonces = h.nonces := rfl
@[simp] theorem Hub.setSlot_port (n : Nat) (x : Option Slot) : (h.setSlot n x).port = h.port := rfl
@[simp] theorem Hub.setSlot_masters (n : Nat) (x : Option Slot) : (h.setSlot n x).masters = h.masters := rfl
@[simp] theorem Hub.setSlot_rtt (n : Nat) (x : Option Slot) : (h.setSlot n x).rtt = h.rtt := rfl
@[simp] theorem Hub.setSlot_frq (n : Nat) (x : Option Slot) : (h.setSlot n x).frq = h.frq := rfl
@[simp] theorem Hub.setSlot_mon (n : Nat) (x : Option Slot) : (h.setSlot n x).mon = h.mon := rfl
@[simp] theorem Hub.setSlot_cal (n : Nat) (x : Option Slot) : (h.setSlot n x).cal = h.cal := rfl
@[simp] theorem Hub.setSlot_pwr (n : Nat) (x : Option Slot) : (h.setSlot n x).pwr = h.pwr := rfl
@[simp] theorem Hub.setSlot_tap (n : Nat) (x : Option Slot) : (h.setSlot n x).tap = h.tap := rfl

/-! ## setTx -/

@[simp] theorem Hub.setTx_regs (n : Nat) (x : List TxUnit) : (h.setTx n x).regs = h.regs := rfl
@[simp] theorem Hub.setTx_fuse (n : Nat) (x : List TxUnit) : (h.setTx n x).fuse = h.fuse := rfl
@[simp] theorem Hub.setTx_clk (n : Nat) (x : List TxUnit) : (h.setTx n x).clk = h.clk := rfl
@[simp] theorem Hub.setTx_queues (n : Nat) (x : List TxUnit) : (h.setTx n x).queues = h.queues := rfl
@[simp] theorem Hub.setTx_seq6 (n : Nat) (x : List TxUnit) : (h.setTx n x).seq6 = h.seq6 := rfl
@[simp] theorem Hub.setTx_cells (n : Nat) (x : List TxUnit) : (h.setTx n x).cells = h.cells := rfl
@[simp] theorem Hub.setTx_chans (n : Nat) (x : List TxUnit) : (h.setTx n x).chans = h.chans := rfl
@[simp] theorem Hub.setTx_blks (n : Nat) (x : List TxUnit) : (h.setTx n x).blks = h.blks := rfl
@[simp] theorem Hub.setTx_rgns (n : Nat) (x : List TxUnit) : (h.setTx n x).rgns = h.rgns := rfl
@[simp] theorem Hub.setTx_rings (n : Nat) (x : List TxUnit) : (h.setTx n x).rings = h.rings := rfl
@[simp] theorem Hub.setTx_hitStores (n : Nat) (x : List TxUnit) : (h.setTx n x).hitStores = h.hitStores := rfl
@[simp] theorem Hub.setTx_trig (n : Nat) (x : List TxUnit) : (h.setTx n x).trig = h.trig := rfl
@[simp] theorem Hub.setTx_crec (n : Nat) (x : List TxUnit) : (h.setTx n x).crec = h.crec := rfl
@[simp] theorem Hub.setTx_tdcs (n : Nat) (x : List TxUnit) : (h.setTx n x).tdcs = h.tdcs := rfl
@[simp] theorem Hub.setTx_tins (n : Nat) (x : List TxUnit) : (h.setTx n x).tins = h.tins := rfl
@[simp] theorem Hub.setTx_ivls (n : Nat) (x : List TxUnit) : (h.setTx n x).ivls = h.ivls := rfl
@[simp] theorem Hub.setTx_lanes (n : Nat) (x : List TxUnit) : (h.setTx n x).lanes = h.lanes := rfl
@[simp] theorem Hub.setTx_uls (n : Nat) (x : List TxUnit) : (h.setTx n x).uls = h.uls := rfl
@[simp] theorem Hub.setTx_ulRate (n : Nat) (x : List TxUnit) : (h.setTx n x).ulRate = h.ulRate := rfl
@[simp] theorem Hub.setTx_lom (n : Nat) (x : List TxUnit) : (h.setTx n x).lom = h.lom := rfl
@[simp] theorem Hub.setTx_leaves (n : Nat) (x : List TxUnit) : (h.setTx n x).leaves = h.leaves := rfl
@[simp] theorem Hub.setTx_access (n : Nat) (x : List TxUnit) : (h.setTx n x).access = h.access := rfl
@[simp] theorem Hub.setTx_flash (n : Nat) (x : List TxUnit) : (h.setTx n x).flash = h.flash := rfl
@[simp] theorem Hub.setTx_kpr (n : Nat) (x : List TxUnit) : (h.setTx n x).kpr = h.kpr := rfl
@[simp] theorem Hub.setTx_laneMap (n : Nat) (x : List TxUnit) : (h.setTx n x).laneMap = h.laneMap := rfl
@[simp] theorem Hub.setTx_cfg (n : Nat) (x : List TxUnit) : (h.setTx n x).cfg = h.cfg := rfl
@[simp] theorem Hub.setTx_sess (n : Nat) (x : List TxUnit) : (h.setTx n x).sess = h.sess := rfl
@[simp] theorem Hub.setTx_keys (n : Nat) (x : List TxUnit) : (h.setTx n x).keys = h.keys := rfl
@[simp] theorem Hub.setTx_keyJob (n : Nat) (x : List TxUnit) : (h.setTx n x).keyJob = h.keyJob := rfl
@[simp] theorem Hub.setTx_nonces (n : Nat) (x : List TxUnit) : (h.setTx n x).nonces = h.nonces := rfl
@[simp] theorem Hub.setTx_port (n : Nat) (x : List TxUnit) : (h.setTx n x).port = h.port := rfl
@[simp] theorem Hub.setTx_masters (n : Nat) (x : List TxUnit) : (h.setTx n x).masters = h.masters := rfl
@[simp] theorem Hub.setTx_rtt (n : Nat) (x : List TxUnit) : (h.setTx n x).rtt = h.rtt := rfl
@[simp] theorem Hub.setTx_frq (n : Nat) (x : List TxUnit) : (h.setTx n x).frq = h.frq := rfl
@[simp] theorem Hub.setTx_mon (n : Nat) (x : List TxUnit) : (h.setTx n x).mon = h.mon := rfl
@[simp] theorem Hub.setTx_cal (n : Nat) (x : List TxUnit) : (h.setTx n x).cal = h.cal := rfl
@[simp] theorem Hub.setTx_pwr (n : Nat) (x : List TxUnit) : (h.setTx n x).pwr = h.pwr := rfl
@[simp] theorem Hub.setTx_tap (n : Nat) (x : List TxUnit) : (h.setTx n x).tap = h.tap := rfl

/-! ## setLane -/

@[simp] theorem Hub.setLane_regs (n : Nat) (x : Lane) : (h.setLane n x).regs = h.regs := rfl
@[simp] theorem Hub.setLane_fuse (n : Nat) (x : Lane) : (h.setLane n x).fuse = h.fuse := rfl
@[simp] theorem Hub.setLane_clk (n : Nat) (x : Lane) : (h.setLane n x).clk = h.clk := rfl
@[simp] theorem Hub.setLane_queues (n : Nat) (x : Lane) : (h.setLane n x).queues = h.queues := rfl
@[simp] theorem Hub.setLane_seq6 (n : Nat) (x : Lane) : (h.setLane n x).seq6 = h.seq6 := rfl
@[simp] theorem Hub.setLane_tx (n : Nat) (x : Lane) : (h.setLane n x).tx = h.tx := rfl
@[simp] theorem Hub.setLane_cells (n : Nat) (x : Lane) : (h.setLane n x).cells = h.cells := rfl
@[simp] theorem Hub.setLane_chans (n : Nat) (x : Lane) : (h.setLane n x).chans = h.chans := rfl
@[simp] theorem Hub.setLane_blks (n : Nat) (x : Lane) : (h.setLane n x).blks = h.blks := rfl
@[simp] theorem Hub.setLane_rgns (n : Nat) (x : Lane) : (h.setLane n x).rgns = h.rgns := rfl
@[simp] theorem Hub.setLane_rings (n : Nat) (x : Lane) : (h.setLane n x).rings = h.rings := rfl
@[simp] theorem Hub.setLane_hitStores (n : Nat) (x : Lane) : (h.setLane n x).hitStores = h.hitStores := rfl
@[simp] theorem Hub.setLane_trig (n : Nat) (x : Lane) : (h.setLane n x).trig = h.trig := rfl
@[simp] theorem Hub.setLane_crec (n : Nat) (x : Lane) : (h.setLane n x).crec = h.crec := rfl
@[simp] theorem Hub.setLane_tdcs (n : Nat) (x : Lane) : (h.setLane n x).tdcs = h.tdcs := rfl
@[simp] theorem Hub.setLane_tins (n : Nat) (x : Lane) : (h.setLane n x).tins = h.tins := rfl
@[simp] theorem Hub.setLane_ivls (n : Nat) (x : Lane) : (h.setLane n x).ivls = h.ivls := rfl
@[simp] theorem Hub.setLane_uls (n : Nat) (x : Lane) : (h.setLane n x).uls = h.uls := rfl
@[simp] theorem Hub.setLane_ulRate (n : Nat) (x : Lane) : (h.setLane n x).ulRate = h.ulRate := rfl
@[simp] theorem Hub.setLane_lom (n : Nat) (x : Lane) : (h.setLane n x).lom = h.lom := rfl
@[simp] theorem Hub.setLane_leaves (n : Nat) (x : Lane) : (h.setLane n x).leaves = h.leaves := rfl
@[simp] theorem Hub.setLane_access (n : Nat) (x : Lane) : (h.setLane n x).access = h.access := rfl
@[simp] theorem Hub.setLane_flash (n : Nat) (x : Lane) : (h.setLane n x).flash = h.flash := rfl
@[simp] theorem Hub.setLane_kpr (n : Nat) (x : Lane) : (h.setLane n x).kpr = h.kpr := rfl
@[simp] theorem Hub.setLane_laneMap (n : Nat) (x : Lane) : (h.setLane n x).laneMap = h.laneMap := rfl
@[simp] theorem Hub.setLane_cfg (n : Nat) (x : Lane) : (h.setLane n x).cfg = h.cfg := rfl
@[simp] theorem Hub.setLane_sess (n : Nat) (x : Lane) : (h.setLane n x).sess = h.sess := rfl
@[simp] theorem Hub.setLane_keys (n : Nat) (x : Lane) : (h.setLane n x).keys = h.keys := rfl
@[simp] theorem Hub.setLane_keyJob (n : Nat) (x : Lane) : (h.setLane n x).keyJob = h.keyJob := rfl
@[simp] theorem Hub.setLane_nonces (n : Nat) (x : Lane) : (h.setLane n x).nonces = h.nonces := rfl
@[simp] theorem Hub.setLane_port (n : Nat) (x : Lane) : (h.setLane n x).port = h.port := rfl
@[simp] theorem Hub.setLane_masters (n : Nat) (x : Lane) : (h.setLane n x).masters = h.masters := rfl
@[simp] theorem Hub.setLane_rtt (n : Nat) (x : Lane) : (h.setLane n x).rtt = h.rtt := rfl
@[simp] theorem Hub.setLane_frq (n : Nat) (x : Lane) : (h.setLane n x).frq = h.frq := rfl
@[simp] theorem Hub.setLane_mon (n : Nat) (x : Lane) : (h.setLane n x).mon = h.mon := rfl
@[simp] theorem Hub.setLane_cal (n : Nat) (x : Lane) : (h.setLane n x).cal = h.cal := rfl
@[simp] theorem Hub.setLane_pwr (n : Nat) (x : Lane) : (h.setLane n x).pwr = h.pwr := rfl
@[simp] theorem Hub.setLane_tap (n : Nat) (x : Lane) : (h.setLane n x).tap = h.tap := rfl

/-! ## setUl -/

@[simp] theorem Hub.setUl_regs (n : Nat) (x : Uplink) : (h.setUl n x).regs = h.regs := rfl
@[simp] theorem Hub.setUl_fuse (n : Nat) (x : Uplink) : (h.setUl n x).fuse = h.fuse := rfl
@[simp] theorem Hub.setUl_clk (n : Nat) (x : Uplink) : (h.setUl n x).clk = h.clk := rfl
@[simp] theorem Hub.setUl_queues (n : Nat) (x : Uplink) : (h.setUl n x).queues = h.queues := rfl
@[simp] theorem Hub.setUl_seq6 (n : Nat) (x : Uplink) : (h.setUl n x).seq6 = h.seq6 := rfl
@[simp] theorem Hub.setUl_tx (n : Nat) (x : Uplink) : (h.setUl n x).tx = h.tx := rfl
@[simp] theorem Hub.setUl_cells (n : Nat) (x : Uplink) : (h.setUl n x).cells = h.cells := rfl
@[simp] theorem Hub.setUl_chans (n : Nat) (x : Uplink) : (h.setUl n x).chans = h.chans := rfl
@[simp] theorem Hub.setUl_blks (n : Nat) (x : Uplink) : (h.setUl n x).blks = h.blks := rfl
@[simp] theorem Hub.setUl_rgns (n : Nat) (x : Uplink) : (h.setUl n x).rgns = h.rgns := rfl
@[simp] theorem Hub.setUl_rings (n : Nat) (x : Uplink) : (h.setUl n x).rings = h.rings := rfl
@[simp] theorem Hub.setUl_hitStores (n : Nat) (x : Uplink) : (h.setUl n x).hitStores = h.hitStores := rfl
@[simp] theorem Hub.setUl_trig (n : Nat) (x : Uplink) : (h.setUl n x).trig = h.trig := rfl
@[simp] theorem Hub.setUl_crec (n : Nat) (x : Uplink) : (h.setUl n x).crec = h.crec := rfl
@[simp] theorem Hub.setUl_tdcs (n : Nat) (x : Uplink) : (h.setUl n x).tdcs = h.tdcs := rfl
@[simp] theorem Hub.setUl_tins (n : Nat) (x : Uplink) : (h.setUl n x).tins = h.tins := rfl
@[simp] theorem Hub.setUl_ivls (n : Nat) (x : Uplink) : (h.setUl n x).ivls = h.ivls := rfl
@[simp] theorem Hub.setUl_lanes (n : Nat) (x : Uplink) : (h.setUl n x).lanes = h.lanes := rfl
@[simp] theorem Hub.setUl_ulRate (n : Nat) (x : Uplink) : (h.setUl n x).ulRate = h.ulRate := rfl
@[simp] theorem Hub.setUl_lom (n : Nat) (x : Uplink) : (h.setUl n x).lom = h.lom := rfl
@[simp] theorem Hub.setUl_leaves (n : Nat) (x : Uplink) : (h.setUl n x).leaves = h.leaves := rfl
@[simp] theorem Hub.setUl_access (n : Nat) (x : Uplink) : (h.setUl n x).access = h.access := rfl
@[simp] theorem Hub.setUl_flash (n : Nat) (x : Uplink) : (h.setUl n x).flash = h.flash := rfl
@[simp] theorem Hub.setUl_kpr (n : Nat) (x : Uplink) : (h.setUl n x).kpr = h.kpr := rfl
@[simp] theorem Hub.setUl_laneMap (n : Nat) (x : Uplink) : (h.setUl n x).laneMap = h.laneMap := rfl
@[simp] theorem Hub.setUl_cfg (n : Nat) (x : Uplink) : (h.setUl n x).cfg = h.cfg := rfl
@[simp] theorem Hub.setUl_sess (n : Nat) (x : Uplink) : (h.setUl n x).sess = h.sess := rfl
@[simp] theorem Hub.setUl_keys (n : Nat) (x : Uplink) : (h.setUl n x).keys = h.keys := rfl
@[simp] theorem Hub.setUl_keyJob (n : Nat) (x : Uplink) : (h.setUl n x).keyJob = h.keyJob := rfl
@[simp] theorem Hub.setUl_nonces (n : Nat) (x : Uplink) : (h.setUl n x).nonces = h.nonces := rfl
@[simp] theorem Hub.setUl_port (n : Nat) (x : Uplink) : (h.setUl n x).port = h.port := rfl
@[simp] theorem Hub.setUl_masters (n : Nat) (x : Uplink) : (h.setUl n x).masters = h.masters := rfl
@[simp] theorem Hub.setUl_rtt (n : Nat) (x : Uplink) : (h.setUl n x).rtt = h.rtt := rfl
@[simp] theorem Hub.setUl_frq (n : Nat) (x : Uplink) : (h.setUl n x).frq = h.frq := rfl
@[simp] theorem Hub.setUl_mon (n : Nat) (x : Uplink) : (h.setUl n x).mon = h.mon := rfl
@[simp] theorem Hub.setUl_cal (n : Nat) (x : Uplink) : (h.setUl n x).cal = h.cal := rfl
@[simp] theorem Hub.setUl_pwr (n : Nat) (x : Uplink) : (h.setUl n x).pwr = h.pwr := rfl
@[simp] theorem Hub.setUl_tap (n : Nat) (x : Uplink) : (h.setUl n x).tap = h.tap := rfl

/-! ## setLeaf -/

@[simp] theorem Hub.setLeaf_regs (n : Nat) (x : Leaf) : (h.setLeaf n x).regs = h.regs := rfl
@[simp] theorem Hub.setLeaf_fuse (n : Nat) (x : Leaf) : (h.setLeaf n x).fuse = h.fuse := rfl
@[simp] theorem Hub.setLeaf_clk (n : Nat) (x : Leaf) : (h.setLeaf n x).clk = h.clk := rfl
@[simp] theorem Hub.setLeaf_queues (n : Nat) (x : Leaf) : (h.setLeaf n x).queues = h.queues := rfl
@[simp] theorem Hub.setLeaf_seq6 (n : Nat) (x : Leaf) : (h.setLeaf n x).seq6 = h.seq6 := rfl
@[simp] theorem Hub.setLeaf_tx (n : Nat) (x : Leaf) : (h.setLeaf n x).tx = h.tx := rfl
@[simp] theorem Hub.setLeaf_cells (n : Nat) (x : Leaf) : (h.setLeaf n x).cells = h.cells := rfl
@[simp] theorem Hub.setLeaf_chans (n : Nat) (x : Leaf) : (h.setLeaf n x).chans = h.chans := rfl
@[simp] theorem Hub.setLeaf_blks (n : Nat) (x : Leaf) : (h.setLeaf n x).blks = h.blks := rfl
@[simp] theorem Hub.setLeaf_rgns (n : Nat) (x : Leaf) : (h.setLeaf n x).rgns = h.rgns := rfl
@[simp] theorem Hub.setLeaf_rings (n : Nat) (x : Leaf) : (h.setLeaf n x).rings = h.rings := rfl
@[simp] theorem Hub.setLeaf_hitStores (n : Nat) (x : Leaf) : (h.setLeaf n x).hitStores = h.hitStores := rfl
@[simp] theorem Hub.setLeaf_trig (n : Nat) (x : Leaf) : (h.setLeaf n x).trig = h.trig := rfl
@[simp] theorem Hub.setLeaf_crec (n : Nat) (x : Leaf) : (h.setLeaf n x).crec = h.crec := rfl
@[simp] theorem Hub.setLeaf_tdcs (n : Nat) (x : Leaf) : (h.setLeaf n x).tdcs = h.tdcs := rfl
@[simp] theorem Hub.setLeaf_tins (n : Nat) (x : Leaf) : (h.setLeaf n x).tins = h.tins := rfl
@[simp] theorem Hub.setLeaf_ivls (n : Nat) (x : Leaf) : (h.setLeaf n x).ivls = h.ivls := rfl
@[simp] theorem Hub.setLeaf_lanes (n : Nat) (x : Leaf) : (h.setLeaf n x).lanes = h.lanes := rfl
@[simp] theorem Hub.setLeaf_uls (n : Nat) (x : Leaf) : (h.setLeaf n x).uls = h.uls := rfl
@[simp] theorem Hub.setLeaf_ulRate (n : Nat) (x : Leaf) : (h.setLeaf n x).ulRate = h.ulRate := rfl
@[simp] theorem Hub.setLeaf_lom (n : Nat) (x : Leaf) : (h.setLeaf n x).lom = h.lom := rfl
@[simp] theorem Hub.setLeaf_access (n : Nat) (x : Leaf) : (h.setLeaf n x).access = h.access := rfl
@[simp] theorem Hub.setLeaf_flash (n : Nat) (x : Leaf) : (h.setLeaf n x).flash = h.flash := rfl
@[simp] theorem Hub.setLeaf_kpr (n : Nat) (x : Leaf) : (h.setLeaf n x).kpr = h.kpr := rfl
@[simp] theorem Hub.setLeaf_laneMap (n : Nat) (x : Leaf) : (h.setLeaf n x).laneMap = h.laneMap := rfl
@[simp] theorem Hub.setLeaf_cfg (n : Nat) (x : Leaf) : (h.setLeaf n x).cfg = h.cfg := rfl
@[simp] theorem Hub.setLeaf_sess (n : Nat) (x : Leaf) : (h.setLeaf n x).sess = h.sess := rfl
@[simp] theorem Hub.setLeaf_keys (n : Nat) (x : Leaf) : (h.setLeaf n x).keys = h.keys := rfl
@[simp] theorem Hub.setLeaf_keyJob (n : Nat) (x : Leaf) : (h.setLeaf n x).keyJob = h.keyJob := rfl
@[simp] theorem Hub.setLeaf_nonces (n : Nat) (x : Leaf) : (h.setLeaf n x).nonces = h.nonces := rfl
@[simp] theorem Hub.setLeaf_port (n : Nat) (x : Leaf) : (h.setLeaf n x).port = h.port := rfl
@[simp] theorem Hub.setLeaf_masters (n : Nat) (x : Leaf) : (h.setLeaf n x).masters = h.masters := rfl
@[simp] theorem Hub.setLeaf_rtt (n : Nat) (x : Leaf) : (h.setLeaf n x).rtt = h.rtt := rfl
@[simp] theorem Hub.setLeaf_frq (n : Nat) (x : Leaf) : (h.setLeaf n x).frq = h.frq := rfl
@[simp] theorem Hub.setLeaf_mon (n : Nat) (x : Leaf) : (h.setLeaf n x).mon = h.mon := rfl
@[simp] theorem Hub.setLeaf_cal (n : Nat) (x : Leaf) : (h.setLeaf n x).cal = h.cal := rfl
@[simp] theorem Hub.setLeaf_pwr (n : Nat) (x : Leaf) : (h.setLeaf n x).pwr = h.pwr := rfl
@[simp] theorem Hub.setLeaf_tap (n : Nat) (x : Leaf) : (h.setLeaf n x).tap = h.tap := rfl

/-! ## setMaster -/

@[simp] theorem Hub.setMaster_regs (n : Nat) (x : Master) : (h.setMaster n x).regs = h.regs := rfl
@[simp] theorem Hub.setMaster_fuse (n : Nat) (x : Master) : (h.setMaster n x).fuse = h.fuse := rfl
@[simp] theorem Hub.setMaster_clk (n : Nat) (x : Master) : (h.setMaster n x).clk = h.clk := rfl
@[simp] theorem Hub.setMaster_queues (n : Nat) (x : Master) : (h.setMaster n x).queues = h.queues := rfl
@[simp] theorem Hub.setMaster_seq6 (n : Nat) (x : Master) : (h.setMaster n x).seq6 = h.seq6 := rfl
@[simp] theorem Hub.setMaster_tx (n : Nat) (x : Master) : (h.setMaster n x).tx = h.tx := rfl
@[simp] theorem Hub.setMaster_cells (n : Nat) (x : Master) : (h.setMaster n x).cells = h.cells := rfl
@[simp] theorem Hub.setMaster_chans (n : Nat) (x : Master) : (h.setMaster n x).chans = h.chans := rfl
@[simp] theorem Hub.setMaster_blks (n : Nat) (x : Master) : (h.setMaster n x).blks = h.blks := rfl
@[simp] theorem Hub.setMaster_rgns (n : Nat) (x : Master) : (h.setMaster n x).rgns = h.rgns := rfl
@[simp] theorem Hub.setMaster_rings (n : Nat) (x : Master) : (h.setMaster n x).rings = h.rings := rfl
@[simp] theorem Hub.setMaster_hitStores (n : Nat) (x : Master) : (h.setMaster n x).hitStores = h.hitStores := rfl
@[simp] theorem Hub.setMaster_trig (n : Nat) (x : Master) : (h.setMaster n x).trig = h.trig := rfl
@[simp] theorem Hub.setMaster_crec (n : Nat) (x : Master) : (h.setMaster n x).crec = h.crec := rfl
@[simp] theorem Hub.setMaster_tdcs (n : Nat) (x : Master) : (h.setMaster n x).tdcs = h.tdcs := rfl
@[simp] theorem Hub.setMaster_tins (n : Nat) (x : Master) : (h.setMaster n x).tins = h.tins := rfl
@[simp] theorem Hub.setMaster_ivls (n : Nat) (x : Master) : (h.setMaster n x).ivls = h.ivls := rfl
@[simp] theorem Hub.setMaster_lanes (n : Nat) (x : Master) : (h.setMaster n x).lanes = h.lanes := rfl
@[simp] theorem Hub.setMaster_uls (n : Nat) (x : Master) : (h.setMaster n x).uls = h.uls := rfl
@[simp] theorem Hub.setMaster_ulRate (n : Nat) (x : Master) : (h.setMaster n x).ulRate = h.ulRate := rfl
@[simp] theorem Hub.setMaster_lom (n : Nat) (x : Master) : (h.setMaster n x).lom = h.lom := rfl
@[simp] theorem Hub.setMaster_leaves (n : Nat) (x : Master) : (h.setMaster n x).leaves = h.leaves := rfl
@[simp] theorem Hub.setMaster_access (n : Nat) (x : Master) : (h.setMaster n x).access = h.access := rfl
@[simp] theorem Hub.setMaster_flash (n : Nat) (x : Master) : (h.setMaster n x).flash = h.flash := rfl
@[simp] theorem Hub.setMaster_kpr (n : Nat) (x : Master) : (h.setMaster n x).kpr = h.kpr := rfl
@[simp] theorem Hub.setMaster_laneMap (n : Nat) (x : Master) : (h.setMaster n x).laneMap = h.laneMap := rfl
@[simp] theorem Hub.setMaster_cfg (n : Nat) (x : Master) : (h.setMaster n x).cfg = h.cfg := rfl
@[simp] theorem Hub.setMaster_sess (n : Nat) (x : Master) : (h.setMaster n x).sess = h.sess := rfl
@[simp] theorem Hub.setMaster_keys (n : Nat) (x : Master) : (h.setMaster n x).keys = h.keys := rfl
@[simp] theorem Hub.setMaster_keyJob (n : Nat) (x : Master) : (h.setMaster n x).keyJob = h.keyJob := rfl
@[simp] theorem Hub.setMaster_nonces (n : Nat) (x : Master) : (h.setMaster n x).nonces = h.nonces := rfl
@[simp] theorem Hub.setMaster_port (n : Nat) (x : Master) : (h.setMaster n x).port = h.port := rfl
@[simp] theorem Hub.setMaster_rtt (n : Nat) (x : Master) : (h.setMaster n x).rtt = h.rtt := rfl
@[simp] theorem Hub.setMaster_frq (n : Nat) (x : Master) : (h.setMaster n x).frq = h.frq := rfl
@[simp] theorem Hub.setMaster_mon (n : Nat) (x : Master) : (h.setMaster n x).mon = h.mon := rfl
@[simp] theorem Hub.setMaster_cal (n : Nat) (x : Master) : (h.setMaster n x).cal = h.cal := rfl
@[simp] theorem Hub.setMaster_pwr (n : Nat) (x : Master) : (h.setMaster n x).pwr = h.pwr := rfl
@[simp] theorem Hub.setMaster_tap (n : Nat) (x : Master) : (h.setMaster n x).tap = h.tap := rfl

end Sys2Proof.Machine
end

