-- ==== Sys2Proof/Tests/Slice0.lean ====
section
/-! SUPPORT. Tests: ill-formed commands are refused, worked examples of the spec, and for every obligation with
hypotheses a concrete state and operands that meet them. -/

namespace Sys2Proof.Machine.Tests

-- one proof after the other: in the package as one text the proofs would otherwise need too many threads at once
set_option Elab.async false

/-! ## Small states -/

/-- A hub in a power state, with keeper A active. -/
def hubIn (p : PState) : Hub := ({ pwr := { state := p } } : Hub).put HASP_STATUS_OWNER 1

/-- A machine with no command waiting. -/
def only (h : Hub) : State := { hub := h, pending := [] }

/-- A hub in RUN whose downlink has an open session with the wards in `w` and every feature accepted. -/
def hubWith (w : Nat) : Hub :=
  ((((hubIn .run).put (bank 2 SES_STATUS_STATE) 2).put (bank 2 SES_STATUS_WARDS) w).wr (bank 2 FEAT_ACCEPT).addr
    (2 ^ 32 - 1)).wr ((bank 2 FEAT_ACCEPT).addr + 4) 3

/-- The frame of sixteen symbols as it stands on the line (R306), its check value formed from `body`. -/
def lineFrame (rd : Bool) (body : List Nat) : RxFrame :=
  let c := crc16 (body.map symByte)
  ⟨(encodeSyms rd (k285 :: body ++ [c / 256, c % 256])).1.map (BitVec.ofNat 10), 0⟩

/-- A frame with no command and no control symbol. -/
def frame16 : RxFrame := lineFrame false (List.replicate 13 0)

/-! ## Ill-formed commands are refused -/

theorem test_wf_dlFrame : exec (.dlFrame (some ⟨[], 0⟩) none) (only {}) = .fault .illFormed := rfl
theorem test_wf_spokeUpstreamFrame : exec (.spokeUpstreamFrame 0 ⟨[], 0⟩) (only {}) = .fault .illFormed := rfl
theorem test_wf_leafIdent : exec (.leafIdent 15 [1]) (only {}) = .fault .illFormed := rfl
theorem test_wf_leafWindowAccess :
    exec (.leafWindowAccess 0 0x01FFFFFC [.read]) (only {}) = .fault .illFormed := rfl
theorem test_wf_flashLineFetchDone : exec (.flashLineFetchDone none []) (only {}) = .fault .illFormed := rfl
theorem test_wf_pwrSupplyMeasure : exec (.pwrSupplyMeasure []) (only {}) = .fault .illFormed := rfl
theorem test_wf_trainEqDone : exec (.trainEqDone 12 []) (only {}) = .fault .illFormed := rfl

/-- Each of them has a well-formed neighbour. -/
theorem test_wf_accepted :
    ([.dlFrame (some frame16) none, .spokeUpstreamFrame 0 frame16, .leafIdent 15 (List.replicate 7 1),
      .leafWindowAccess 0 0x02000000 [.read], .leafWindowAccess 3 0x02FFFFFC [.write 1],
      .flashLineFetchDone none (List.replicate 64 0), .pwrSupplyMeasure (List.replicate 5 0),
      .trainEqDone 12 (List.replicate 32 0)] : List Instr).all
      Instr.wellFormed = true := by decide +kernel

/-! ## Worked examples of the spec -/

/-- The hub a command leaves. -/
def after (c : Instr) (h : Hub) : Hub :=
  match exec c (only h) with
  | .next t => t.hub
  | _ => {}

/-- 03, R74: high gain, Q = 0, code 12,345; low gain, Q = 1, code 8,192. -/
theorem test_sampleWord : sampleWord false false 12345 = 0x3039 ∧ sampleWord true true 8192 = 0xE000 := by decide

/-- 02, R8: slot 1 of BX 10,001,663 as a time word (05, the REC_SYNC example). -/
theorem test_timeWord : timeWord 20003327 = 0x000000989CFF4000 := by decide

/-- 01, addresses of channel 297: cell 9 of block 2 of region 4; its CELL_CTRL lies at 0x0143_5800. -/
theorem test_cellAddress :
    (CELL_CTRL 18 9).addr = 0x01435800 ∧ (HNG_MOVE 18).addr = 0x01430110 ∧ chanOf 18 9 = 297 := by decide

/-- 14, R388: the address word of the frame of channel 297. -/
theorem test_frameAddress : frameAddress (.cell 18 9) = 0x40424800 := by decide

/-- 14, R386: the check value of the CRC-32 of the bytes "123456789". -/
theorem test_crc32 : crc32 [0x31, 0x32, 0x33, 0x34, 0x35, 0x36, 0x37, 0x38, 0x39] = 0xCBF43926 := by decide +kernel

/-- 15: HMAC-SHA-256 as its standard gives it for the key "Jefe": the first two words of the tag. -/
theorem test_hmac :
    (bytesWords (hmac [0x4A, 0x65, 0x66, 0x65] [0x77, 0x68, 0x61, 0x74, 0x20, 0x64, 0x6F, 0x20, 0x79, 0x61, 0x20,
      0x77, 0x61, 0x6E, 0x74, 0x20, 0x66, 0x6F, 0x72, 0x20, 0x6E, 0x6F, 0x74, 0x68, 0x69, 0x6E, 0x67, 0x3F])).take 2
      = [0x5BDCC146, 0xBF60754E] := by decide +kernel

/-- 05, R150: the first word of record block 13 is (12 << 16) + (1 << 14) + (8 << 10) + (6 << 6). -/
theorem test_recordWord :
    (({ clk := { frame := 10001666, slot := 1 } } : Hub).put CREC_BLOCK_COUNT 12 |>.put CREC_CFG_SHIFT 6
      |>.put CREC_STATUS_SYNCED 1 |> fun h => { h with crec := { h.crec with order := 4, log2d := 8, restarted := false } }
      : Hub).recordWords false false = [0x000C6180, 0x9CFF4000, 0x98, 0] := by decide +kernel

/-- 06, slots running out: an ACCEPT in frame count 5,000,400 has its trigger in BX 5,000,000. -/
theorem test_accept :
    (after .accept (({ hubIn .run with clk := { frame := 5000399, slot := 1 } } : Hub).put TRG_CFG_ACC_EN 1)).trig.pend.map
      (·.time) = [0x0000004C4B400000] := by decide +kernel

/-- 05, the delay change of channel 297 from 5 3/16 to 7: two samples carry Q. -/
theorem test_delayChange :
    ((after (.delayChange 18 9) ((({ hubIn .run with clk := { tick := 100 } } : Hub).setChan 297
      { dly := [(0, 83)] }).put (CELL_DLY_INT 18 9) 7)).chan 297).marks = [⟨qDelay, 101, 103⟩] := by decide +kernel

/-- 17, the failing keeper: a halt of keeper A on an SRAM error reads HALTED with LAST_FAULT SRAM_UNCORR. -/
theorem test_keeperHalt :
    let g := after (.keeperHalt 0 false) ((hubIn .run).put KPR_STATUS_STATE_A 4)
    g.get KPR_STATUS_STATE_A = 7 ∧ g.get (KPR_HEALTH_LAST_FAULT 0) = 2 := by decide +kernel

/-- 11, R306: K28.5 at both disparities, and every symbol decodes from its group at either disparity. -/
theorem test_8b10b :
    encodeSym false k285 = 0b0011111010 ∧ encodeSym true k285 = 0b1100000101 ∧
      (List.range 256 ++ [k282, k283, k285, k286, k287]).all (fun s =>
        decodeSym false (encodeSym false s) == some s && decodeSym true (encodeSym true s) == some s) = true := by
  decide +kernel

/-- 17: the claim of keeper B is granted; HASP_STATUS names B, FENCED_A is set. -/
theorem test_haspClaim :
    let h := (((((hubIn .run).put KPR_STATUS_STATE_A 7).put KPR_STATUS_STATE_B 3).put (KPR_HEALTH_FIT 1) 1).put
      HASP_STATUS_ABSENT_US 26)
    let g := after (.haspClaim ⟨false, true⟩) { h with kpr := { h.kpr with beatAbsent := 1, quiet := true } }
    g.rd HASP_STATUS.addr = 0x001A0012 := by decide +kernel

/-- 18, the flush of MIRROR: eight words leave, and a producer in mid-item has its tail discarded. -/
theorem test_queueFlush :
    let h := hubIn .run
    let w : Nat → QWord := fun i => ⟨i, i == 2, .plain⟩
    let h := (h.setQueue 4 { words := (List.range 8).map w }).put (Q_STATUS_OPEN 4) 1
    let g := after (.queueFlush 2 4) h
    (g.queue 4).words = [] ∧ g.on (Q_STATUS_TAIL_DROP 4) = true := by decide +kernel

/-- 11, the leaf that comes and goes: loss of signal in EQ fails the training with RUN saturated at 11. -/
theorem test_laneSignalLoss :
    let h := (((hubIn .run).put (lEn 19) 1).setLs 19 5).put (lRun 19) 11
    let g := after (.laneSignalLoss 7 true) h
    g.ls 19 = 1 ∧ g.get (lRun 19) = 11 ∧ g.get (lCause 19) = 2 := by decide +kernel

/-- 12, the request of the worked frames: K28.2 and eleven symbols of one frame are in assembly. -/
theorem test_dlFrame :
    let h := (((hubIn .run).put (lEn 12) 1).setLs 12 7).put CLK_STATUS_DLA_OK 1
    let cs := [k282, 0x10, 0x14, 0x2A, 0x03, 0x30, 0, 0, 0, 0x01, 0x43, 0x58]
    let f := lineFrame false (0x90 :: cs)
    (after (.dlFrame (some f) none) h).lom.item = some [0x10, 0x14, 0x2A, 0x03, 0x30, 0, 0, 0, 0x01, 0x43, 0x58] := by
  decide +kernel

/-- 15: the hub's reset leaves no session open, so a downlink write of ORG_CTRL changes nothing (R424). -/
theorem test_registerWrite_denied :
    (after (.registerWrite 0 (BitVec.ofNat 32 ORG_CTRL.addr) 0) (hubIn .run)).regs = (hubIn .run).regs := by decide +kernel

/-! ## Witnesses: states that meet the hypotheses of the obligations

`Writes`, `Reads` and `Serves` ask that the access reaches its register. Each theorem below shows it for the places
of one kind of command, at the first and the last index. -/

theorem witness_SendableStepsRun :
    ({ hub := hubIn .run, pending := [.bxSet, .dlFrame (some frame16) none] } : State).Sendable := by
  intro c h
  rcases List.mem_cons.mp h with rfl | h
  · rfl
  · rcases List.mem_cons.mp h with rfl | h
    · rfl
    · cases h

/-- The last frame count, slot 1, and a register file with entries. -/
def edgeHub : Hub := { hubIn .run with clk := { frame := 2 ^ 48 - 1, slot := 1 } }

theorem witness_sound : edgeHub.Sound := by unfold Hub.Sound; decide +kernel

theorem witness_StepKeepsSound :
    ({ hub := edgeHub, pending := [.accept] } : State).Sound ∧
      ∃ t, step { hub := edgeHub, pending := [.accept] } = .next t :=
  ⟨witness_sound, _, rfl⟩

theorem witness_RegistersCanonical :
    let h := (hubIn .run).put DL_GROUPS_HUB_ADDR 5
    let g := ((({ pwr := { state := .run } } : Hub).put DL_GROUPS_HUB_ADDR 5).put HASP_STATUS_OWNER 1)
    h.Sound ∧ g.Sound ∧ h.fuse = g.fuse ∧ ∀ a, h.rd a = g.rd a := by
  refine ⟨by unfold Hub.Sound; decide +kernel, by unfold Hub.Sound; decide +kernel, rfl, fun a => ?_⟩
  have e : (hubIn .run).put DL_GROUPS_HUB_ADDR 5 =
      (({ pwr := { state := .run } } : Hub).put DL_GROUPS_HUB_ADDR 5).put HASP_STATUS_OWNER 1 := by decide +kernel
  rw [e]

theorem witness_KeysChangeOnlyByProgramming :
    (only edgeHub).Sound ∧ (∀ good, Instr.resetPin ≠ .sesKeyProgramDone good) ∧
      ∃ t, exec .resetPin (only edgeHub) = .next t :=
  ⟨witness_sound, fun _ => nofun, _, rfl⟩

theorem witness_TapChangesOnlyByTap :
    (only edgeHub).Sound ∧ Instr.resetPin ≠ .tapReset ∧ Instr.resetPin ≠ .extest ∧ Instr.resetPin ≠ .highz ∧
      Instr.resetPin ≠ .clamp ∧ Instr.resetPin ≠ .extestPulse ∧ Instr.resetPin ≠ .extestTrain ∧
      Instr.resetPin ≠ .bypass ∧ (∀ w, Instr.resetPin ≠ .samplePreload w) ∧
      ∃ t, exec .resetPin (only edgeHub) = .next t :=
  ⟨witness_sound, nofun, nofun, nofun, nofun, nofun, nofun, nofun, fun _ => nofun, _, rfl⟩

theorem witness_NoncesNeverReused :
    (only edgeHub).Sound ∧ ∃ t, exec (.sesChallenge 2 0) (only edgeHub) = .next t := ⟨witness_sound, _, rfl⟩

theorem witness_IllFormedFaults : (Instr.leafIdent 15 [1]).wellFormed = false := rfl

/-- `Acts` and `ActsAlways`: a hub that is awake, and one that is not. -/
theorem witness_awake : (hubIn .run).awake = true ∧ (hubIn .gazebo).awake = false ∧ (hubIn .off).awake = false := by
  decide +kernel

/-- The places of the commands that write one register, at the ends of their indexes. -/
def writePlaces : List Nat :=
  [(BLK_CTRL 0).addr, (BLK_CTRL 23).addr, (BLK_SNAP_CTRL 0).addr, (BLK_SNAP_CTRL 23).addr, (HNG_COMMIT 0).addr,
   (HNG_COMMIT 23).addr, (HNG_MOVE 0).addr, (HNG_MOVE 23).addr, (CELL_HEALTH 0 0).addr, (CELL_HEALTH 23 16).addr,
   (IVL_CTRL 0).addr, (IVL_CTRL 3).addr, (Q_CTRL 0).addr, (Q_CTRL 7).addr, (RGN_CTRL 0).addr, (RGN_CTRL 5).addr] ++
  [(LEAF_CTRL 0).addr, (LEAF_CTRL 15).addr, laneBase 0, laneBase 11, laneBase 12, laneBase 13, laneBase 14,
   laneBase 29, CFG_CTRL.addr, CFG_LOAD_DATA.addr, CLK_CTRL.addr, CREC_CTRL.addr, DL_HRST_ARM.addr, FRQ_CTRL.addr,
   GZB_CTRL.addr, LEAF_BCAST_CTRL.addr] ++
  [MON_URGENT.addr, ORG_CTRL.addr, PWR_CELL_RESET.addr, PWR_CTRL.addr, SES_CTRL.addr, SES_KEY_CTRL.addr,
   TIME_ALIGN_CTRL.addr, UL_COMMON_CTRL.addr, UL_SPARE.addr]

/-- `Writes`: the active keeper reaches every one of them. -/
theorem witness_writes_keeper : ∀ a ∈ writePlaces, (hubIn .run).Reaches 2 a := by
  unfold Hub.Reaches Hub.Ready; decide +kernel

/-- The downlink with an open session reaches places of each ward, at the first of their indexes. -/
theorem witness_writes_downlink :
    ∀ a ∈ [(HNG_MOVE 0).addr, (IVL_CTRL 0).addr, (Q_CTRL 0).addr, laneBase 0, CFG_CTRL.addr, SES_KEY_CTRL.addr],
      (hubWith 63).Reaches 0 a := by
  unfold Hub.Reaches Hub.Ready; decide +kernel

/-- `Reads`, at the ends of the indexes. -/
theorem witness_reads :
    ∀ a ∈ [(TDC_TIN_FIFO 0).addr, (TDC_TIN_FIFO 3).addr, (TDC_LAST 0 0).addr, (TDC_LAST 23 16).addr],
      (hubIn .run).ReachesRead 2 a := by
  unfold Hub.ReachesRead Hub.Ready; decide +kernel

/-- `Serves`, and the sweep of CalibrationCompletes. -/
theorem witness_serves :
    ∀ a ∈ [CAL_CTRL.addr, CAL_REQ.addr, KPR_CTRL.addr, KPR_UPD_CTRL.addr, KPR_UPD_DATA.addr],
      (hubWith 63).awake = true ∧ (hubWith 63).mayWrite 0 a = true ∧
        (hubWith 63).on KPR_STATUS_KEEPERLESS = false ∧ (hubWith 63).on CAL_CTRL_SWEEP = false := by decide +kernel

/-- The general write of BusCompletes, at an ordinary register of its kind, and the general read. -/
theorem witness_BusCompletes :
    place EVT_LEAF_WIN.addr = .reg ⟨.EVT_LEAF_WIN, 0, 0, false⟩ ∧ (regDesc .EVT_LEAF_WIN).wide = false ∧
      served .EVT_LEAF_WIN = false ∧ EVT_LEAF_WIN.addr % 4 = 0 ∧ (hubIn .run).Reaches 2 EVT_LEAF_WIN.addr ∧
      (hubIn .run).ReachesRead 2 EVT_LEAF_WIN.addr := by
  unfold Hub.Reaches Hub.ReachesRead Hub.Ready; decide +kernel

theorem witness_DownlinkCompletes : (rxOkIf (some frame16) && rxOkIf none) = true := by decide

theorem witness_LeavesComplete :
    rxOk frame16 = true ∧ ((List.replicate 7 (0 : Word)).length == 7) = true ∧
      windowOk 0x02000000 [.read] = true ∧ windowOk 0x02FFFFFC [.write 1] = true := by decide

theorem witness_PortCompletes : ((List.replicate 64 (0 : Byte)).length == 64) = true := by decide

theorem witness_LanesComplete : ((List.replicate 32 (0 : Byte)).length == 32) = true := by decide

theorem witness_PowerCompletes :
    ((List.replicate 5 (0 : BitVec 16)).length == 5) = true ∧ ((List.replicate 8 (0 : BitVec 12)).length == 8) = true := by
  decide

theorem witness_SampleWordLayout :
    16383 < 2 ^ 14 ∧ (⟨false, 1, 2, 3, 0, false⟩ : CellWord).g = false ∧
      (⟨true, 1, 2, 3, 0, false⟩ : CellWord).g = true := by decide

theorem witness_LabelsAdvance : edgeHub.Sound ∧ edgeHub.whole < 2 ^ 20 ∧ 2 ^ 49 - 1 < 2 ^ 49 :=
  ⟨witness_sound, by decide +kernel, by decide⟩

theorem witness_FrameAddressesOfR388 :
    0x40424800 < 2 ^ 32 ∧ frameAddrOk 0x40424800 = true ∧ frameAddrOk 0xFFFFFFFF = false := by decide

theorem witness_AddressStepping :
    1 < [BusOp.read, .read].length ∧ 0xFFFFFFF8 + 4 * 1 ≤ 0xFFFFFFFC ∧ ¬ 0xFFFFFFFC + 4 * 1 ≤ 0xFFFFFFFC ∧
      ∃ i ∈ busItems 0 0xFFFFFFFC false [.read], i.addr = 0xFFFFFFFC := by
  refine ⟨by decide, by decide, by decide, _, List.mem_of_getElem? (i := 0) rfl, by decide⟩

theorem witness_TimeWordPairs :
    (RegName.TIME_BX_PRESET = .TIME_BX_PRESET ∧ TIME_BX_PRESET = TIME_BX_PRESET) ∧
      (RegName.TIME_ALIGN_BX = .TIME_ALIGN_BX ∧ TIME_ALIGN_BX = TIME_ALIGN_BX) ∧
      (0x12340000 : Word).toNat % 65536 = 0 ∧ (0x12348000 : Word).toNat % 65536 ≠ 0 := by decide

theorem witness_ShadowReadsAreCoherent :
    let h := hubIn .run
    let g := (h.readLow 0 TIME_NOW.addr ⟨.TIME_NOW, 0, 0, false⟩).1
    RegName.TIME_NOW ≠ .TDC_TIN_FIFO ∧ g.advance.master 0 = g.master 0 ∧ (h.master 0).shadow = none := by
  decide +kernel

/-- A queue of `n` words, the last of which ends an item. -/
def queueHub (n : Nat) : Hub :=
  (hubIn .run).setQueue 7 { words := (List.range n).map fun i => ⟨i, i + 1 == n, .plain⟩ }

theorem witness_QueuesAreFifo :
    (queueHub 31).awake = true ∧
    ((queueHub 31).on (Q_STATUS_TAIL_DROP 7) = false ∧ ((queueHub 31).queue 7).drop = false ∧
      ((queueHub 31).queue 7).part = false ∧
      ((queueHub 31).queue 7).words.length < 32 ∧ ((queueHub 31).queue 7).held = []) ∧
    ((queueHub 32).on (Q_STATUS_TAIL_DROP 7) = false ∧ ((queueHub 32).queue 7).drop = false ∧
      ((queueHub 32).queue 7).part = false ∧
      ((queueHub 32).queue 7).words.length = 32) ∧
    (((queueHub 2).queue 7).words = ⟨0, false, .plain⟩ :: [⟨1, true, .plain⟩] ∧
      ((queueHub 2).queue 7).skip = false ∧ ((queueHub 2).queue 7).held = [] ∧ QErr.corrected ≠ .uncorrectable) ∧
    ((queueHub 0).queue 7).words = [] ∧ ((queueHub 0).queue 7).held = [] := by decide +kernel

/-- An alignment armed for the next BX, with another WHOLE. -/
def armedHub : Hub :=
  ((({ hubIn .run with clk := { frame := 99, slot := 1, armedBx := 100 } } : Hub).put TIME_STATUS_ALIGN_ARMED 1).wr
    TIME_ALIGN_NEXT.addr 0x1000)

theorem witness_AlignmentInRun :
    armedHub.awake = true ∧ armedHub.inRun = true ∧ armedHub.on TIME_STATUS_ALIGN_ARMED = true ∧
      armedHub.nextFrame = armedHub.clk.armedBx ∧
      armedHub.rd TIME_ALIGN_NEXT.addr / 4096 ≠ armedHub.rd TIME_ALIGN.addr / 4096 := by decide +kernel

/-- A BX_SET that changes the count, and one that loads the count the hub has. -/
theorem witness_BxSetLoadsTheCount :
    edgeHub.Sound ∧ (edgeHub.bxSetCount 5).2 = false ∧
      ((({ edgeHub with clk := { edgeHub.clk with slot := 0 } } : Hub)).bxSetCount 5).2 = true :=
  ⟨witness_sound, by decide +kernel, by decide +kernel⟩

theorem witness_DisabledFastCommands :
    let h := (hubIn .run).wr DL_FC_EN_BX_SET.addr 0
    h.awake = true ∧ h.on DL_FC_EN_BX_SET = false ∧ h.on DL_FC_EN_REC_SYNC = false ∧
      h.on DL_FC_EN_RUN_START = false ∧ h.on DL_FC_EN_RUN_STOP = false ∧ h.on DL_FC_EN_APPLY = false ∧
      h.on DL_FC_EN_CAL_STROBE = false ∧ h.hrstArmed = false := by decide +kernel

theorem witness_AcceptTriggers :
    let on := (hubIn .run).put TRG_CFG_ACC_EN 1
    let off := (hubIn .run).put TRG_CFG_ACC_EN 0
    let ready := (hubIn .ready).put TRG_CFG_ACC_EN 1
    (on.awake = true ∧ on.on TRG_CFG_ACC_EN = true ∧ on.inRun = true) ∧
      (off.awake = true ∧ off.on TRG_CFG_ACC_EN = false) ∧
      ready.awake = true ∧ ready.on TRG_CFG_ACC_EN = true ∧ ready.pwr.state = .ready := by decide +kernel

/-- Cell 16 of block 23 with its TDC on, which has recorded a hit in the event-clock period `p`. -/
def tdcHub (p : Option Nat) : Hub :=
  let h := { hubIn .run with clk := { tick := 50 } }
  (h.setCell (cellId 23 16) { armed := true, conv := [⟨8192, 8192, 0x201403, 0x100000, false, 0⟩] }).setTdc
    (cellId 23 16) { en := true, period := p }

theorem witness_TdcHits :
    (∀ p ∈ [none, some 203], (tdcHub p).awake = true ∧ (tdcHub p).sampling = true ∧
      discHit ((tdcHub p).cell (cellId 23 16)) 50 ⟨0, 16383⟩ = true ∧ ((tdcHub p).tdc (cellId 23 16)).en = true) ∧
    (407 : Fin 412).val = cellId 23 16 ∧
    ((tdcHub (some 203)).tdc (cellId 23 16)).period = some (4 * 50 + 3) ∧
    ((tdcHub none).tdc (cellId 23 16)).period ≠ some (4 * 50 + 3) ∧
    (tdcHub none).tdcWaking ((tdcHub none).tdc (cellId 23 16)) = false ∧
    (tdcHub none).inDeadTime ((tdcHub none).tdc (cellId 23 16))
      ((tdcHub none).edgeTime (cellId 23 16) 3 ⟨1, 2, 3⟩) = false := by decide +kernel

/-- An engine whose start is a rising edge of tin_0 and whose stop is the next edge of source 4. -/
theorem witness_IntervalMeasurement :
    let armed := ((hubIn .run).put (IVL_STATUS_STATE 3) 1).setIvl 3 { cfg := 0x800 }
    let first := (hubIn .run).setIvl 3 { cfg := 0x800, first := some (false, 9, false) }
    (armed.awake = true ∧ armed.get (IVL_STATUS_STATE 3) = 1 ∧ (armed.ivl 3).armFrom ≤ armed.clk.tick ∧
      isStart (armed.ivl 3).cfg 0 false = true ∧ isStop (armed.ivl 3).cfg 4 true = true ∧
      isStart (armed.ivl 3).cfg 0 true = false ∧ isStop (armed.ivl 3).cfg 0 true = false) ∧
    first.awake = true ∧ (first.ivl 3).first = some (false, 9, false) ∧ bit (first.ivl 3).cfg 16 = false := by
  decide +kernel

theorem witness_RedundancyErrors :
    let h := ((hubIn .run).setCell (cellId 23 16) { conv := [⟨8192, 8192, 0x201403, 0x100000, false, 2 ^ qRedund⟩] }).put
      (CELL_HLTH_CFG_REDUND_LIMIT 23 16) 2
    (h.awake = true ∧ h.sampling = true ∧ (h.cell (cellId 23 16)).redundWin + 1 ≠ 2 ∧
      h.get (CELL_HLTH_CFG_REDUND_LIMIT 23 16) = 2 ∧
      (h.put (CELL_HLTH_CFG_REDUND_LIMIT 23 16) 0).get (CELL_HLTH_CFG_REDUND_LIMIT 23 16) = 0) ∧
    (hubIn .standby).sampling = false ∧ (hubIn .standby).awake = true ∧
    (∃ v w, (h.cell (cellId 23 16)).conv[0]? = some v ∧ bit v.causes qRedund = true ∧
      cellWordAt (h.cell (cellId 23 16)) 0 = some w) := by
  refine ⟨by decide +kernel, by decide +kernel, by decide +kernel, _, _, rfl, rfl, rfl⟩

theorem witness_MovesRefused :
    (16 ≤ 16) ∧ ((hubIn .run).wr (HNG_ROT_MASK 23).addr 0).qualifies 23 15 = false ∧
      (({ hubIn .run with blks := [(23, { serving := some 3 })] } : Hub).blk 23).serving.isSome = true ∧
      (hubIn .run).health 23 16 ≠ 3 := by decide +kernel

theorem witness_DelayChangeMarks :
    let same := hubIn .run
    let other := (hubIn .run).put (CELL_DLY_INT 23 15) 63
    same.awake = true ∧
      same.get (CELL_DLY_INT 23 15) * 16 + same.get (CELL_DLY_FRAC 23 15) = delayAt (same.chan 383).dly 1 ∧
      other.awake = true ∧
      other.get (CELL_DLY_INT 23 15) * 16 + other.get (CELL_DLY_FRAC 23 15) ≠ delayAt (other.chan 383).dly 1 := by
  decide +kernel

theorem witness_MalformedRequests :
    let h := ((hubIn .run).wr DL_OUTSTANDING.addr 95).put DL_GROUPS_HUB_ADDR 5
    h.awake = true ∧ h.addressed 0 4 = false ∧ h.addressed 0 5 = true ∧ h.addressed 2 0 = true ∧
      h.rd DL_OUTSTANDING.addr < 96 ∧ h.lom.replies = [] ∧
      (∀ q ∈ [0, 1], (h.queue q).words = [] ∧ (h.queue q).held = [] ∧ h.on (Q_STATUS_OPEN q) = false) ∧ (63 : Fin 64).val ≠ 0 ∧
      ([] : List Word).length ≠ (0 : Fin 64).val + 1 := by decide +kernel

/-- The path of the downlink without a session, and with one that lacks every ward, at the ends of the ranges. -/
theorem witness_AccessesNeedTheirWards :
    (hubIn .run).awake = true ∧ (hubIn .run).sesOpen 2 = false ∧
    (∀ a ∈ [0x108, 0x1FC, 0x310, SES_IDLE_LIMIT.addr, 0xFFFFFFFC],
      a % 4 = 0 ∧ 0x108 ≤ a ∧ (a < 0x200 ∨ 0x310 ≤ a ∨ a = SES_IDLE_LIMIT.addr)) ∧
    (hubWith 0).awake = true ∧ (hubWith 0).sesOpen 2 = true ∧
    (∀ w ∈ List.range 6, bit ((hubWith 0).get (bank 2 SES_STATUS_WARDS)) w = false) ∧
    (∀ a ∈ [PWR_CTRL.addr, CLK_CTRL.addr, IVL_RTT_SPK.addr, TDC_TIN_CFG.addr, TRG_CFG.addr, DL_GROUPS.addr,
        LEAF_BCAST_CTRL.addr, CFG_CTRL.addr, EVT_LEAF_WIN.addr, CREC_CFG.addr, CAL_CTRL.addr, KPR_CTRL.addr,
        SES_KEY_CTRL.addr, (SES_KEY_DATA 0).addr, (SES_KEY_DATA 7).addr],
      (hubWith 0).presented 0 a true = true) ∧
    (∀ a ∈ [SES_KEY_CTRL.addr, CLK_STATUS.addr, (CELL_CTRL 23 16).addr],
      (hubWith 0).presented 0 a false = true ∧ 0x310 ≤ a) := by decide +kernel

/-- Slot 3 locked, or locked and revoked. -/
def slotHub (revoked : Nat) : Hub := ((hubIn .ready).put (SES_SLOT_LOCKED 3) 1).put (SES_SLOT_REVOKED 3) revoked

theorem witness_ChallengeDrawsAFreshNonce :
    ((slotHub 0).on (SES_SLOT_LOCKED 3) = true ∧ (slotHub 0).on (SES_SLOT_REVOKED 3) = false ∧
      ((slotHub 0).ses 3).lockTo ≤ (slotHub 0).clk.usec) ∧
    ((slotHub 0).put (SES_SLOT_LOCKED 3) 0).on (SES_SLOT_LOCKED 3) = false ∧
    ((slotHub 1).on (SES_SLOT_LOCKED 3) = true ∧ (slotHub 1).on (SES_SLOT_REVOKED 3) = true) ∧
    (((slotHub 0).setSes 3 { lockTo := 1 }).on (SES_SLOT_LOCKED 3) = true ∧
      ((slotHub 0).setSes 3 { lockTo := 1 }).on (SES_SLOT_REVOKED 3) = false ∧
      ((slotHub 0).setSes 3 { lockTo := 1 }).clk.usec < (((slotHub 0).setSes 3 { lockTo := 1 }).ses 3).lockTo) := by
  decide +kernel

theorem witness_RevocationIsForGood :
    let h := slotHub 0
    let g := (h.put (bank 3 SES_STATUS_STATE) 2).put (bank 3 SES_STATUS_SLOT) 3
    let r := (slotHub 1).setSes 3 { nonce := true, slot := 3 }
    (h.on SES_KEY_CTRL_BUSY = false ∧ h.sesOpen 3 = false) ∧
      (g.on SES_KEY_CTRL_BUSY = false ∧ g.sesOpen 3 = true ∧ g.get (bank 3 SES_STATUS_SLOT) = 3 ∧
        g.get (bank 3 SES_STATUS_SLOT) ≠ 2) ∧
      r.on SES_KEY_CTRL_BUSY = false ∧ r.on (SES_SLOT_REVOKED 3) = true ∧ (r.ses 3).nonce = true ∧
      (r.ses 3).slot = 3 := by decide +kernel

theorem witness_ClaimsWaitForTheKeepalive :
    let h := ((((hubIn .run).put KPR_STATUS_STATE_A kActive).put KPR_STATUS_STATE_B 3).put (KPR_HEALTH_FIT 1) 1).put
      HASP_STATUS_ABSENT_US 9
    let b := ((hubIn .run).put KPR_STATUS_STATE_B kBooting).put HASP_STATUS_ABSENT_US 7
    (h.awake = true ∧ h.fitStandby 1 = true ∧ h.owner ≠ none ∧ h.toggling = true) ∧
      (b.kSt 1 = kBooting ∧ b.owner ≠ none ∧ b.get HASP_STATUS_ABSENT_US < 8) ∧
      (hubIn .run).kSt 1 ≠ kBooting ∧ (hubIn .run).fitStandby 1 = false := by decide +kernel

/-- A hub whose image update is in state `st`. -/
def updHub (st : Nat) : Hub := (hubIn .run).put KPR_UPD_STATUS_STATE st

theorem witness_UpdateStepsInOrder :
    (∀ st ∈ [0, 1, 2, 3, 4, 5, 6, 7, 8, 9], (updHub st).awake = true ∧ (updHub st).updState = st ∧
      (updHub st).on KPR_STATUS_KEEPERLESS = false ∧ (updHub st).mayWrite 2 KPR_UPD_CTRL.addr = true ∧
      (updHub st).mayWrite 2 KPR_UPD_DATA.addr = true) ∧
    ((updHub 2).wr KPR_UPD_LEN.addr 3).rd KPR_UPD_LEN.addr <
      ((updHub 2).wr KPR_UPD_LEN.addr 3).rd KPR_UPD_COUNT.addr + 4 := by decide +kernel

theorem witness_PowerTransitions :
    (1 < 2 ∧ 4 < 5) ∧ ((hubIn .ready).put PWR_CTRL_GO 1).on PWR_CTRL_GO = true ∧
      (hubIn .ready).on PWR_CTRL_GO = false ∧ (hubIn .standby).goReady 3 = false ∧ (hubIn .ready).goListed 3 = false ∧ (hubIn .boot).goListed 2 = false ∧
      (∀ t ∈ [2, 4], (hubIn .ready).goListed t = true ∧ (hubIn .ready).goReady t = true) ∧
      ((({ hubIn .ready with pwr := { state := .ready, goTarget := some 4 } } : Hub).pwr.state = .ready) ∧
        ({ hubIn .run with pwr := { state := .run, goTarget := some 3 } } : Hub).pwr.goTarget = some 3) := by
  decide +kernel

theorem witness_ChipResetKeepsTheGazeboDomain :
    7 < 8 ∧ gazeboKey GZB_TIME.addr = true ∧ GZB_TIME.addr ≠ GZB_CTRL.addr ∧ gazeboKey DL_GROUPS.addr = false ∧
      DL_GROUPS.addr ≠ PWR_RESET_COUNT.addr ∧ DL_GROUPS.addr ≠ PWR_STATUS.addr ∧
      ((hubIn .run).put DL_HRST_ARM_ARM 1).awake = true ∧ ((hubIn .run).put DL_HRST_ARM_ARM 1).hrstArmed = true := by
  decide +kernel

theorem witness_TestAccessPort :
    (hubIn .run).tap.instr.takesBalls = false ∧
      ({ hubIn .run with tap := { instr := .extest } } : Hub).tap.instr.takesBalls = true ∧
      ({ hubIn .run with tap := { instr := .extest } } : Hub).awake = true := by decide +kernel

theorem witness_WindowCrossings :
    let off := (hubIn .run).put (MON_WIN_CFG_EN 15) 0
    let on := (((hubIn .run).put (MON_WIN_CFG_EN 15) 1).put (MON_WIN_CFG_CAPTURE 15) 0).put (MON_WIN_THR_HIGH 15) 100
    let full := on.setQueue 6 { words := List.replicate 27 ⟨0, true, .plain⟩ }
    (off.awake = true ∧ off.on (MON_WIN_CFG_EN 15) = false) ∧
      on.on (MON_CH_CFG_DIFF (on.get (MON_WIN_CFG_CH 15))) = false ∧
      bit ({ on with mon := { on.mon with tripped := 2 ^ 15 } } : Hub).mon.tripped 15 = true ∧
      on.winBeyond 15 100 0 = false ∧
      (full.awake = true ∧ full.on (MON_WIN_CFG_EN 15) = true ∧ full.winBeyond 15 101 0 = true ∧
        bit full.mon.tripped 15 = false ∧ full.on (MON_WIN_CFG_CAPTURE 15) = false ∧
        full.on (Q_STATUS_OPEN 6) = false ∧ (full.queue 6).held = [] ∧ (full.queue 6).words.length ≤ 27) := by
  decide +kernel

theorem witness_OneQueuedCalibrationPerCell :
    let h := hubIn .run
    let g := h.calQueue 23 16 1 false
    (h.awake = true ∧ h.mayWrite 2 CAL_REQ.addr = true ∧ h.on KPR_STATUS_KEEPERLESS = false ∧
      ((h.calBlk 23).queue.any fun r => r.cell == 16) = false) ∧
      (g.awake = true ∧ g.mayWrite 2 CAL_REQ.addr = true ∧ g.on KPR_STATUS_KEEPERLESS = false ∧
        ((g.calBlk 23).queue.any fun r => r.cell == 16) = true) := by decide +kernel

/-- Lanes 0, 12 and 29 in the states at the ends of the clauses. -/
theorem witness_TrainingTimeout :
    ∀ l ∈ [0, 12, 29], ∀ st ∈ [1, 2, 6, 7],
      ((hubIn .run).setLs l st).awake = true ∧ ((hubIn .run).setLs l st).ls l = st := by decide +kernel

theorem witness_LeafWindows : (hubIn .run).leafPresent 15 = false := by decide +kernel

theorem witness_ConfigurationRefusals :
    let loading := (hubIn .run).put CFG_STATUS_STATE 1
    let ready := { hubIn .ready with clk := { frame := 5 } }
    (hubIn .run).get CFG_STATUS_STATE ≠ 1 ∧ loading.get CFG_STATUS_OWNER ≠ ownerOf 1 ∧ (hubIn .run).inRun = true ∧
      aheadMod (2 ^ 48) ((ready.w64 CFG_APPLY_BX (6 * 2 ^ 16)).r64 CFG_APPLY_BX / 2 ^ 16) ready.clk.frame < 2 ∧
      2 ^ 47 ≤ aheadMod (2 ^ 48) (ready.r64 CFG_APPLY_BX / 2 ^ 16) ready.clk.frame ∧
      loading.awake = true ∧ loading.get CFG_STATUS_STATE = 1 := by decide +kernel

/-- A slot with the units of its regions in state `u`. -/
def slotOf (u : UnitState) : Slot :=
  { evt := 7, time := 0, cause := 1, pre := 4, post := 4, born := 0, age := 0, forms := [], formCfg := 0, leafIncl := 0
    leafWin := 0, out := 0, drop := 0, frozen := 0, dtsum := [], rgn := List.replicate 6 u
    leaf := List.replicate 16 .none }

theorem witness_SlotsReleased :
    (hubIn .run).awake = true ∧ (hubIn .run).slot 127 = none ∧
      (∀ u, ((hubIn .run).setSlot 127 (some (slotOf u))).slot 127 = some (slotOf u)) ∧
      (slotOf .wait).done = false ∧ (slotOf .sent).done = true := by
  refine ⟨by decide +kernel, by decide +kernel, fun u => ?_, by decide +kernel, by decide +kernel⟩
  cases u <;> decide +kernel

theorem witness_FilterSwaps :
    ∀ r ∈ [CELL_FLT_EST 23 15, CELL_FLT_REC 23 15],
      let wait := (hubIn .run).put (fSwap r) 1
      wait.awake = true ∧ bit (wait.rd r.addr) 31 = true ∧ bit (wait.rd r.addr) 30 = false ∧
        (wait.put (fFading r) 1).on (fFading r) = true ∧ wait.on (fFading r) = false ∧
        (wait.put (fNext r) (wait.get (fCur r))).get (fNext r) = wait.get (fCur r) ∧
        (wait.put (fNext r) 63).get (fNext r) ≠ wait.get (fCur r) := by decide +kernel

end Sys2Proof.Machine.Tests
end

section
/-! Scope of a step: what every command and every step keep of the hub (R8 to R10, R415, R418, R528). -/

namespace Sys2Proof

/-- The command that writes an OTP key (R416). -/
def Instr.programsKey : Instr → Bool
  | .sesKeyProgramDone _ => true
  | _ => false

/-- The commands that load an instruction of the test access port (R528). -/
def Instr.loadsTap : Instr → Bool
  | .tapReset | .extest | .samplePreload _ | .highz | .clamp | .extestPulse | .extestTrain | .bypass => true
  | _ => false

end Sys2Proof

namespace Sys2Proof.Machine

open Hub

/-- What command `c` keeps when it takes hub `g` to hub `h`: `h` is sound, only the end of a key programming changes
keys, only the test access port changes its own state, and no nonce is given back. -/
structure Hub.KeptBy (c : Instr) (g h : Hub) : Prop where
  sound : h.Sound
  keys : c.programsKey = false → h.keys = g.keys
  tap : c.loadsTap = false → h.tap = g.tap
  nonces : g.nonces ≤ h.nonces

/-! ## Keeping everything, and everything but the keys or the test access port -/

theorem Hub.Kept.keptBy {c : Instr} {g h : Hub} (H : Kept g.keys g.tap g.nonces h) : KeptBy c g h :=
  ⟨H.sound, fun _ => H.keys, fun _ => H.tap, H.nonces⟩

theorem Hub.Kept.keptBy_of_programsKey {c : Instr} {g h : Hub} {K : SMap (List Nat)} (hc : c.programsKey = true)
    (H : Kept K g.tap g.nonces h) : KeptBy c g h :=
  ⟨H.sound, by simp [hc], fun _ => H.tap, H.nonces⟩

theorem Hub.Kept.keptBy_of_loadsTap {c : Instr} {g h : Hub} {T : Tap} (hc : c.loadsTap = true)
    (H : Kept g.keys T g.nonces h) : KeptBy c g h :=
  ⟨H.sound, fun _ => H.keys, by simp [hc], H.nonces⟩

/-! ## The forms a command's outcome has -/

section Forms

variable {s t : State} {f : Hub → Hub}

theorem hub_of_act (e : s.act f = .next t) : t.hub = f s.hub := by
  cases e
  rfl

/-- A command that acts while awake has its effect, or in a hub that is not awake none. -/
theorem hub_of_actAwake (e : s.actAwake f = .next t) : t.hub = f s.hub ∨ t.hub = s.hub := by
  rw [hub_of_act e]
  split
  · exact .inl rfl
  · exact .inr rfl

/-- A command that checks its operands and goes on has found them well formed. -/
theorem next_of_guard {p : Prop} [Decidable p] {o : Host.Outcome State Fault Refusal} {r : Fault}
    (e : (if p then o else .fault r) = .next t) : o = .next t := by
  split at e
  · exact e
  · cases e

variable {c : Instr}

theorem keptBy_of_act (e : s.act f = .next t) (H : Kept s.hub.keys s.hub.tap s.hub.nonces (f s.hub)) :
    KeptBy c s.hub t.hub := by
  rw [hub_of_act e]
  exact H.keptBy

theorem keptBy_of_actAwake (e : s.actAwake f = .next t) (K : Kept s.hub.keys s.hub.tap s.hub.nonces s.hub)
    (H : Kept s.hub.keys s.hub.tap s.hub.nonces (f s.hub)) : KeptBy c s.hub t.hub := by
  rcases hub_of_actAwake e with h | h <;> rw [h]
  · exact H.keptBy
  · exact K.keptBy

theorem keptBy_of_act_tap {T : Tap} (hc : c.loadsTap = true) (e : s.act f = .next t)
    (H : Kept s.hub.keys T s.hub.nonces (f s.hub)) : KeptBy c s.hub t.hub := by
  rw [hub_of_act e]
  exact H.keptBy_of_loadsTap hc

theorem keptBy_of_actAwake_key {M : SMap (List Nat)} (hc : c.programsKey = true) (e : s.actAwake f = .next t)
    (K : Kept s.hub.keys s.hub.tap s.hub.nonces s.hub) (H : Kept M s.hub.tap s.hub.nonces (f s.hub)) :
    KeptBy c s.hub t.hub := by
  rcases hub_of_actAwake e with h | h <;> rw [h]
  · exact H.keptBy_of_programsKey hc
  · exact K.keptBy

end Forms

/-! ## Commands and steps -/

/-- What each command keeps of a sound hub: the lemma of the operation it performs says so. -/
theorem exec_keptBy {s t : State} {c : Instr} (hs : s.Sound) (e : exec c s = .next t) : KeptBy c s.hub t.hub := by
  have K := kept_self hs
  unfold exec at e
  cases c with
  -- Commands that are accesses of registers (R6, R447, R448)
  | queueFlush | clkHoldForce | clkRelock | alignCompute | alignArm | alignCancel | orgCtrlWrite
  | cellHealthClear | hngMoveShadow | hngMoveCover | hngMoveRetire | hngMoveCalibrate | spareRetire
  | spareRestore | hngCommitToSpare | hngCommitBack | blockReset | crecRestart | snapArm | snapFreeze
  | snapRelease | regionReset | ivlArm | ivlCancel | frqStart | frqCancel | monUrgentGo | laneEnable
  | laneDisable | laneRetrain | laneLoop | ulPlannedMove | ulRelock | hrstArm | leafSync | leafReset
  | leafBcastGo | cfgBegin | cfgDiscard | cfgArm | cfgCancel | cfgApplyNow | cfgLoadData | sesChallenge
  | sesRespond | sesClose | sesKeyProgram | sesKeyRevoke | pwrGo | pwrChipReset | cellReset | gzbEnter =>
    exact keptBy_of_actAwake e K (writeTo_kept _ _ _ K)
  | registerWrite => exact keptBy_of_actAwake e K (busWrite_kept _ _ _ K)
  | read64Low | tinFifoPop | tdcLastRead | flashWindowRead => exact keptBy_of_actAwake e K (busRead_kept _ _ K)
  | write64Pair | featAcceptWrite => exact keptBy_of_actAwake e K (act_kept _ _ _ K)
  -- Commands that a keeper serves (R471)
  | calSweep | calReq | keeperSwap | updBegin | updData | updEnd | updProve | updComplete | updAbort =>
    exact keptBy_of_actAwake e K (serve_kept _ _ _ _ K)
  -- Bus, alarm and queue commands (01, 18)
  | alarmForward => exact keptBy_of_actAwake e K (alarmForward_kept K)
  | keeperHealth => exact keptBy_of_actAwake e K (keeperHealth_kept K)
  | summary => exact keptBy_of_actAwake e K (summary_kept K)
  | queuePush => exact keptBy_of_actAwake e K (qPush_kept _ _ _ _ K)
  | queuePop => exact keptBy_of_actAwake e K (queuePop_kept _ _ K)
  -- Commands of the time base (02)
  | ctlOscSwap => exact keptBy_of_actAwake e K (ctlOscSwap_kept K)
  | gzbStop => exact keptBy_of_act e (gzbStop_kept K)
  | downlinkSwitch => exact keptBy_of_actAwake e K (downlinkSwitch_kept K)
  | downlinkRevert => exact keptBy_of_actAwake e K (downlinkRevert_kept K)
  | clkDlSelWrite => exact keptBy_of_actAwake e K (takePolicy_kept K)
  | relockDone => exact keptBy_of_actAwake e K (relockDone_kept K)
  | ocxoWarmChange => exact keptBy_of_act e (ocxoLevel_kept _ K)
  | refLost => exact keptBy_of_actAwake e K (refLostAll_kept K)
  | refFreqCheck => exact keptBy_of_actAwake e K (refFreqCheck_kept _ K)
  | refColdClear => exact keptBy_of_actAwake e K (refreshRef_kept K)
  | refReturn => exact keptBy_of_actAwake e K (refReturn_kept K)
  | localModeEnter => exact keptBy_of_actAwake e K (localEnter_kept K)
  | localModeExit => exact keptBy_of_actAwake e K (localExit_kept _ K)
  | holdoverLong => exact keptBy_of_actAwake e K (holdoverLong_kept K)
  | holdoverExit => exact keptBy_of_actAwake e K (holdoverExit_kept _ K)
  | holdoverSlewDone => exact keptBy_of_actAwake e K (slewDone_kept K)
  | holdoverPhaseStep => exact keptBy_of_actAwake e K (phaseStep_kept K)
  | holdoverQualified => exact keptBy_of_actAwake e K (holdoverQualified_kept K)
  | machinePllLock => exact keptBy_of_actAwake e K (pllLock_kept _ K)
  | bxSet => exact keptBy_of_actAwake e K (bxSet_kept K)
  -- Alignment and orangery commands (02)
  | alignApply => exact keptBy_of_actAwake e K (alignTake_kept K)
  | orgWarmAssert => exact keptBy_of_actAwake e K (warmAssert_kept K)
  | orgWarmDeassert => exact keptBy_of_actAwake e K (skewsCold_kept (warmDeassert_kept K))
  -- Commands of the signal cells (03)
  | cellFrontEndChange => exact keptBy_of_actAwake e K (takeFrontEnd_kept _ _ K)
  | cellEnableChange => exact keptBy_of_actAwake e K (takeEnable_kept _ _ K)
  | cellRedundError => exact keptBy_of_actAwake e K (kept_ite (redundError_kept _ _ K) K)
  | cellHealthWindowEnd => exact keptBy_of_actAwake e K (healthWindow_kept _ _ K)
  | discEnableChange => exact keptBy_of_actAwake e K (takeDiscEnable_kept _ _ _ K)
  | discSettingsChange => exact keptBy_of_actAwake e K (takeDiscSettings_kept _ _ _ K)
  -- Commands of the spares and hinges (04)
  | hingeDischargeDone => exact keptBy_of_actAwake e K (dischargeDone_kept _ K)
  | hingeSettled => exact keptBy_of_actAwake e K (hingeSettled_kept _ K)
  | dwellEnd => exact keptBy_of_actAwake e K (dwellEnd_kept _ K)
  | handover => exact keptBy_of_actAwake e K (handover_kept _ K)
  | spareUseSafePoint => exact keptBy_of_actAwake e K (safePoint_kept _ K)
  | blockSelfFail => exact keptBy_of_actAwake e K (selfFail_kept _ K)
  -- Commands of the filter chain (05)
  | delayChange => exact keptBy_of_actAwake e K (takeDelay_kept _ _ K)
  | fltSwap | fltSwapForce => exact keptBy_of_actAwake e K (swapTake_kept _ _ _ _ K)
  | fadeEnd => exact keptBy_of_actAwake e K (fadeEnd_kept _ _ _ K)
  | recordBlock => exact keptBy_of_actAwake e K (recordBlock_kept K)
  | recSync => exact keptBy_of_actAwake e K (recSync_kept K)
  -- Trigger commands (06)
  | accept => exact keptBy_of_actAwake e K (accept_kept K)
  | tbTrigger => exact keptBy_of_actAwake e K (tbTrigger_kept K)
  | trellisDecision => exact keptBy_of_actAwake e K (trellisDecision_kept K)
  | tbDrive => exact keptBy_of_actAwake e K (tbDrive_kept K)
  | slotAllocation => exact keptBy_of_actAwake e K (leafCopyNew_kept (slotAllocation_kept K))
  | trgEvtLoad => exact keptBy_of_actAwake e K (kept_ite (evtLoad_kept K) K)
  | trgClrDt => exact keptBy_of_actAwake e K (kept_ite (clearDeadTime_kept K) K)
  | snapFrozen => exact keptBy_of_actAwake e K (snapFrozen_kept _ K)
  -- Event building commands (06, 07)
  | extractionStart => exact keptBy_of_actAwake e K (extractionStart_kept _ _ _ K)
  | ringScrub => exact keptBy_of_actAwake e K (ringScrub_kept _ _ K)
  | diagRingRead => exact keptBy_of_actAwake e K (diagRingRead_kept _ _ _ _ _ K)
  | fragmentAssembly => exact keptBy_of_actAwake e K (assemblyTurn_kept _ K)
  | unitSent => exact keptBy_of_actAwake e K (unitSent_kept _ K)
  | slotRelease => exact keptBy_of_actAwake e K (slotRelease_kept _ K)
  | eventClose => exact keptBy_of_actAwake e K (eventClose_kept _ K)
  | regionResetEffect => exact keptBy_of_actAwake e K (regionResetEffect_kept _ K)
  | leafFragmentComplete => exact keptBy_of_actAwake e K (leafFragment_kept _ _ K)
  -- TDC commands (08)
  | tdcHit => exact keptBy_of_actAwake e K (tdcHit_kept _ _ _ _ K)
  | tdcEnableChange => exact keptBy_of_actAwake e K (takeTdcEnable_kept _ _ K)
  | cdSnapshot => exact keptBy_of_actAwake e K (cdSnapshot_kept _ _ _ K)
  | cdTableComplete => exact keptBy_of_actAwake e K (cdComplete_kept _ K)
  -- Interval, round-trip and frequency commands (08)
  | ivlFirstEdge => exact keptBy_of_actAwake e K (ivlFirst_kept _ _ _ _ K)
  | ivlResult => exact keptBy_of_actAwake e K (ivlSecond_kept _ _ _ _ K)
  | ivlOvf => exact keptBy_of_actAwake e K (ivlOvf_kept _ K)
  | rttMeasureStart => exact keptBy_of_actAwake e K (rttStart_kept K)
  | rttEchoReply => exact keptBy_of_actAwake e K (rttReply_kept _ K)
  | rttTimeout => exact keptBy_of_actAwake e K (rttTimeout_kept K)
  | frqDone => exact keptBy_of_actAwake e K (frqDone_kept _ _ K)
  | frqNoEdge => exact keptBy_of_actAwake e K (frqNoEdge_kept _ K)
  -- Monitor and excitation commands (09)
  | monScanStart => exact keptBy_of_actAwake e K (monScanStart_kept K)
  | monConversionDone => exact keptBy_of_actAwake e K (monDone_kept _ _ K)
  | monResultRelease => exact keptBy_of_actAwake e K (monResultRelease_kept _ K)
  | monForward => exact keptBy_of_actAwake e K (monForward_kept K)
  | monWindowCrossing | monWindowRearm => exact keptBy_of_actAwake e K (winInput_kept _ _ K)
  | excChange => exact keptBy_of_actAwake e K (excChange_kept _ K)
  | excBlankEnd => exact keptBy_of_actAwake e K (excBlankEnd_kept _ K)
  | excComplianceLoss => exact keptBy_of_actAwake e K (excLoss_kept _ _ K)
  | excComplianceReturn => exact keptBy_of_actAwake e K (excReturn_kept _ K)
  | monCalibration => exact keptBy_of_actAwake e K (monCalibration_kept _ _ _ _ K)
  -- Calibration commands (10)
  | calRefCheck => exact keptBy_of_actAwake e K (calRefCheck_kept _ _ K)
  | calEngineStart => exact keptBy_of_actAwake e K (calStart_kept _ _ K)
  | calPhaseEnd => exact keptBy_of_actAwake e K (calPhaseEnd_kept _ _ _ K)
  | calTempCheck => exact keptBy_of_actAwake e K (calTempCheck_kept K)
  | calAgeExpiry => exact keptBy_of_actAwake e K (calAge_kept _ _ K)
  | calStrobe => exact keptBy_of_actAwake e K (fcGate_kept _ _ (fun _ => calStrobe_kept) K)
  | calPulseInject => exact keptBy_of_actAwake e K (calPulse_kept K)
  -- Lane commands (11)
  | trainBackoffEnd => exact keptBy_of_actAwake e K (backoffEnd_kept _ K)
  | signalDetectRise | laneSignalLoss => exact keptBy_of_act e (signalLevel_kept _ _ _ K)
  | trainCommaFound | trainSymbolLock | trainFrameLock => exact keptBy_of_actAwake e K (trainStep_kept _ _ K)
  | trainEqDone => exact keptBy_of_actAwake (next_of_guard e) K (eqDone_kept _ _ K)
  | trainIdentDone => exact keptBy_of_actAwake e K (identDone_kept _ K)
  | trainTimeout => exact keptBy_of_actAwake e K (trainTimeout_kept _ K)
  | laneFrameLockLoss => exact keptBy_of_actAwake e K (frameLockLoss_kept _ K)
  | eyeUpdate => exact keptBy_of_actAwake e K (eyeUpdate_kept _ _ K)
  | ulTxFault => exact keptBy_of_actAwake e K (ulTxFault_kept _ K)
  | ulAckTimeout => exact keptBy_of_actAwake e K (kept_ite (ulLost_kept _ _ K) K)
  | ulSpareTakeover => exact keptBy_of_actAwake e K (spareTakeover_kept _ K)
  | ulPlannedMoveDone => exact keptBy_of_actAwake e K (plannedMoveDone_kept _ K)
  | lanePllLockLoss => exact keptBy_of_actAwake e K (lanePllLoss_kept K)
  | lanePllLock => exact keptBy_of_actAwake e K (lanePllLock_kept K)
  | uplinkFrame => exact keptBy_of_actAwake e K (uplinkFrame_kept _ K)
  -- Downlink frames, fast commands and items (12)
  | dlFrame => exact keptBy_of_act (next_of_guard e) (dlReceive_kept _ _ K)
  | echo => exact keptBy_of_actAwake e K (echo_kept _ _ K)
  | hardReset => exact keptBy_of_actAwake e K (hardReset_kept K)
  | runStart => exact keptBy_of_actAwake e K (fcGate_kept _ _ (fun _ => runStart_kept) K)
  | runStop => exact keptBy_of_actAwake e K (fcGate_kept _ _ (fun _ => runStop_kept) K)
  | apply => exact keptBy_of_actAwake e K (fcGate_kept _ _ (fun _ => cfgApplyFast_kept) K)
  | wake => exact keptBy_of_act e (wakeFrame_kept _ K)
  | dlReadInc | dlReadFix => exact keptBy_of_actAwake e K (dlRead_kept _ _ _ _ _ _ K)
  | dlWriteInc | dlWriteFix => exact keptBy_of_actAwake e K (dlWrite_kept _ _ _ _ _ _ _ K)
  | dlModify => exact keptBy_of_actAwake e K (dlModify_kept _ _ _ _ _ _ _ K)
  | ulAck => exact keptBy_of_actAwake e K (kept_foldl (fun _ _ => ulAck_kept _ _) K)
  | laneBad => exact keptBy_of_actAwake e K (laneBad_kept _ K)
  | resend => exact keptBy_of_actAwake e K (resend_kept _ _ K)
  | hostIdent => exact keptBy_of_actAwake e K (hostIdent_kept _ _ _ K)
  | ulIdentAck => exact keptBy_of_actAwake e K (ulIdentAck_kept _ K)
  | hrstArmExpire => exact keptBy_of_actAwake e K (hrstExpire_kept K)
  -- Spoke and leaf commands (13)
  | spokeUpstreamFrame => exact keptBy_of_actAwake (next_of_guard e) K (spokeFrame_kept _ _ K)
  | leafIdent => exact keptBy_of_actAwake (next_of_guard e) K (leafIdent_kept _ _ K)
  | leafReply => exact keptBy_of_actAwake e K (leafReply_kept _ _ _ _ K)
  | leafAlarm => exact keptBy_of_actAwake e K (leafAlarm_kept _ _ K)
  | leafRecord => exact keptBy_of_actAwake e K (leafRecord_kept _ _ _ _ K)
  | hubIdentResend => exact keptBy_of_actAwake e K (hubIdentResend_kept _ K)
  | leafSyncDone => exact keptBy_of_actAwake e K (leafSyncDone_kept _ K)
  | leafPresent => exact keptBy_of_actAwake e K (leafPresentNow_kept _ K)
  | leafWindowAccess => exact keptBy_of_actAwake (next_of_guard e) K (act_kept _ _ _ K)
  | leafRequestTimeout => exact keptBy_of_actAwake e K (leafTimeout_kept _ K)
  | leafHoldExpire => exact keptBy_of_actAwake e K (leafHoldExpire_kept _ K)
  | leafForwardCommand => exact keptBy_of_actAwake e K (leafForward_kept _ _ K)
  | leafIsolationCheck => exact keptBy_of_actAwake e K (leafIsolation_kept K)
  -- Configuration commands (14)
  | cfgLoadStall => exact keptBy_of_actAwake e K (cfgStall_kept K)
  | cfgVerifyDone => exact keptBy_of_actAwake e K (verifyDone_kept _ K)
  | cfgArmDecision => exact keptBy_of_actAwake e K (cfgArmDecision_kept K)
  | cfgApplyEffect => exact keptBy_of_actAwake e K (applyEffect_kept _ K)
  | cfgScrub => exact keptBy_of_actAwake e K (cfgScrub_kept _ _ _ _ K)
  -- Session, feature and key commands (15)
  | nonceExpire => exact keptBy_of_actAwake e K (nonceExpire_kept _ K)
  | sessionIdleTimeout => exact keptBy_of_actAwake e K (sesIdle_kept _ K)
  -- Serial port and flash commands (16)
  | portReadInc | portReadFix => exact keptBy_of_actAwake e K (portRead_kept _ _ _ _ K)
  | portWriteInc | portWriteFix => exact keptBy_of_actAwake e K (portWrite_kept _ _ _ _ _ K)
  | portTransactionEnd => exact keptBy_of_actAwake e K (portTransactionEnd_kept _ K)
  | portCut => exact keptBy_of_actAwake e K (portCut_kept _ K)
  | portOverclock => exact keptBy_of_actAwake e K (portOverclock_kept K)
  | flashDiscovery => exact keptBy_of_actAwake e K (flashDiscovered_kept _ _ _ _ _ K)
  | flashLineFetchDone => exact keptBy_of_actAwake (next_of_guard e) K (fetchDone_kept _ _ K)
  | flashEngineCommand => exact keptBy_of_actAwake e K (flashEngine_kept K)
  | flashEngineDone => exact keptBy_of_actAwake e K (flashEngineDone_kept K)
  -- Keeper commands (17)
  | keepaliveAbsent => exact keptBy_of_actAwake e K (keepaliveAbsent_kept _ K)
  | keeperless => exact keptBy_of_actAwake e K (keeperless_kept K)
  | heartbeatAbsent => exact keptBy_of_actAwake e K (heartbeatAbsent_kept _ K)
  | haspClaim => exact keptBy_of_actAwake e K (haspClaims_kept _ _ K)
  | keeperTakeoverComplete => exact keptBy_of_actAwake e K (takeoverDone_kept K)
  | keeperHalt => exact keptBy_of_actAwake e K (keeperHalt_kept _ _ K)
  | pathFaultClear => exact keptBy_of_actAwake e K (pathClear_kept _ K)
  | journalEntry => exact keptBy_of_actAwake e K (journalEntry_kept _ K)
  | checkpointStart => exact keptBy_of_actAwake e K (checkpointStart_kept K)
  | checkpointCommit => exact keptBy_of_actAwake e K (checkpointCommit_kept _ _ K)
  | standbyLost => exact keptBy_of_actAwake e K (standbyLost_kept K)
  | keeperCommandCommit => exact keptBy_of_actAwake e K (keeperCommit_kept _ K)
  | keeperMarchStep => exact keptBy_of_actAwake e K (marchStep_kept _ _ _ K)
  | keeperInstrCheck => exact keptBy_of_actAwake e K (instrCheck_kept _ _ _ K)
  | keeperReset => exact keptBy_of_actAwake e K (serveReset_kept _ _ K)
  | keeperRejoinTimeout => exact keptBy_of_actAwake e K (rejoinTimeout_kept _ K)
  | keeperBooted => exact keptBy_of_actAwake e K (keeperBooted_kept _ _ K)
  -- Image update commands (17)
  | updEraseDone => exact keptBy_of_actAwake e K (updEraseDone_kept _ K)
  | updVerifyDone => exact keptBy_of_actAwake e K (updVerifyDone_kept _ _ _ _ K)
  | updProveDone => exact keptBy_of_actAwake e K (updProveDone_kept _ K)
  | updProveTimeout => exact keptBy_of_actAwake e K (updProveTimeout_kept K)
  | updFinishDone => exact keptBy_of_actAwake e K (updFinishDone_kept _ K)
  -- Power, reset and gazebo commands (19)
  | pwrTransition => exact keptBy_of_actAwake e K (pwrTransition_kept K)
  | supplyBad => exact keptBy_of_act e (supplyBad_kept _ K)
  | supplyGood => exact keptBy_of_act e (supplyGood_kept K)
  | resetPin => exact keptBy_of_act e (resetPinLow_kept K)
  | bootComplete => exact keptBy_of_actAwake e K (bootOver_kept _ K)
  | bootTimeout => exact keptBy_of_actAwake e K (bootLate_kept K)
  | pwrSupplyMeasure => exact keptBy_of_actAwake (next_of_guard e) K (supplyMeasure_kept _ K)
  | gzbMonPulse => exact keptBy_of_act e (gzbMonPulse_kept K)
  | gzbMonEvaluate => exact keptBy_of_act e (gzbMonEvaluate_kept _ _ _ K)
  | gazeboWake => exact keptBy_of_act e (gazeboWake_kept _ K)
  | gzbOscReturn => exact keptBy_of_act e (gzbOscReturn_kept K)
  | dlWakeListen => exact keptBy_of_act e (wakeListen_kept _ K)
  -- The sample period (02 to 06)
  | samplePeriod => exact keptBy_of_act e (samplePeriod_kept _ _ K)
  -- Keys and the test access port (15, 20)
  | sesKeyProgramDone => exact keptBy_of_actAwake_key rfl e K (keyDone_kept _ K)
  | tapReset | extest | highz | clamp | extestPulse | extestTrain | bypass =>
    exact keptBy_of_act_tap rfl e (tapLoad_kept _ K)
  | samplePreload => exact keptBy_of_act_tap rfl e (tapPreload_kept _ K)

/-- What a step can be: with no command waiting a microsecond of the CONTROL clock, else the front command. -/
theorem step_cases {s t : State} (e : step s = .next t) :
    (s.pending = [] ∧ t.hub = s.hub.microsecond) ∨
      ∃ c rest, s.pending = c :: rest ∧ exec c { s with pending := rest } = .next t := by
  unfold step at e
  split at e
  · next hp => exact .inl ⟨hp, hub_of_act e⟩
  · next c rest hp => exact .inr ⟨c, rest, hp, e⟩

/-- Settles O3: a step is a microsecond or a command, and each keeps the hub sound. -/
theorem stepKeepsSound : Obligations.StepKeepsSound := by
  intro s t hs e
  unfold State.Sound at hs ⊢
  rcases step_cases e with ⟨-, ht⟩ | ⟨c, rest, -, ec⟩
  · rw [ht]
    exact (microsecond_kept (kept_self hs)).sound
  · exact (exec_keptBy (s := { s with pending := rest }) hs ec).sound

end Sys2Proof.Machine
end

section
/-! Labels and time words: how they follow one another and how a time word holds a label (R8, R10, R40, R47). -/

namespace Sys2Proof.Machine

open Hub

/-! ## The next sample period -/

section Advance

variable (h : Hub)

@[simp] theorem Hub.advance_tick : h.advance.clk.tick = h.clk.tick + 1 := rfl

@[simp] theorem Hub.advance_slot : h.advance.clk.slot = 1 - h.clk.slot := rfl

@[simp] theorem Hub.advance_frame :
    h.advance.clk.frame = if h.clk.slot = 1 then (h.clk.frame + 1) % 2 ^ 48 else h.clk.frame := rfl

/-- The alignment in effect is a register, and the passing of a sample period writes none. -/
@[simp] theorem Hub.advance_whole : h.advance.whole = h.whole := rfl

end Advance

/-- The sample number 2 F + s goes up by one modulo the span of labels: after slot 0 by the slot, after slot 1 by the
frame count, whose wrap at 2^48 is the wrap of labels at 2^49. -/
theorem Hub.advance_sampleNumber {h : Hub} (hs : h.clk.slot < 2) :
    (2 * h.advance.clk.frame + h.advance.clk.slot) % 2 ^ 49 = (2 * h.clk.frame + h.clk.slot + 1) % 2 ^ 49 := by
  rw [advance_frame, advance_slot]
  obtain h0 | h1 : h.clk.slot = 0 ∨ h.clk.slot = 1 := by omega
  · simp [h0]
  · rw [h1]
    simp only [if_true]
    omega

/-- With the alignment below the span of labels, the label goes up as the sample number does (R47). -/
theorem Hub.advance_label {h : Hub} (hs : h.clk.slot < 2) (hw : h.whole ≤ labelSpan) :
    h.advance.label = (h.label + 1) % labelSpan := by
  have hn := advance_sampleNumber hs
  unfold label
  rw [advance_whole]
  unfold labelSpan at hw ⊢
  omega

/-! ## A label as a time word (R8) -/

section TimeWord

variable {l : Nat}

theorem bits_timeWord_fine : bits (timeWord l) 13 0 = 0 := by
  unfold bits timeWord
  omega

theorem bits_timeWord_slot : bits (timeWord l) 15 14 = l % 2 := by
  unfold bits timeWord
  omega

theorem bits_timeWord_bx (hl : l < labelSpan) : bits (timeWord l) 63 16 = l / 2 := by
  unfold labelSpan at hl
  unfold bits timeWord
  omega

theorem timeWord_lt (hl : l < labelSpan) : timeWord l < 2 ^ 64 := by
  unfold labelSpan at hl
  unfold timeWord
  omega

end TimeWord

/-- Settles O29: the label goes up with the sample number, and the fields of a time word are those of its label. -/
theorem labelsAdvance : Obligations.LabelsAdvance := by
  refine ⟨fun h hs hw => ⟨?_, advance_tick h, (advance_kept (kept_self hs)).sound⟩, fun l hl =>
    ⟨bits_timeWord_bx hl, bits_timeWord_slot, bits_timeWord_fine, timeWord_lt hl, labelOf_timeWord l⟩⟩
  obtain ⟨-, hslot, -⟩ := hs
  exact advance_label hslot (hw.le.trans (by decide))

end Sys2Proof.Machine
end

section
/-! Tables in canonical form are determined by what they read (R22). -/

namespace Sys2Proof.Machine

section Canonical

variable {α : Type} {d : Nat → α}

theorem SMap.get_cons_self (a : Nat) (v : α) (t : SMap α) : SMap.get d ((a, v) :: t) a = v := by
  simp [SMap.get]

theorem SMap.get_cons_ne {a k : Nat} (v : α) (t : SMap α) (h : a ≠ k) :
    SMap.get d ((a, v) :: t) k = SMap.get d t k := by
  simp [SMap.get, h]

/-- Keys up to a bound below the whole table are not listed. -/
theorem SMap.get_eq_default_of_above {j k : Nat} {m : SMap α} (hk : k ≤ j) (h : SMap.above j m = true) :
    SMap.get d m k = d k := by
  induction m with
  | nil => rfl
  | cons p t ih =>
    obtain ⟨a, v⟩ := p
    simp only [SMap.above, Bool.and_eq_true, decide_eq_true_eq] at h
    obtain ⟨ha, ht⟩ := h
    rw [SMap.get_cons_ne v t (by omega), ih ht]

theorem SMap.wf_cons_iff [DecidableEq α] {a : Nat} {v : α} {t : SMap α} :
    SMap.wf d ((a, v) :: t) = true ↔ v ≠ d a ∧ SMap.above a t = true ∧ SMap.wf d t = true := by
  simp [SMap.wf, and_assoc]

/-- The first key of one table is listed in every table that reads alike, so it is not below that table's keys. -/
theorem SMap.not_above_of_get_eq {a : Nat} {v : α} {t m : SMap α} (hv : v ≠ d a)
    (e : ∀ k, SMap.get d ((a, v) :: t) k = SMap.get d m k) {j : Nat} (hj : a ≤ j) : ¬ SMap.above j m = true := by
  intro h
  have ha := e a
  rw [SMap.get_cons_self, SMap.get_eq_default_of_above hj h] at ha
  exact hv ha

/-- Two tables in canonical form that read alike are equal: their first keys agree, hence their first values, and the
rests read alike. -/
theorem SMap.eq_of_get_eq [DecidableEq α] {m n : SMap α} (hm : SMap.wf d m = true) (hn : SMap.wf d n = true)
    (e : ∀ k, SMap.get d m k = SMap.get d n k) : m = n := by
  induction m generalizing n with
  | nil =>
    cases n with
    | nil => rfl
    | cons q u =>
      obtain ⟨hw, -, -⟩ := wf_cons_iff.mp hn
      exact absurd rfl (not_above_of_get_eq hw (fun k => (e k).symm) le_rfl)
  | cons p t ih =>
    obtain ⟨a, v⟩ := p
    obtain ⟨hv, hat, ht⟩ := wf_cons_iff.mp hm
    cases n with
    | nil => exact absurd rfl (not_above_of_get_eq hv e le_rfl)
    | cons q u =>
      obtain ⟨b, w⟩ := q
      obtain ⟨hw, hbu, hu⟩ := wf_cons_iff.mp hn
      have hab : a = b := by
        rcases Nat.lt_trichotomy a b with l | l | l
        · exact absurd (by simp [above, l, above_trans l hbu]) (not_above_of_get_eq hv e le_rfl)
        · exact l
        · exact absurd (by simp [above, l, above_trans l hat]) (not_above_of_get_eq hw (fun k => (e k).symm) le_rfl)
      subst hab
      have hvw : v = w := by simpa only [get_cons_self] using e a
      have htu : t = u := ih ht hu fun k => by
        by_cases hk : a = k
        · subst hk
          rw [get_eq_default_of_above le_rfl hat, get_eq_default_of_above le_rfl hbu]
        · simpa only [get_cons_ne _ _ hk] using e k
      rw [hvw, htu]

end Canonical

/-- Settles O5: register files in canonical form for the same reset values are equal once every register reads alike. -/
theorem registersCanonical : Obligations.RegistersCanonical := by
  rintro h g ⟨-, -, hh⟩ ⟨-, -, hg⟩ hf hr
  rw [← hf] at hg
  refine SMap.eq_of_get_eq hh hg fun k => BitVec.eq_of_toNat_eq ?_
  have e := hr k
  unfold Hub.rd at e
  rwa [← hf] at e

end Sys2Proof.Machine
end

section
/-! The windows of the leaves in the address map (R22, R24). -/

namespace Sys2Proof.Machine

/-- No register of the hub lies at or above the end of the region space (R22, R23). -/
theorem locate_eq_none {a : Nat} (h : 0x01600000 ≤ a - a % 4) : locate a = none := by
  unfold locate
  rw [if_neg (by omega), if_neg (by omega)]

theorem place_leafSpace {a : Nat} (lo : 0x02000000 ≤ a) (hi : a < 0x03000000) : place a = .leaf := by
  have hl : locate (a - a % 4) = none := locate_eq_none (by omega)
  unfold place
  simp only [hl]
  rw [if_pos (by omega)]

/-- A register of a leaf window is named by its spoke, its endpoint and its index in the endpoint's slot (R24). -/
theorem leafPlace_eq {s e r : Nat} (hs : s < 16) (he : e < 16384) (hr : r < 16) :
    leafPlace (0x02000000 + s * 0x00100000 + e * 0x40 + 4 * r) = (s, e, r) := by
  unfold leafPlace bits
  simp only [Prod.mk.injEq]
  refine ⟨?_, ?_, ?_⟩ <;> omega

/-- A leaf that is absent has no register. -/
theorem Hub.leafHas_eq_false {h : Hub} {a : Nat} (hp : h.leafPresent (leafPlace a).1 = false) :
    h.leafHas a = false := by
  unfold Hub.leafHas
  simp [hp]

/-- An address that no leaf answers is presented to no master (R24, R444). -/
theorem Hub.presented_eq_false_of_leaf {h : Hub} {a : Nat} (hp : place a = .leaf) (hl : h.leafHas a = false)
    (m : Nat) (w : Bool) : h.presented m a w = false := by
  unfold Hub.presented
  simp [hp, hl]

/-- Settles O57: the place of an address of a leaf window, and that it goes unanswered while the leaf is absent. -/
theorem leafWindows : Obligations.LeafWindows := by
  intro sp e r
  have hpl := place_leafSpace (a := 0x02000000 + sp.val * 0x00100000 + e.val * 0x40 + 4 * r.val) (by omega) (by omega)
  have hlp := leafPlace_eq sp.isLt e.isLt r.isLt
  refine ⟨hpl, hlp, fun h ha m w => Hub.presented_eq_false_of_leaf hpl (Hub.leafHas_eq_false ?_) m w⟩
  rw [hlp]
  exact ha

end Sys2Proof.Machine
end

section
/-! Fields, queues and alarm records: what they leave unchanged and what they hold (R15, R16, R484). -/

namespace Sys2Proof.Machine

/-! ## One bit of a number -/

theorem bit_eq_bits (n i : Nat) : bit n i = (bits n i i == 1) := by
  simp [bit, bits]

theorem bit_setBits_self (n i : Nat) (b : Bool) : bit (setBits n i i (b2n b)) i = b := by
  rw [bit_eq_bits, bits_setBits_self]
  cases b <;> simp [b2n]

theorem bit_mod {i m : Nat} (h : i < m) (n : Nat) : bit (n % 2 ^ m) i = bit n i := by
  rw [bit_eq_bits, bit_eq_bits, bits_mod _ _ _ _ le_rfl h]

theorem bit_or_two_pow (n i : Nat) : bit (n ||| 2 ^ i) i = true := by
  have h : (n ||| 2 ^ i).testBit i = true := by simp
  rw [Nat.testBit_eq_decide_div_mod_eq] at h
  simpa [bit] using h

/-! ## Registers that stay as they are -/

section RegsBut

variable {as bs : List Nat} {h g k : Hub}

theorem Hub.RegsBut.trans (H : RegsBut as h g) (G : RegsBut bs g k) (hs : bs ⊆ as) : RegsBut as h k :=
  fun a ha => (G a fun hb => ha (hs hb)).trans (H a ha)

theorem Hub.RegsBut.mono (H : RegsBut bs h g) (hs : bs ⊆ as) : RegsBut as h g :=
  fun a ha => H a fun hb => ha (hs hb)

theorem Hub.RegsBut.get (H : RegsBut as h g) (f : RF) (hf : f.addr ∉ as) : g.get f = h.get f := by
  unfold Hub.get
  rw [H _ hf]

theorem Hub.RegsBut.on (H : RegsBut as h g) (f : RF) (hf : f.addr ∉ as) : g.on f = h.on f := by
  unfold Hub.on
  rw [H.get f hf]

/-- The label rests on the sample period and the alignment in effect (R47). -/
theorem Hub.RegsBut.label (H : RegsBut as h g) (hc : g.clk = h.clk) (ha : TIME_ALIGN_WHOLE.addr ∉ as) :
    g.label = h.label := by
  unfold Hub.label Hub.whole
  rw [H.get TIME_ALIGN_WHOLE ha, hc]

end RegsBut

theorem Hub.regsBut_put (h : Hub) (f : RF) (n : Nat) : RegsBut [f.addr] h (h.put f n) :=
  fun _ ha => rd_put_ne _ _ _ (by simpa using ha)

/-! ## Only registers change -/

theorem Hub.onlyRegs_put (h : Hub) (f : RF) (n : Nat) : OnlyRegs [f.addr] h (h.put f n) := ⟨rfl, h.regsBut_put f n⟩

section OnlyRegs

variable {as bs : List Nat} {h g k : Hub}

theorem Hub.OnlyRegs.trans (H : OnlyRegs as h g) (G : OnlyRegs bs g k) : OnlyRegs (as ++ bs) h k :=
  ⟨G.1.trans (congrArg (fun x : Hub => { x with regs := k.regs }) H.1),
    (H.2.mono (List.subset_append_left as bs)).trans G.2 (List.subset_append_right as bs)⟩

theorem Hub.OnlyRegs.clk (H : OnlyRegs as h g) : g.clk = h.clk := (congrArg Hub.clk H.1 :)

theorem Hub.OnlyRegs.queues (H : OnlyRegs as h g) : g.queues = h.queues := (congrArg Hub.queues H.1 :)

theorem Hub.OnlyRegs.mon (H : OnlyRegs as h g) : g.mon = h.mon := (congrArg Hub.mon H.1 :)

end OnlyRegs

theorem Hub.get_lt (h : Hub) (f : RF) : h.get f < 2 ^ (f.hi - f.lo + 1) := Nat.mod_lt _ (Nat.two_pow_pos _)

/-! ## Queues -/

theorem Hub.queue_setQueue (h : Hub) (p q : Nat) (x : Queue) :
    (h.setQueue p x).queue q = if q = p then x else h.queue q := SMap.get_set _ _ _ _ _

theorem Hub.queue_setQueue_self (h : Hub) (q : Nat) (x : Queue) : (h.setQueue q x).queue q = x := by
  simp [queue_setQueue]

theorem Hub.queue_setQueue_ne (h : Hub) {p q : Nat} (x : Queue) (e : q ≠ p) :
    (h.setQueue p x).queue q = h.queue q := by
  simp [queue_setQueue, e]

/-- Storing a queue writes its count and no other register (R486). -/
theorem Hub.regsBut_setQueue (h : Hub) (q : Nat) (x : Queue) : RegsBut [(Q_COUNT q).addr] h (h.setQueue q x) :=
  fun a ha => regsBut_put { h with queues := SMap.set (fun _ => ({} : Queue)) h.queues q x } (Q_COUNT_COUNT q) _ a ha

@[simp] theorem Hub.setQueue_mon (h : Hub) (q : Nat) (x : Queue) : (h.setQueue q x).mon = h.mon := rfl

/-- An item that finds the queue closed, nothing held and room enters at its end (R485, R487). -/
theorem Hub.qOffer_of_room {h : Hub} {q : Nat} {ws : List QWord} (ho : h.on (Q_STATUS_OPEN q) = false)
    (hh : (h.queue q).held = []) (hr : ws.length + (h.queue q).words.length ≤ 32) :
    h.qOffer q ws = h.setQueue q { h.queue q with words := (h.queue q).words ++ ws } := by
  simp [qOffer, ho, hh, hr]

/-! ## Alarm records (R15, R16) -/

/-- The five words of an alarm in hub `h`: type 1 with their number, the time word, NO_VALID, the code with WHERE,
and the detail (R16). -/
def Hub.alarmWords (h : Hub) (label code wher detail : Nat) : List Nat :=
  [0x10000000, timeWord label % 2 ^ 32, timeWord label / 2 ^ 32,
    b2n (!h.on TIME_STATUS_BX_VALID) * 2 ^ 30 + code * 2 ^ 16 + wher, detail % 2 ^ 32]

/-- An alarm that finds the ALARM queue closed, nothing waiting and room for five words enters at its end. -/
theorem Hub.raise_of_room {h : Hub} (ho : h.on (Q_STATUS_OPEN 6) = false) (hh : (h.queue 6).held = [])
    (hr : (h.queue 6).words.length ≤ 27) (code wher detail : Nat) :
    h.raise code wher detail = h.setQueue 6 { h.queue 6 with
      words := (h.queue 6).words ++
        asItem (.record (code * 2 ^ 16 + wher)) (h.alarmWords h.label code wher detail) } := by
  have e : h.raise code wher detail =
      h.qOffer 6 (asItem (.record (code * 2 ^ 16 + wher)) (h.alarmWords h.label code wher detail)) := by
    unfold raise raiseAt pushRecord
    simp only [hh, List.any_nil, Bool.false_eq_true, if_false]
    rfl
  rw [e, qOffer_of_room ho hh]
  simp only [alarmWords, asItem, List.length_cons, List.length_nil]
  omega

end Sys2Proof.Machine
end

section
/-! Window comparators: what a comparison of one comparator gives and what it leaves (R275, R276, R281). -/

namespace Sys2Proof.Machine

/-! ## The monitor's own state beside the registers -/

theorem Hub.rd_with_mon (h : Hub) (m : Mon) (k : Nat) : Hub.rd { h with mon := m } k = h.rd k := rfl

theorem Hub.get_with_mon (h : Hub) (m : Mon) (f : RF) : Hub.get { h with mon := m } f = h.get f := rfl

/-- Setting a field and the trips changes the registers and the trips alone. -/
theorem Hub.put_with_tripped (h : Hub) (f : RF) (n t : Nat) :
    { h.put f n with mon := { (h.put f n).mon with tripped := t } } =
      { h with regs := (h.put f n).regs, mon := { h.mon with tripped := t } } := rfl

/-! ## Single-ended inputs (R275) -/

theorem chDiff_eq_on (h : Hub) (i : Nat) : chDiff (h.rd (MON_CH_CFG i).addr) = h.on (MON_CH_CFG_DIFF i) := by
  have hl : h.get (MON_CH_CFG_DIFF i) < 2 := h.get_lt (MON_CH_CFG_DIFF i)
  have e : chDiff (h.rd (MON_CH_CFG i).addr) = (h.get (MON_CH_CFG_DIFF i) == 1) := bit_eq_bits _ _
  rw [e, Hub.on]
  obtain h0 | h1 : h.get (MON_CH_CFG_DIFF i) = 0 ∨ h.get (MON_CH_CFG_DIFF i) = 1 := by omega
  · rw [h0]; rfl
  · rw [h1]; rfl

section Window

variable {h : Hub} {w code : Nat}

/-- A code of a single-ended channel stands for itself (R281). -/
theorem Hub.winCode_of_singleEnded (hd : h.on (MON_CH_CFG_DIFF (h.get (MON_WIN_CFG_CH w))) = false)
    (hc : code < 4096) : h.winCode w code = code := by
  unfold Hub.winCode monCode
  rw [chDiff_eq_on, hd, if_neg Bool.false_ne_true, Nat.mod_eq_of_lt hc]

/-- Beyond a window widened by `margin` codes on both sides, for a single-ended channel. -/
theorem Hub.winBeyond_iff_of_singleEnded (hd : h.on (MON_CH_CFG_DIFF (h.get (MON_WIN_CFG_CH w))) = false)
    (hc : code < 4096) (margin : Int) :
    h.winBeyond w code margin = true ↔
      (code : Int) < h.get (MON_WIN_THR_LOW w) - margin ∨ (h.get (MON_WIN_THR_HIGH w) : Int) + margin < code := by
  have hlow : h.get (MON_WIN_THR_LOW w) < 4096 := h.get_lt (MON_WIN_THR_LOW w)
  have hhigh : h.get (MON_WIN_THR_HIGH w) < 4096 := h.get_lt (MON_WIN_THR_HIGH w)
  unfold Hub.winBeyond
  simp only [winCode_of_singleEnded hd hc, winCode_of_singleEnded hd hlow, winCode_of_singleEnded hd hhigh,
    Bool.or_eq_true, decide_eq_true_eq]

/-! ## OUTSIDE and the trip -/

theorem Hub.outside_winSet (hw : w < 16) (out trip : Bool) :
    bit ((h.winSet w out trip).get MON_WIN_STATUS_OUTSIDE) w = out := by
  have e : (h.winSet w out trip).get MON_WIN_STATUS_OUTSIDE =
      setBits (h.get MON_WIN_STATUS_OUTSIDE) w w (b2n out) % 2 ^ 16 := by
    rw [winSet, get_with_mon, Hub.get_put_self _ _ _ (by decide) (by decide)]
    rfl
  rw [e, bit_mod hw, bit_setBits_self]

theorem Hub.seen_winSet (out trip : Bool) :
    (h.winSet w out trip).get MON_WIN_STATUS_SEEN = h.get MON_WIN_STATUS_SEEN := by
  rw [winSet, get_with_mon,
    Hub.get_put_below _ MON_WIN_STATUS_OUTSIDE MON_WIN_STATUS_SEEN _ (by decide) (by decide) (by decide)]

theorem Hub.tripped_winSet (out trip : Bool) : bit (h.winSet w out trip).mon.tripped w = trip :=
  bit_setBits_self _ _ _

theorem Hub.regsBut_winSet (out trip : Bool) : RegsBut [MON_WIN_STATUS.addr] h (h.winSet w out trip) := by
  intro a ha
  rw [winSet, rd_with_mon]
  exact h.regsBut_put MON_WIN_STATUS_OUTSIDE _ a ha

/-- Nothing but MON_WIN_STATUS and the trips of the comparators follows the input. -/
theorem Hub.winSet_frame (out trip : Bool) :
    h.winSet w out trip =
      { h with regs := (h.winSet w out trip).regs, mon := (h.winSet w out trip).mon } := by
  rw [winSet, put_with_tripped]

theorem Hub.mon_winSet (out trip : Bool) :
    (h.winSet w out trip).mon = { h.mon with tripped := (h.winSet w out trip).mon.tripped } := by
  rw [winSet, put_with_tripped]

theorem Hub.clk_winSet (out trip : Bool) : (h.winSet w out trip).clk = h.clk :=
  (congrArg Hub.clk (winSet_frame out trip) :)

theorem Hub.queues_winSet (out trip : Bool) : (h.winSet w out trip).queues = h.queues :=
  (congrArg Hub.queues (winSet_frame out trip) :)

/-! ## A crossing -/

/-- Comparator w after a crossing: its input is outside, it has tripped, and the crossing is seen and counted. -/
def Hub.winCrossed (h : Hub) (w : Nat) : Hub := (h.winSet w true true).winSeen w

theorem Hub.seen_winSeen (hw : w < 16) : bit ((h.winSeen w).get MON_WIN_STATUS_SEEN) w = true := by
  have e : (h.winSeen w).get MON_WIN_STATUS_SEEN = (h.get MON_WIN_STATUS_SEEN ||| 2 ^ w) % 2 ^ 16 := by
    have hne : MON_WIN_STATUS_SEEN.addr ≠ (MON_WIN_COUNT w).addr := by
      simp only [MON_WIN_STATUS_SEEN, MON_WIN_COUNT]; omega
    unfold winSeen Hub.inc
    rw [Hub.get_put_ne _ _ _ _ hne, Hub.get_put_self _ _ _ (by decide) (by decide)]
    rfl
  rw [e, bit_mod hw, bit_or_two_pow]

theorem Hub.outside_winSeen :
    (h.winSeen w).get MON_WIN_STATUS_OUTSIDE = h.get MON_WIN_STATUS_OUTSIDE := by
  have hne : MON_WIN_STATUS_OUTSIDE.addr ≠ (MON_WIN_COUNT w).addr := by
    simp only [MON_WIN_STATUS_OUTSIDE, MON_WIN_COUNT]; omega
  unfold winSeen Hub.inc
  rw [Hub.get_put_ne _ _ _ _ hne,
    Hub.get_put_above _ MON_WIN_STATUS_SEEN MON_WIN_STATUS_OUTSIDE _ (by decide) (by decide) (by decide) (by decide)]

theorem Hub.count_winSeen : (h.winSeen w).get (MON_WIN_COUNT w) = (h.get (MON_WIN_COUNT w) + 1) % 2 ^ 32 := by
  have hne : (MON_WIN_COUNT w).addr ≠ MON_WIN_STATUS_SEEN.addr := by
    simp only [MON_WIN_STATUS_SEEN, MON_WIN_COUNT]; omega
  unfold winSeen Hub.inc
  rw [Hub.get_put_self _ (MON_WIN_COUNT w) _ (Nat.zero_le 31) (Nat.lt_succ_self 31), Hub.get_put_ne _ _ _ _ hne]
  rfl

theorem Hub.onlyRegs_winSeen : OnlyRegs [MON_WIN_STATUS.addr, (MON_WIN_COUNT w).addr] h (h.winSeen w) :=
  (h.onlyRegs_put MON_WIN_STATUS_SEEN _).trans (Hub.onlyRegs_put _ (MON_WIN_COUNT w) _)

theorem Hub.regsBut_winCrossed : RegsBut [MON_WIN_STATUS.addr, (MON_WIN_COUNT w).addr] h (h.winCrossed w) :=
  ((regsBut_winSet _ _).mono (by simp)).trans onlyRegs_winSeen.2 (by simp)

theorem Hub.seen_winCrossed (hw : w < 16) : bit ((h.winCrossed w).get MON_WIN_STATUS_SEEN) w = true :=
  seen_winSeen hw

theorem Hub.outside_winCrossed (hw : w < 16) : bit ((h.winCrossed w).get MON_WIN_STATUS_OUTSIDE) w = true := by
  rw [winCrossed, outside_winSeen, outside_winSet hw]

theorem Hub.tripped_winCrossed : bit (h.winCrossed w).mon.tripped w = true := by
  rw [winCrossed, onlyRegs_winSeen.mon, tripped_winSet]

theorem Hub.count_winCrossed :
    (h.winCrossed w).get (MON_WIN_COUNT w) = (h.get (MON_WIN_COUNT w) + 1) % 2 ^ 32 := by
  have hne : (MON_WIN_COUNT w).addr ∉ [MON_WIN_STATUS.addr] := by
    simp only [MON_WIN_STATUS, MON_WIN_COUNT, List.mem_singleton]; omega
  rw [winCrossed, count_winSeen, (regsBut_winSet _ _).get _ hne]

theorem Hub.clk_winCrossed : (h.winCrossed w).clk = h.clk := by
  rw [winCrossed, onlyRegs_winSeen.clk, clk_winSet]

theorem Hub.queue_winCrossed (q : Nat) : (h.winCrossed w).queue q = h.queue q := by
  rw [Hub.queue, winCrossed, onlyRegs_winSeen.queues, queues_winSet, ← Hub.queue]

/-! ## An input that moves -/

theorem Hub.winInput_of_disabled (he : h.on (MON_WIN_CFG_EN w) = false) : h.winInput w code = h := by
  simp [winInput, he]

/-- Without a crossing only OUTSIDE and the trip follow the input. -/
theorem Hub.winInput_of_not_crossed (he : h.on (MON_WIN_CFG_EN w) = true)
    (hx : (h.winBeyond w code 0 && !bit h.mon.tripped w) = false) :
    h.winInput w code = h.winSet w (h.winBeyond w code 0)
      (h.winBeyond w code 0 || (bit h.mon.tripped w && h.winBeyond w code (-(h.get (MON_WIN_CFG_HYST w) : Int)))) := by
  simp [winInput, winCompare, he, hx]

/-- A crossing that requests no capture is seen and raises alarm 0x08. -/
theorem Hub.winInput_of_crossed (he : h.on (MON_WIN_CFG_EN w) = true) (ho : h.winBeyond w code 0 = true)
    (ht : bit h.mon.tripped w = false)
    (hc : ((h.winCrossed w).raise 0x08 (whereUnit 8 w) ((h.winCrossed w).rd MON_WIN_STATUS.addr)).on
      (MON_WIN_CFG_CAPTURE w) = false) :
    h.winInput w code = (h.winCrossed w).raise 0x08 (whereUnit 8 w) ((h.winCrossed w).rd MON_WIN_STATUS.addr) := by
  unfold winCrossed at hc ⊢
  simp [winInput, winCompare, he, ho, ht, hc]

end Window

/-! ## A crossing with room in the ALARM queue -/

/-- What an alarm reads, the state of its queue and of the numbering of samples, is no register that a crossing
writes. -/
theorem not_mem_crossed (w : Nat) {a : Nat}
    (h : a = (Q_STATUS 6).addr ∨ a = TIME_STATUS.addr ∨ a = TIME_ALIGN.addr) :
    a ∉ [MON_WIN_STATUS.addr, (MON_WIN_COUNT w).addr] := by
  simp only [Q_STATUS, TIME_STATUS, TIME_ALIGN, MON_WIN_STATUS, MON_WIN_COUNT, List.mem_cons, List.not_mem_nil,
    or_false] at h ⊢
  omega

/-- Storing the ALARM queue leaves every field but its count as it is. -/
theorem Hub.get_setQueue_six (h : Hub) (x : Queue) (f : RF) (hf : f.addr ≠ (Q_COUNT 6).addr) :
    (h.setQueue 6 x).get f = h.get f :=
  (h.regsBut_setQueue 6 x).get f (by simpa using hf)

section Alarmed

variable {h : Hub} {w : Nat}

/-- The ALARM queue after a crossing at comparator w: the five words of its alarm behind the words before it. -/
def Hub.crossingQueue (h : Hub) (w : Nat) : Queue :=
  { h.queue 6 with
    words := (h.queue 6).words ++ asItem (.record (0x08 * 2 ^ 16 + whereUnit 8 w))
      (h.alarmWords h.label 0x08 (whereUnit 8 w) ((h.winCrossed w).rd MON_WIN_STATUS.addr)) }

/-- The hub after a crossing at comparator w whose alarm is queued. -/
def Hub.winAlarmed (h : Hub) (w : Nat) : Hub := (h.winCrossed w).setQueue 6 (h.crossingQueue w)

theorem Hub.raise_winCrossed (hq : h.on (Q_STATUS_OPEN 6) = false) (hh : (h.queue 6).held = [])
    (hr : (h.queue 6).words.length ≤ 27) :
    (h.winCrossed w).raise 0x08 (whereUnit 8 w) ((h.winCrossed w).rd MON_WIN_STATUS.addr) = h.winAlarmed w := by
  have hB : RegsBut _ h (h.winCrossed w) := regsBut_winCrossed
  have hl : (h.winCrossed w).label = h.label := hB.label clk_winCrossed (not_mem_crossed w (.inr (.inr rfl)))
  have hv : (h.winCrossed w).on TIME_STATUS_BX_VALID = h.on TIME_STATUS_BX_VALID :=
    hB.on TIME_STATUS_BX_VALID (not_mem_crossed w (.inr (.inl rfl)))
  have hopen : (h.winCrossed w).on (Q_STATUS_OPEN 6) = false :=
    (hB.on (Q_STATUS_OPEN 6) (not_mem_crossed w (.inl rfl))).trans hq
  rw [← queue_winCrossed (h := h) (w := w)] at hh hr
  rw [raise_of_room hopen hh hr, queue_winCrossed, hl, winAlarmed, crossingQueue, alarmWords, alarmWords, hv]

theorem Hub.regsBut_winAlarmed :
    RegsBut [MON_WIN_STATUS.addr, (MON_WIN_COUNT w).addr, (Q_COUNT 6).addr] h (h.winAlarmed w) :=
  (regsBut_winCrossed.mono (by simp)).trans (regsBut_setQueue _ _ _) (by simp)

theorem Hub.seen_winAlarmed (hw : w < 16) : bit ((h.winAlarmed w).get MON_WIN_STATUS_SEEN) w = true := by
  rw [winAlarmed, get_setQueue_six _ _ _ (by decide)]
  exact seen_winCrossed hw

theorem Hub.outside_winAlarmed (hw : w < 16) : bit ((h.winAlarmed w).get MON_WIN_STATUS_OUTSIDE) w = true := by
  rw [winAlarmed, get_setQueue_six _ _ _ (by decide)]
  exact outside_winCrossed hw

theorem Hub.count_winAlarmed :
    (h.winAlarmed w).get (MON_WIN_COUNT w) = (h.get (MON_WIN_COUNT w) + 1) % 2 ^ 32 := by
  have hne : (MON_WIN_COUNT w).addr ≠ (Q_COUNT 6).addr := by
    simp only [MON_WIN_COUNT, Q_COUNT]; omega
  rw [winAlarmed, get_setQueue_six _ _ _ hne]
  exact count_winCrossed

theorem Hub.tripped_winAlarmed : bit (h.winAlarmed w).mon.tripped w = true := by
  rw [winAlarmed, setQueue_mon]
  exact tripped_winCrossed

/-- The words of R16: the detail of the alarm is MON_WIN_STATUS as the crossing leaves it. -/
theorem Hub.data_winAlarmed :
    ((h.winAlarmed w).queue 6).words.map QWord.data = (h.queue 6).words.map QWord.data ++
      [0x10000000, timeWord h.label % 2 ^ 32, timeWord h.label / 2 ^ 32,
        b2n (!h.on TIME_STATUS_BX_VALID) * 2 ^ 30 + 0x08 * 2 ^ 16 + (0x8000 + w),
        (h.winAlarmed w).rd MON_WIN_STATUS.addr] := by
  have hd : (h.winAlarmed w).rd MON_WIN_STATUS.addr = (h.winCrossed w).rd MON_WIN_STATUS.addr :=
    regsBut_setQueue _ _ _ _ (by decide)
  have hm : (h.winCrossed w).rd MON_WIN_STATUS.addr % 2 ^ 32 = (h.winCrossed w).rd MON_WIN_STATUS.addr :=
    Nat.mod_eq_of_lt (rd_lt _ _)
  rw [hd, winAlarmed, queue_setQueue_self]
  simp only [crossingQueue, alarmWords, asItem, whereUnit, List.map_append, List.map_cons, List.map_nil, hm]

theorem Hub.marks_winAlarmed :
    ((h.winAlarmed w).queue 6).words.map QWord.mark =
      (h.queue 6).words.map QWord.mark ++ [false, false, false, false, true] := by
  rw [winAlarmed, queue_setQueue_self]
  simp only [crossingQueue, alarmWords, asItem, List.map_append, List.map_cons, List.map_nil]

theorem Hub.queue_winAlarmed_ne {q : Nat} (hq : q ≠ 6) : (h.winAlarmed w).queue q = h.queue q := by
  rw [winAlarmed, queue_setQueue_ne _ _ hq, queue_winCrossed]

/-- A crossing that requests no capture and finds room in the ALARM queue leaves its alarm there. -/
theorem Hub.winInput_of_crossed_with_room {code : Nat} (hw : w < 16) (he : h.on (MON_WIN_CFG_EN w) = true)
    (ho : h.winBeyond w code 0 = true) (ht : bit h.mon.tripped w = false)
    (hc : h.on (MON_WIN_CFG_CAPTURE w) = false) (hq : h.on (Q_STATUS_OPEN 6) = false)
    (hh : (h.queue 6).held = []) (hr : (h.queue 6).words.length ≤ 27) :
    h.winInput w code = h.winAlarmed w := by
  have hraise := raise_winCrossed (w := w) hq hh hr
  have hfree : (MON_WIN_CFG w).addr ∉ [MON_WIN_STATUS.addr, (MON_WIN_COUNT w).addr, (Q_COUNT 6).addr] := by
    simp only [MON_WIN_CFG, MON_WIN_STATUS, MON_WIN_COUNT, Q_COUNT, List.mem_cons, List.not_mem_nil, or_false]
    omega
  have hcap : (h.winAlarmed w).on (MON_WIN_CFG_CAPTURE w) = false :=
    (regsBut_winAlarmed.on (MON_WIN_CFG_CAPTURE w) hfree).trans hc
  rw [winInput_of_crossed he ho ht (by rw [hraise, hcap]), hraise]

end Alarmed

/-! ## Comparator commands -/

theorem State.actAwake_of_awake {s : State} {f : Hub → Hub} (ha : s.hub.awake = true) :
    s.actAwake f = .next { s with hub := f s.hub } := by
  simp [State.actAwake, State.act, ha]

/-- Both comparator commands move the comparator's input (R275). -/
theorem exec_monWindowCrossing {s : State} (ha : s.hub.awake = true) (x : WindowInput) :
    exec (.monWindowCrossing x) s = .next { s with hub := s.hub.winInput x.window x.code.toNat } :=
  (State.actAwake_of_awake ha : s.actAwake (fun h => h.winInput x.window x.code.toNat) = _)

theorem exec_monWindowRearm {s : State} (ha : s.hub.awake = true) (x : WindowInput) :
    exec (.monWindowRearm x) s = .next { s with hub := s.hub.winInput x.window x.code.toNat } :=
  (State.actAwake_of_awake ha : s.actAwake (fun h => h.winInput x.window x.code.toNat) = _)

theorem gives_monWindowCrossing {s : State} (ha : s.hub.awake = true) {x : WindowInput} {g : Hub}
    (hg : s.hub.winInput x.window x.code.toNat = g) {P : Hub → Prop} (hP : P g) :
    s.Gives (.monWindowCrossing x) P :=
  ⟨g, by rw [exec_monWindowCrossing ha, hg], hP⟩

/-- Settles O54: a comparison is one of three kinds: at a comparator that is off, without a crossing, and a crossing. -/
theorem windowCrossings : Obligations.WindowCrossings := by
  intro s w code ha low high hyst tripped quiet
  have quiet_of_not_crossed {out trip : Bool} (he : s.hub.on (MON_WIN_CFG_EN w) = true)
      (hx : (s.hub.winBeyond w code.toNat 0 && !bit s.hub.mon.tripped w) = false)
      (hout : s.hub.winBeyond w code.toNat 0 = out)
      (htrip : (out || (tripped && s.hub.winBeyond w code.toNat (-(hyst : Int)))) = trip) : quiet out trip := by
    subst hout htrip
    exact gives_monWindowCrossing (x := ⟨w, code⟩) ha (Hub.winInput_of_not_crossed he hx)
      ⟨Hub.outside_winSet w.isLt _ _, Hub.tripped_winSet _ _, Hub.seen_winSet _ _, Hub.mon_winSet _ _,
        Hub.winSet_frame _ _, Hub.regsBut_winSet _ _⟩
  refine ⟨fun hd => ?_, fun he => ?_, fun he => ⟨fun ho ht => ?_, fun ho => ?_⟩, fun he ho ht hc hq hh hr => ?_⟩
  · have hcode : code.toNat < 4096 := code.isLt
    rw [Hub.winBeyond_iff_of_singleEnded hd hcode, Hub.winBeyond_iff_of_singleEnded hd hcode]
    constructor <;> omega
  · rw [exec_monWindowCrossing ha, exec_monWindowRearm ha]
    simp only [Hub.winInput_of_disabled he, and_self]
  · exact quiet_of_not_crossed he (by simpa [ho] using ht) ho (Bool.true_or _)
  · exact quiet_of_not_crossed he (by simp [ho]) ho (Bool.false_or _)
  · exact gives_monWindowCrossing (x := ⟨w, code⟩) ha
      (Hub.winInput_of_crossed_with_room w.isLt he ho ht hc hq hh hr)
      ⟨Hub.seen_winAlarmed w.isLt, Hub.outside_winAlarmed w.isLt, Hub.count_winAlarmed, Hub.tripped_winAlarmed,
        Hub.data_winAlarmed, Hub.marks_winAlarmed, fun _ hne => Hub.queue_winAlarmed_ne hne, Hub.regsBut_winAlarmed⟩

end Sys2Proof.Machine
end

section
/-! Fields, 64-bit values, alarms and folds: what setting one of them leaves unchanged (R5, R16, R484). -/

namespace Sys2Proof.Machine

/-! ## Fields of one register -/

section Fields

variable (h : Hub) {f g : RF}

/-- Setting a field leaves a field that shares no bit with it alone. -/
theorem Hub.get_put_apart (n : Nat) (hf : f.lo ≤ f.hi) (hg : g.lo ≤ g.hi) (hh : g.hi < 32)
    (l : g.hi < f.lo ∨ f.hi < g.lo) : (h.put f n).get g = h.get g :=
  l.elim (h.get_put_below f g n hg hh) (h.get_put_above f g n hf hg hh)

theorem Hub.on_put_apart (n : Nat) (hf : f.lo ≤ f.hi) (hg : g.lo ≤ g.hi) (hh : g.hi < 32)
    (l : g.hi < f.lo ∨ f.hi < g.lo) : (h.put f n).on g = h.on g := by
  rw [Hub.on, h.get_put_apart n hf hg hh l, ← Hub.on]

theorem Hub.on_put_zero (hl : f.lo ≤ f.hi) (hh : f.hi < 32) : (h.put f 0).on f = false := by
  simp [Hub.on, h.get_put_self f 0 hl hh]

theorem Hub.on_put_one (hl : f.lo ≤ f.hi) (hh : f.hi < 32) : (h.put f 1).on f = true := by
  have h1 : 1 % 2 ^ (f.hi - f.lo + 1) = 1 := Nat.mod_eq_of_lt (Nat.one_lt_two_pow (Nat.succ_ne_zero _))
  simp [Hub.on, h.get_put_self f 1 hl hh, h1]

theorem Hub.on_set1 (hl : f.lo ≤ f.hi) (hh : f.hi < 32) : (h.set1 f).on f = true := h.on_put_one hl hh

theorem Hub.regsBut_wr (k v : Nat) : RegsBut [k] h (h.wr k v) :=
  fun _ ha => h.rd_wr_ne v (by simpa using ha)

theorem Hub.regsBut_set1 (f : RF) : RegsBut [f.addr] h (h.set1 f) := h.regsBut_put f 1

theorem Hub.regsBut_inc (f : RF) : RegsBut [f.addr] h (h.inc f) := h.regsBut_put f _

end Fields

/-! ## Values of 64 bits -/

theorem Hub.r64_lt (h : Hub) (f : RF) : h.r64 f < 2 ^ 64 := by
  have hlo := h.rd_lt f.addr
  have hhi := h.rd_lt (f.addr + 4)
  unfold Hub.r64
  omega

theorem Hub.regsBut_w64 (h : Hub) (f : RF) (v : Nat) : RegsBut [f.addr, f.addr + 4] h (h.w64 f v) := by
  intro a ha
  simp only [List.mem_cons, List.not_mem_nil, or_false, not_or] at ha
  obtain ⟨hlo, hhi⟩ := ha
  rw [Hub.w64, Hub.rd_wr_ne _ _ hhi, Hub.rd_wr_ne _ _ hlo]

theorem Hub.onlyRegs_w64 (h : Hub) (f : RF) (v : Nat) : OnlyRegs [f.addr, f.addr + 4] h (h.w64 f v) :=
  ⟨rfl, h.regsBut_w64 f v⟩

theorem Hub.RegsBut.r64 {as : List Nat} {h g : Hub} (H : RegsBut as h g) (f : RF) (hlo : f.addr ∉ as)
    (hhi : f.addr + 4 ∉ as) : g.r64 f = h.r64 f := by
  unfold Hub.r64
  rw [H _ hlo, H _ hhi]

/-! ## Only registers change -/

theorem Hub.OnlyRegs.mono {as bs : List Nat} {h g : Hub} (H : OnlyRegs bs h g) (hs : bs ⊆ as) : OnlyRegs as h g :=
  ⟨H.1, H.2.mono hs⟩

/-- A hub that differs from one with clock state `k` in registers alone. -/
theorem Hub.OnlyRegs.frame_clk {as : List Nat} {h g : Hub} {k : Clk} (H : OnlyRegs as { h with clk := k } g) :
    g = { h with regs := g.regs, clk := g.clk } := by
  rw [H.clk]
  exact H.1

/-! ## Alarms -/

/-- An alarm is stored in its queue or in the latch of its source, or counts there as lost (R15, R488). -/
theorem Hub.raiseAt_cases (h : Hub) (label code wher detail : Nat) :
    (∃ x, h.raiseAt label code wher detail = h.setQueue 6 x) ∨
      h.raiseAt label code wher detail = h.inc (Q_PUSH_FULL 6) := by
  unfold Hub.raiseAt Hub.pushRecord Hub.qOffer
  dsimp only
  split
  · exact .inr rfl
  · split
    · exact .inl ⟨_, rfl⟩
    · split
      · exact .inl ⟨_, rfl⟩
      · exact .inr rfl

theorem Hub.regsBut_raiseAt (h : Hub) (label code wher detail : Nat) :
    RegsBut [(Q_COUNT 6).addr, (Q_PUSH_FULL 6).addr] h (h.raiseAt label code wher detail) := by
  obtain ⟨x, e⟩ | e := h.raiseAt_cases label code wher detail <;> rw [e]
  · exact (h.regsBut_setQueue 6 x).mono (by simp)
  · exact (h.regsBut_inc (Q_PUSH_FULL 6)).mono (by simp [Q_PUSH_FULL])

theorem Hub.clk_raiseAt (h : Hub) (label code wher detail : Nat) :
    (h.raiseAt label code wher detail).clk = h.clk := by
  obtain ⟨x, e⟩ | e := h.raiseAt_cases label code wher detail <;> rw [e] <;> rfl

/-! ## A change made for each index of a list -/

theorem Hub.rd_forAll {f : Hub → Nat → Hub} {a : Nat} (hf : ∀ g i, (f g i).rd a = g.rd a) (l : List Nat)
    (h : Hub) : (h.forAll l f).rd a = h.rd a := by
  induction l generalizing h with
  | nil => rfl
  | cons i t ih => exact (ih (f h i)).trans (hf h i)

/-! ## Commands that act while the hub is awake -/

theorem State.Gives.of_actAwake {s : State} {c : Instr} {f : Hub → Hub} {P : Hub → Prop}
    (e : exec c s = s.actAwake f) (ha : s.hub.awake = true) (hP : P (f s.hub)) : s.Gives c P :=
  ⟨f s.hub, e.trans (State.actAwake_of_awake ha), hP⟩

end Sys2Proof.Machine
end

section
/-! Time words that a master writes in two halves (R43, R448). -/

namespace Sys2Proof.Machine

/-! ## The two halves of a 64-bit value -/

section Halves

variable {h : Hub} {m a v : Nat} {l : Loc}

/-- The +0 half waits in the master's write latch. -/
theorem Hub.writeLoc_low (hw : (regDesc l.name).wide = true) (hl : l.high = false) :
    h.writeLoc m a l v = (h.setMaster m { h.master m with latch := some (a, v) }, false) := by
  simp [Hub.writeLoc, hw, hl]

/-- The +4 half that follows its +0 half writes both. -/
theorem Hub.writeLoc_high {lo : Nat} (hw : (regDesc l.name).wide = true) (hl : l.high = true)
    (hm : (h.master m).latch = some (a, lo)) :
    h.writeLoc m (a + 4) l v =
      ((h.setMaster m { h.master m with latch := none }).writePair m l a (v * 2 ^ 32 + lo), false) := by
  simp [Hub.writeLoc, hw, hl, hm]

/-- Hub h with the write latch of master m empty. -/
def Hub.unlatched (h : Hub) (m : Nat) : Hub := h.setMaster m { h.master m with latch := none }

/-- A +0 half and the +4 half after it are written together, through an empty latch. -/
theorem Hub.writeLoc_pair {n : RegName} (hw : (regDesc n).wide = true) (lo hi : Nat) :
    ((h.writeLoc m a ⟨n, 0, 0, false⟩ lo).1.writeLoc m (a + 4) ⟨n, 0, 0, true⟩ hi).1 =
      (h.unlatched m).writePair m ⟨n, 0, 0, true⟩ a (hi * 2 ^ 32 + lo) := by
  have hlow : (h.writeLoc m a ⟨n, 0, 0, false⟩ lo).1 = h.setMaster m { h.master m with latch := some (a, lo) } :=
    congrArg Prod.fst (writeLoc_low hw rfl)
  have hm : (h.setMaster m { h.master m with latch := some (a, lo) }).master m =
      { h.master m with latch := some (a, lo) } := by
    simp [Hub.master_setMaster]
  rw [hlow, writeLoc_high hw rfl (by rw [hm]), hm, Hub.setMaster_setMaster]
  rfl

end Halves

/-! ## The registers that hold a time word a host writes -/

/-- Register name n is a time word written by a host, and r its place. -/
def IsTimeWord (n : RegName) (r : RF) : Prop :=
  n = .TIME_BX_PRESET ∧ r = TIME_BX_PRESET ∨ n = .TIME_ALIGN_BX ∧ r = TIME_ALIGN_BX

section TimeWords

variable {n : RegName} {r : RF}

theorem IsTimeWord.wide (hn : IsTimeWord n r) : (regDesc n).wide = true := by
  obtain ⟨rfl, -⟩ | ⟨rfl, -⟩ := hn <;> rfl

theorem IsTimeWord.not_timeStatus (hn : IsTimeWord n r) :
    r.addr ∉ [TIME_STATUS.addr] ∧ r.addr + 4 ∉ [TIME_STATUS.addr] := by
  obtain ⟨-, rfl⟩ | ⟨-, rfl⟩ := hn <;> decide

/-- A pair is applied as a whole when it is a BX count with nothing below it, and is refused otherwise (R43). -/
theorem IsTimeWord.writePair (hn : IsTimeWord n r) (h : Hub) (m a v : Nat) :
    h.writePair m ⟨n, 0, 0, true⟩ a v = if v % 65536 = 0 then h.w64 r v else h.set1 TIME_STATUS_WORD_ILLEGAL := by
  obtain ⟨rfl, rfl⟩ | ⟨rfl, rfl⟩ := hn <;> rfl

end TimeWords

/-- Settles O32: the halves arrive as one pair, whose low sixteen bits are those of the low half. -/
theorem timeWordPairs : Obligations.TimeWordPairs := by
  intro h m r n lo hi hn g f
  replace hn : IsTimeWord n r := hn
  obtain ⟨hlo, hhi⟩ := hn.not_timeStatus
  have hg : g = h.setMaster m { h.master m with latch := some (r.addr, lo.toNat) } :=
    congrArg Prod.fst (Hub.writeLoc_low hn.wide rfl)
  have hf : f = (h.unlatched m).writePair m ⟨n, 0, 0, true⟩ r.addr (hi.toNat * 2 ^ 32 + lo.toNat) :=
    Hub.writeLoc_pair hn.wide lo.toNat hi.toNat
  have hlow : (hi.toNat * 2 ^ 32 + lo.toNat) % 65536 = lo.toNat % 65536 := by omega
  rw [hn.writePair, hlow] at hf
  refine ⟨by rw [hg, Hub.setMaster_regs], fun hz => ?_, fun hz => ?_⟩
  · rw [if_pos hz] at hf
    rw [hf, Hub.r64_w64]
    exact ⟨Nat.mod_eq_of_lt (by omega), (h.unlatched m).regsBut_w64 r _⟩
  · have hB : Hub.RegsBut [TIME_STATUS.addr] (h.unlatched m) f := by
      rw [hf, if_neg hz]
      exact Hub.regsBut_set1 _ TIME_STATUS_WORD_ILLEGAL
    refine ⟨hB.r64 r hlo hhi, ?_, hB⟩
    rw [hf, if_neg hz]
    exact Hub.on_set1 _ (by decide) (by decide)

end Sys2Proof.Machine
end

section
/-! The armed alignment in RUN (R49 to R51). -/

namespace Sys2Proof.Machine

section Alignment

variable {h g : Hub}

/-- WHOLE is the part of TIME_ALIGN above its fraction (R63). -/
theorem Hub.whole_congr (e : g.rd TIME_ALIGN.addr / 4096 = h.rd TIME_ALIGN.addr / 4096) : g.whole = h.whole :=
  (congrArg (· % 2 ^ 8) e :)

/-- In RUN an armed change of WHOLE is refused at its BX (R50). -/
theorem Hub.alignApply_of_refused (hr : h.inRun = true) (ha : h.on TIME_STATUS_ALIGN_ARMED = true)
    (hb : h.nextFrame = h.clk.armedBx)
    (hw : h.rd TIME_ALIGN_NEXT.addr / 4096 ≠ h.rd TIME_ALIGN.addr / 4096) :
    h.alignApply = ((h.put TIME_STATUS_ALIGN_ARMED 0).set1 TIME_STATUS_ALIGN_WHOLE_RUN, false) := by
  have hr' : (h.put TIME_STATUS_ALIGN_ARMED 0).inRun = true := hr
  simp only [Hub.alignApply, ha, hb, hr', hw, ne_eq, not_false_eq_true, and_self, if_true]

theorem Hub.rd_markPhase (h : Hub) (k : Nat) : h.markPhase.rd k = h.rd k := rfl

/-- A change that leaves WHOLE is applied at its BX (R49, R50). -/
theorem Hub.rd_alignApply_of_applied (ha : h.on TIME_STATUS_ALIGN_ARMED = true) (hb : h.nextFrame = h.clk.armedBx)
    (hw : h.rd TIME_ALIGN_NEXT.addr / 4096 = h.rd TIME_ALIGN.addr / 4096) :
    h.alignApply.1.rd TIME_ALIGN.addr = h.rd TIME_ALIGN_NEXT.addr := by
  have e : (((h.put TIME_STATUS_ALIGN_ARMED 0).wr TIME_ALIGN.addr (h.rd TIME_ALIGN_NEXT.addr)).set1
      TIME_STATUS_ALIGN_DONE).rd TIME_ALIGN.addr = h.rd TIME_ALIGN_NEXT.addr := by
    rw [Hub.regsBut_set1 _ TIME_STATUS_ALIGN_DONE _ (by decide), Hub.rd_wr_self, Nat.mod_eq_of_lt (h.rd_lt _)]
  simp only [Hub.alignApply, ha, hb, hw, ne_eq, not_true_eq_false, and_self, and_false, if_true, if_false]
  split
  · exact e
  · rw [Hub.rd_markPhase, e]

/-- A refused change writes TIME_STATUS alone. -/
theorem Hub.onlyRegs_alignRefused (h : Hub) :
    OnlyRegs [TIME_STATUS.addr] h ((h.put TIME_STATUS_ALIGN_ARMED 0).set1 TIME_STATUS_ALIGN_WHOLE_RUN) :=
  ((h.onlyRegs_put TIME_STATUS_ALIGN_ARMED 0).trans
    (Hub.onlyRegs_put _ TIME_STATUS_ALIGN_WHOLE_RUN 1)).mono (by decide)

/-- In RUN the alignment in effect keeps its WHOLE: an alignment that waits and a refused change leave TIME_ALIGN, and
a change that is applied has the same WHOLE. -/
theorem Hub.rd_alignApply_whole (hr : h.inRun = true) :
    h.alignApply.1.rd TIME_ALIGN.addr / 4096 = h.rd TIME_ALIGN.addr / 4096 := by
  by_cases hdue : h.on TIME_STATUS_ALIGN_ARMED = true ∧ h.nextFrame = h.clk.armedBx
  · obtain ⟨ha, hb⟩ := hdue
    by_cases hw : h.rd TIME_ALIGN_NEXT.addr / 4096 = h.rd TIME_ALIGN.addr / 4096
    · rw [rd_alignApply_of_applied ha hb hw, hw]
    · rw [alignApply_of_refused hr ha hb hw, (onlyRegs_alignRefused h).2 _ (by decide)]
  · rw [Hub.alignApply, if_neg hdue]

end Alignment

/-! ## What follows the alignment (R170, R176, R375) -/

section Followers

variable (h : Hub)

theorem Hub.regsBut_refreshLatency : RegsBut [TRG_COND_LAT.addr, TRG_STATUS.addr] h h.refreshLatency :=
  ((h.regsBut_wr TRG_COND_LAT.addr _).mono (by decide)).trans (Hub.regsBut_put _ TRG_STATUS_LAT_SHORT _) (by decide)

theorem Hub.regsBut_recomputeOffset (s : Nat) :
    RegsBut [(LEAF_TS_OFF s).addr, (LEAF_STATUS s).addr] h (h.recomputeOffset s) := by
  unfold Hub.recomputeOffset
  split
  · exact ((h.regsBut_put (LEAF_TS_OFF_NEW s) _).mono (by simp [LEAF_TS_OFF, LEAF_TS_OFF_NEW])).trans
      (Hub.regsBut_put _ (LEAF_STATUS_OFF_DRIFT s) _) (by simp [LEAF_STATUS, LEAF_STATUS_OFF_DRIFT])
  · exact fun _ _ => rfl

/-- What depends on the alignment lies in the registers of the trigger and of the leaves. -/
theorem Hub.rd_timeAlign_alignTake : h.alignTake.rd TIME_ALIGN.addr = h.alignApply.1.rd TIME_ALIGN.addr := by
  unfold Hub.alignTake
  dsimp only
  split
  · have hleaf (g : Hub) (s : Nat) : (g.recomputeOffset s).rd TIME_ALIGN.addr = g.rd TIME_ALIGN.addr :=
      g.regsBut_recomputeOffset s _ (by simp [TIME_ALIGN, LEAF_TS_OFF, LEAF_STATUS]; omega)
    rw [Hub.rd_forAll hleaf, Hub.regsBut_refreshLatency _ _ (by decide)]
  · rfl

end Followers

theorem Hub.alignTake_of_refused {h : Hub} (hr : h.inRun = true) (ha : h.on TIME_STATUS_ALIGN_ARMED = true)
    (hb : h.nextFrame = h.clk.armedBx)
    (hw : h.rd TIME_ALIGN_NEXT.addr / 4096 ≠ h.rd TIME_ALIGN.addr / 4096) :
    h.alignTake = (h.put TIME_STATUS_ALIGN_ARMED 0).set1 TIME_STATUS_ALIGN_WHOLE_RUN := by
  unfold Hub.alignTake
  rw [alignApply_of_refused hr ha hb hw]
  rfl

theorem gives_alignApply {s : State} (ha : s.hub.awake = true) {P : Hub → Prop} (hP : P s.hub.alignTake) :
    s.Gives .alignApply P :=
  .of_actAwake rfl ha hP

/-- Settles O35: a change of WHOLE is refused, and every other outcome keeps WHOLE. -/
theorem alignmentInRun : Obligations.AlignmentInRun := by
  refine fun s ha hr => ⟨fun harmed hb hw => gives_alignApply ha ?_, gives_alignApply ha (Hub.whole_congr ?_)⟩
  · rw [Hub.alignTake_of_refused hr harmed hb hw]
    have hO := s.hub.onlyRegs_alignRefused
    exact ⟨Hub.on_set1 _ (by decide) (by decide), hO.2 _ (by decide), hO⟩
  · rw [s.hub.rd_timeAlign_alignTake, Hub.rd_alignApply_whole hr]

end Sys2Proof.Machine
end

section
/-! Conditions of the reference oscillator (R33 to R36). -/

namespace Sys2Proof.Machine

section Reference

variable (h : Hub)

/-- REF_COLD follows the conditions of R33. -/
theorem Hub.refCold_refreshRef : h.refreshRef.on CLK_STATUS_REF_COLD = h.refBad := by
  unfold Hub.refreshRef
  cases hb : h.refBad
  · rw [if_neg Bool.false_ne_true]
    exact h.on_put_zero (by decide) (by decide)
  · rw [if_pos rfl, Hub.on_put_apart _ _ (by decide) (by decide) (by decide) (by decide)]
    exact Hub.on_put_one _ (by decide) (by decide)

/-- A cold reference leaves no qualified holdover (R36). -/
theorem Hub.holdUnqual_refreshRef (hb : h.refBad = true) : h.refreshRef.on CLK_STATUS_HOLD_UNQUAL = true := by
  rw [Hub.refreshRef, if_pos hb]
  exact Hub.on_put_one _ (by decide) (by decide)

/-- CLK_STATUS follows, and in the clock state the qualification of holdover. -/
theorem Hub.onlyRegs_refreshRef : ∃ k : Clk, OnlyRegs [CLK_STATUS.addr] { h with clk := k } h.refreshRef := by
  unfold Hub.refreshRef
  split
  · exact ⟨_, ((Hub.onlyRegs_put _ CLK_STATUS_REF_COLD 1).trans
      (Hub.onlyRegs_put _ CLK_STATUS_HOLD_UNQUAL 1)).mono (by decide)⟩
  · exact ⟨h.clk, h.onlyRegs_put CLK_STATUS_REF_COLD 0⟩

/-- Outside 100 ppm of the nominal frequency, with no sign to the difference (R33). -/
theorem Hub.freqBad_of_measured {hz : Nat} (hm : h.clk.ocxoHz = some hz) :
    h.freqBad = decide (h.clk.refKhz * 1000 <
      (max (h.clk.refKhz * 1000) hz - min (h.clk.refKhz * 1000) hz) * 10000) := by
  unfold Hub.freqBad
  rw [hm]
  simp only [decide_eq_decide]
  omega

end Reference

/-! ## Commands of the oscillator -/

theorem exec_ocxoWarmChange {s : State} (ha : s.hub.awake = true) (warm : Bool) :
    exec (.ocxoWarmChange warm) s =
      .next { s with hub := Hub.refreshRef { s.hub with clk := { s.hub.clk with ocxoWarm := warm } } } := by
  have e : s.hub.ocxoLevel warm = s.hub.ocxoWarmChange warm := if_pos ha
  exact (congrArg (fun g => Host.Outcome.next { s with hub := g }) e :)

theorem exec_refFreqCheck {s : State} (ha : s.hub.awake = true) (hz : Word) :
    exec (.refFreqCheck hz) s =
      .next { s with hub := Hub.refreshRef { s.hub with clk := { s.hub.clk with ocxoHz := some hz.toNat } } } :=
  (State.actAwake_of_awake ha : s.actAwake (fun h => h.refFreqCheck hz.toNat) = _)

/-- A command that comes to new clock state `k` and the conditions of R33 in it sets CLK_STATUS by them, and leaves
the rest of the hub. -/
theorem gives_refreshRef {s : State} {c : Instr} {k : Clk}
    (e : exec c s = .next { s with hub := Hub.refreshRef { s.hub with clk := k } }) {cold : Bool}
    (hc : Hub.refBad { s.hub with clk := k } = cold) :
    s.Gives c fun g =>
      g.on CLK_STATUS_REF_COLD = cold ∧
      (g.on CLK_STATUS_REF_COLD = true → g.on CLK_STATUS_HOLD_UNQUAL = true) ∧
      g = { s.hub with regs := g.regs, clk := g.clk } ∧ Hub.RegsBut [CLK_STATUS.addr] s.hub g := by
  have hcold := (Hub.refCold_refreshRef { s.hub with clk := k }).trans hc
  obtain ⟨_, hO⟩ := Hub.onlyRegs_refreshRef { s.hub with clk := k }
  refine ⟨_, e, hcold, fun hon => Hub.holdUnqual_refreshRef _ ?_, Hub.OnlyRegs.frame_clk hO, hO.2⟩
  rw [hc, ← hcold, hon]

/-- Settles O38: both commands change what a condition of R33 rests on, and REF_COLD follows the conditions. -/
theorem referenceColdFollowsItsConditions : Obligations.ReferenceColdFollowsItsConditions := by
  intro s warm hz ha nominal off cold
  refine ⟨gives_refreshRef (exec_ocxoWarmChange ha warm) rfl, gives_refreshRef (exec_refFreqCheck ha hz) ?_⟩
  have hf := Hub.freqBad_of_measured (hz := hz.toNat)
    { s.hub with clk := { s.hub.clk with ocxoHz := some hz.toNat } } rfl
  rw [Hub.refBad, hf]
  rfl

end Sys2Proof.Machine
end

section
/-! What BX_SET does to the frame count and its registers (R40 to R42). -/

namespace Sys2Proof.Machine

/-- The frame count that BX_SET loads (R40). -/
def Hub.presetBx (h : Hub) : Nat := h.r64 TIME_BX_PRESET / 2 ^ 16

theorem Hub.presetBx_lt (h : Hub) : h.presetBx < 2 ^ 48 := by
  have hlt := h.r64_lt TIME_BX_PRESET
  unfold Hub.presetBx
  omega

/-- The clock with the count of BX_SET loaded so that the sample period that comes next has it (R40). -/
def Hub.bxClk (h : Hub) : Clk :=
  { h.clk with
    frame := if h.clk.slot = 1 then (h.presetBx + 2 ^ 48 - 1) % 2 ^ 48 else h.presetBx
    slipMark := h.clk.freeRun }

/-- The hub with the command counted at gazebo time `gzb`, before numbering is validated (R40). -/
def Hub.bxCounted (h : Hub) (gzb : Nat) : Hub :=
  (Hub.inc { h with clk := h.bxClk } TIME_BXSET_COUNT).w64 TIME_GZB_AT_SET (gzb % 2 ^ 48)

/-- The hub with the count of BX_SET loaded and numbering valid (R40, R41). -/
def Hub.bxLoaded (h : Hub) (gzb : Nat) : Hub := (h.bxCounted gzb).put TIME_STATUS_BX_VALID 1

/-- The hub once a loaded count has replaced the valid count `old`: the jump is noted and raised (R42). -/
def Hub.bxJumped (h : Hub) (old : Nat) : Hub :=
  (h.set1 TIME_STATUS_BX_JUMP).raiseAt ((h.label + 1) % labelSpan) 0x16 0 (old % 2 ^ 32)

section Loaded

variable (h : Hub) (gzb : Nat)

/-- The count is loaded; where it changes and the old one was valid it is a jump. -/
theorem Hub.bxSetCount_eq :
    h.bxSetCount gzb =
      if h.presetBx = h.nextFrame then (h.bxLoaded gzb, false)
      else if h.on TIME_STATUS_BX_VALID then ((h.bxLoaded gzb).bxJumped h.nextFrame, true)
      else (h.bxLoaded gzb, true) := by
  unfold Hub.bxSetCount
  rfl

theorem Hub.onlyRegs_bxCounted :
    OnlyRegs [TIME_BXSET_COUNT.addr, TIME_GZB_AT_SET.addr, TIME_GZB_AT_SET.addr + 4] { h with clk := h.bxClk }
      (h.bxCounted gzb) :=
  ((Hub.onlyRegs_put _ TIME_BXSET_COUNT _).trans (Hub.onlyRegs_w64 _ TIME_GZB_AT_SET _)).mono (by decide)

theorem Hub.onlyRegs_bxLoaded :
    OnlyRegs [TIME_STATUS.addr, TIME_BXSET_COUNT.addr, TIME_GZB_AT_SET.addr, TIME_GZB_AT_SET.addr + 4]
      { h with clk := h.bxClk } (h.bxLoaded gzb) :=
  ((h.onlyRegs_bxCounted gzb).trans (Hub.onlyRegs_put _ TIME_STATUS_BX_VALID 1)).mono (by decide)

theorem Hub.regsBut_bxLoaded :
    RegsBut [TIME_STATUS.addr, TIME_BXSET_COUNT.addr, TIME_GZB_AT_SET.addr, TIME_GZB_AT_SET.addr + 4] h
      (h.bxLoaded gzb) :=
  (h.onlyRegs_bxLoaded gzb).2

theorem Hub.clk_bxLoaded : (h.bxLoaded gzb).clk = h.bxClk := (h.onlyRegs_bxLoaded gzb).clk

theorem Hub.nextFrame_bxLoaded : (h.bxLoaded gzb).nextFrame = h.presetBx := by
  have hlt := h.presetBx_lt
  unfold Hub.nextFrame
  rw [clk_bxLoaded]
  unfold Hub.bxClk
  dsimp only
  split <;> omega

theorem Hub.count_bxLoaded : (h.bxLoaded gzb).get TIME_BXSET_COUNT = (h.get TIME_BXSET_COUNT + 1) % 2 ^ 32 := by
  rw [Hub.bxLoaded, Hub.get_put_ne _ _ _ _ (by decide), Hub.bxCounted,
    (Hub.regsBut_w64 _ TIME_GZB_AT_SET _).get _ (by decide)]
  exact Hub.get_put_self _ TIME_BXSET_COUNT _ (by decide) (by decide)

theorem Hub.gzbAtSet_bxLoaded : (h.bxLoaded gzb).r64 TIME_GZB_AT_SET = gzb % 2 ^ 48 := by
  rw [Hub.bxLoaded, (Hub.regsBut_put _ TIME_STATUS_BX_VALID 1).r64 _ (by decide) (by decide), Hub.bxCounted,
    Hub.r64_w64]
  omega

theorem Hub.valid_bxLoaded : (h.bxLoaded gzb).on TIME_STATUS_BX_VALID = true :=
  Hub.on_put_one _ (by decide) (by decide)

theorem Hub.jump_bxLoaded : (h.bxLoaded gzb).on TIME_STATUS_BX_JUMP = h.on TIME_STATUS_BX_JUMP := by
  rw [Hub.bxLoaded, Hub.on_put_apart _ 1 (by decide) (by decide) (by decide) (by decide),
    (h.onlyRegs_bxCounted gzb).2.on _ (by decide)]
  rfl

end Loaded

section Jumped

variable (h : Hub) (old : Nat)

theorem Hub.clk_bxJumped : (h.bxJumped old).clk = h.clk := by
  rw [Hub.bxJumped, Hub.clk_raiseAt, Hub.set1_clk]

/-- Raising the jump leaves the flags as it finds them. -/
theorem Hub.on_bxJumped (f : RF) (hf : f.addr ∉ [(Q_COUNT 6).addr, (Q_PUSH_FULL 6).addr]) :
    (h.bxJumped old).on f = (h.set1 TIME_STATUS_BX_JUMP).on f :=
  (Hub.regsBut_raiseAt _ _ _ _ _).on f hf

theorem Hub.regsBut_bxJumped :
    RegsBut [TIME_STATUS.addr, (Q_COUNT 6).addr, (Q_PUSH_FULL 6).addr] h (h.bxJumped old) :=
  ((h.regsBut_set1 TIME_STATUS_BX_JUMP).mono (by decide)).trans (Hub.regsBut_raiseAt _ _ _ _ _) (by decide)

theorem Hub.jump_bxJumped : (h.bxJumped old).on TIME_STATUS_BX_JUMP = true := by
  rw [h.on_bxJumped old _ (by decide)]
  exact h.on_set1 (by decide) (by decide)

theorem Hub.valid_bxJumped : (h.bxJumped old).on TIME_STATUS_BX_VALID = h.on TIME_STATUS_BX_VALID := by
  rw [h.on_bxJumped old _ (by decide)]
  exact h.on_put_apart 1 (by decide) (by decide) (by decide) (by decide)

end Jumped

/-! ## BX_SET: the loaded hub, or the loaded hub after a jump -/

section BxSet

variable (h : Hub) (gzb : Nat)

/-- The outcomes of BX_SET by its two results. -/
theorem Hub.bxSetCount_cases :
    (h.presetBx = h.nextFrame ∧ h.bxSetCount gzb = (h.bxLoaded gzb, false)) ∨
    (h.presetBx ≠ h.nextFrame ∧ h.on TIME_STATUS_BX_VALID = false ∧
      h.bxSetCount gzb = (h.bxLoaded gzb, true)) ∨
    (h.presetBx ≠ h.nextFrame ∧ h.on TIME_STATUS_BX_VALID = true ∧
      h.bxSetCount gzb = ((h.bxLoaded gzb).bxJumped h.nextFrame, true)) := by
  rw [bxSetCount_eq]
  by_cases hn : h.presetBx = h.nextFrame
  · exact .inl ⟨hn, if_pos hn⟩
  · rw [if_neg hn]
    cases hv : h.on TIME_STATUS_BX_VALID
    · exact .inr (.inl ⟨hn, rfl, rfl⟩)
    · exact .inr (.inr ⟨hn, rfl, rfl⟩)

/-- Whatever the outcome, the clock is that of the loaded hub, numbering is valid, and the registers are those of the
loaded hub but for TIME_STATUS and the queue of alarms. -/
theorem Hub.bxSetCount_loaded :
    (h.bxSetCount gzb).1.clk = (h.bxLoaded gzb).clk ∧ (h.bxSetCount gzb).1.on TIME_STATUS_BX_VALID = true ∧
      RegsBut [TIME_STATUS.addr, (Q_COUNT 6).addr, (Q_PUSH_FULL 6).addr] (h.bxLoaded gzb) (h.bxSetCount gzb).1 := by
  obtain ⟨-, e⟩ | ⟨-, -, e⟩ | ⟨-, -, e⟩ := h.bxSetCount_cases gzb <;> rw [e]
  · exact ⟨rfl, h.valid_bxLoaded gzb, fun _ _ => rfl⟩
  · exact ⟨rfl, h.valid_bxLoaded gzb, fun _ _ => rfl⟩
  · exact ⟨Hub.clk_bxJumped _ _, (Hub.valid_bxJumped _ _).trans (h.valid_bxLoaded gzb), Hub.regsBut_bxJumped _ _⟩

theorem Hub.bxSetCount_changed : (h.bxSetCount gzb).2 = true ↔ h.presetBx ≠ h.nextFrame := by
  obtain ⟨hn, e⟩ | ⟨hn, -, e⟩ | ⟨hn, -, e⟩ := h.bxSetCount_cases gzb <;> simp [e, hn]

/-- A change of a valid count sets BX_JUMP, and nothing clears it (R42). -/
theorem Hub.jump_bxSetCount :
    (h.bxSetCount gzb).1.on TIME_STATUS_BX_JUMP =
      (h.on TIME_STATUS_BX_JUMP || (h.on TIME_STATUS_BX_VALID && decide (h.presetBx ≠ h.nextFrame))) := by
  obtain ⟨hn, e⟩ | ⟨-, hv, e⟩ | ⟨hn, hv, e⟩ := h.bxSetCount_cases gzb <;> rw [e]
  · simp [hn, h.jump_bxLoaded gzb]
  · simp [hv, h.jump_bxLoaded gzb]
  · simp [hn, hv, Hub.jump_bxJumped]

theorem Hub.bxSetCount_of_unchanged (hr : (h.bxSetCount gzb).2 = false) : (h.bxSetCount gzb).1 = h.bxLoaded gzb := by
  obtain ⟨-, e⟩ | ⟨-, -, e⟩ | ⟨-, -, e⟩ := h.bxSetCount_cases gzb
  · rw [e]
  · simp [e] at hr
  · simp [e] at hr

end BxSet

/-- Settles O36: every outcome has the clock of the loaded hub, and its registers but TIME_STATUS and those of the
queue of alarms. -/
theorem bxSetLoadsTheCount : Obligations.BxSetLoadsTheCount := by
  intro h gzb _ r
  obtain ⟨hclk, hvalid, hregs⟩ := h.bxSetCount_loaded gzb
  have hnext : r.1.nextFrame = (h.bxLoaded gzb).nextFrame := by unfold Hub.nextFrame; rw [hclk]
  refine ⟨hnext.trans (h.nextFrame_bxLoaded gzb), (congrArg Clk.slot hclk :), ?_, hvalid, ?_, ?_,
    h.bxSetCount_changed gzb, h.jump_bxSetCount gzb, fun hr => ?_⟩
  · rw [hregs.r64 _ (by decide) (by decide), (h.regsBut_bxLoaded gzb).r64 _ (by decide) (by decide)]
  · rw [hregs.get _ (by decide), h.count_bxLoaded gzb]
  · rw [hregs.r64 _ (by decide) (by decide), h.gzbAtSet_bxLoaded gzb]
  · have e : r.1 = h.bxLoaded gzb := h.bxSetCount_of_unchanged gzb hr
    rw [e]
    exact ⟨(h.onlyRegs_bxLoaded gzb).frame_clk, h.regsBut_bxLoaded gzb⟩

end Sys2Proof.Machine
end

section
/-! The sample word and its fields (R74). -/

namespace Sys2Proof.Machine

theorem b2n_lt_two (b : Bool) : b2n b < 2 := by
  cases b <;> decide

section SampleWord

variable (g q : Bool) (code : Nat)

theorem bits_sampleWord_gain : bits (sampleWord g q code) 15 15 = b2n g := by
  have hg := b2n_lt_two g
  have hq := b2n_lt_two q
  unfold bits sampleWord
  omega

theorem bits_sampleWord_quality : bits (sampleWord g q code) 14 14 = b2n q := by
  have hq := b2n_lt_two q
  unfold bits sampleWord
  omega

theorem bits_sampleWord_code {code : Nat} (hc : code < 2 ^ 14) : bits (sampleWord g q code) 13 0 = code := by
  unfold bits sampleWord
  omega

theorem sampleWord_lt : sampleWord g q code < 2 ^ 16 := by
  have hg := b2n_lt_two g
  have hq := b2n_lt_two q
  unfold sampleWord
  omega

end SampleWord

theorem CellWord.code_of_highGain {w : CellWord} (hg : w.g = false) : w.code = w.h := by
  simp [CellWord.code, hg]

theorem CellWord.code_of_lowGain {w : CellWord} (hg : w.g = true) : w.code = w.l := by
  simp [CellWord.code, hg]

/-- Settles O28: the three fields make up the word, and G selects the converter. -/
theorem sampleWordLayout : Obligations.SampleWordLayout :=
  ⟨fun g q code hc => ⟨bits_sampleWord_gain g q code, bits_sampleWord_quality g q code, bits_sampleWord_code g q hc,
    sampleWord_lt g q code⟩, fun _ => ⟨CellWord.code_of_highGain, CellWord.code_of_lowGain⟩⟩

end Sys2Proof.Machine
end

section
/-! Redundancy errors of a cell (R83, R84, R103). -/

namespace Sys2Proof.Machine

/-! ## The sample that carries the mark (R83) -/

/-- A cause that a conversion carries shows in Q of its sample, whether or not the cell is enabled (R75, R77). -/
theorem CellWord.q_of_cause {x : Cell} {k i : Nat} {v : Conv} {w : CellWord} (hv : x.conv[k]? = some v)
    (hc : bit v.causes i = true) (hw : cellWordAt x k = some w) : w.q = true := by
  have hne : v.causes ≠ 0 := by
    intro h0
    simp [h0, bit] at hc
  simp only [cellWordAt, hv] at hw
  split at hw <;> cases hw
  · simp [CellWord.q, hne]
  · simp [CellWord.q, hne]

/-- The cell after a redundancy error: its newest conversion is marked, and its window counts one error more. -/
def Cell.redundMarked (x : Cell) : Cell :=
  { x with
    conv := match x.conv with
      | a :: t => { a with causes := a.causes ||| 2 ^ qRedund } :: t
      | [] => []
    redundWin := x.redundWin + 1 }

theorem Cell.conv_redundMarked {x : Cell} {a : Conv} {t : List Conv} (e : x.conv = a :: t) :
    x.redundMarked.conv = { a with causes := a.causes ||| 2 ^ qRedund } :: t := by
  simp only [Cell.redundMarked, e]

/-! ## The comparison that is taken back (R103) -/

theorem Dwell.compared_skipLast {d : Dwell} {last : Bool × Int} (e : d.last = some last) :
    d.skipLast.compared = d.compared - 1 := by
  simp only [Dwell.skipLast, e]

section SkipCompare

variable (h : Hub) (j c : Nat)

theorem Hub.blk_skipCompare_ne {i : Nat} (hi : i ≠ j) : (h.skipCompare j c).blk i = h.blk i := by
  simp only [Hub.skipCompare, Hub.blk_setBlk, if_neg hi]

theorem Hub.blk_skipCompare_self : (h.skipCompare j c).blk j =
    { h.blk j with dwell := (h.blk j).dwell.map fun d => if c = 16 ∨ c = d.cell then d.skipLast else d } := by
  simp only [Hub.skipCompare, Hub.blk_setBlk, if_true]

theorem Hub.blk_skipCompare_frame :
    (h.skipCompare j c).blk j = { h.blk j with dwell := ((h.skipCompare j c).blk j).dwell } := by
  rw [Hub.blk_skipCompare_self]

variable {h j c}

/-- A dwell that the cell takes no part in keeps its comparisons. -/
theorem Hub.blk_skipCompare_of_apart (hd : ∀ d, (h.blk j).dwell = some d → c ≠ 16 ∧ c ≠ d.cell) :
    (h.skipCompare j c).blk j = h.blk j := by
  rw [Hub.blk_skipCompare_self]
  cases hb : (h.blk j).dwell with
  | none => rw [Option.map_none, ← hb]
  | some d =>
    obtain ⟨hspare, hcell⟩ := hd d hb
    rw [Option.map_some, if_neg (not_or.mpr ⟨hspare, hcell⟩), ← hb]

theorem Hub.dwell_skipCompare {d : Dwell} (hd : (h.blk j).dwell = some d) (hc : c = 16 ∨ c = d.cell) :
    ((h.skipCompare j c).blk j).dwell = some d.skipLast := by
  simp [Hub.blk_skipCompare_self, hd, hc]

end SkipCompare

/-! ## An error that leaves the window below its limit (R84) -/

/-- The error counts, marks the cell, and takes back the comparison that its sample took part in. -/
def Hub.redundCounted (h : Hub) (j c : Nat) : Hub :=
  ((h.skipCompare j c).setCell (cellId j c) (h.cell (cellId j c)).redundMarked).inc (CELL_REDUND_COUNT j c)

/-- Where the window does not come to its limit, that is all the error does. -/
theorem Hub.redundError_of_below_limit {h : Hub} {j c : Nat}
    (hl : h.get (CELL_HLTH_CFG_REDUND_LIMIT j c) = 0 ∨
      (h.cell (cellId j c)).redundWin + 1 ≠ h.get (CELL_HLTH_CFG_REDUND_LIMIT j c)) :
    h.redundError j c = h.redundCounted j c := by
  have hlimit : (h.redundCounted j c).get (CELL_HLTH_CFG_REDUND_LIMIT j c) =
      h.get (CELL_HLTH_CFG_REDUND_LIMIT j c) :=
    Hub.get_put_ne _ _ _ _ (by simp [CELL_HLTH_CFG_REDUND_LIMIT, CELL_REDUND_COUNT])
  refine if_neg ?_
  rintro ⟨hne, hn⟩
  have hn' : (h.cell (cellId j c)).redundWin + 1 = (h.redundCounted j c).get (CELL_HLTH_CFG_REDUND_LIMIT j c) := hn
  exact hl.elim (hlimit ▸ hne) fun hb => hb (hn'.trans hlimit)

section RedundCounted

variable (h : Hub) (j c : Nat)

theorem Hub.count_redundCounted :
    (h.redundCounted j c).get (CELL_REDUND_COUNT j c) = (h.get (CELL_REDUND_COUNT j c) + 1) % 2 ^ 32 :=
  Hub.get_put_self _ (CELL_REDUND_COUNT j c) _ (Nat.zero_le 31) (by decide : 31 < 32)

theorem Hub.regsBut_redundCounted : RegsBut [(CELL_REDUND_COUNT j c).addr] h (h.redundCounted j c) :=
  Hub.regsBut_inc _ (CELL_REDUND_COUNT j c)

theorem Hub.cell_redundCounted (k : Nat) :
    (h.redundCounted j c).cell k = if k = cellId j c then (h.cell (cellId j c)).redundMarked else h.cell k :=
  Hub.cell_setCell _ _ _ _

/-- The blocks are those left by the comparison taken back. -/
theorem Hub.blk_redundCounted (i : Nat) : (h.redundCounted j c).blk i = (h.skipCompare j c).blk i := rfl

end RedundCounted

/-- Settles O42: below the limit the error is `Hub.redundCounted`, and outside READY and RUN it is none. -/
theorem redundancyErrors : Obligations.RedundancyErrors := by
  intro s j c ha
  refine ⟨fun hs hl => .of_actAwake rfl ha ?_, fun hs => ?_, fun x k v w hv hc hw => CellWord.q_of_cause hv hc hw⟩
  · rw [if_pos hs, Hub.redundError_of_below_limit hl]
    refine ⟨s.hub.count_redundCounted j c, fun x t e => ?_, fun k hk => ?_,
      fun i hi => s.hub.blk_skipCompare_ne j c hi, s.hub.blk_skipCompare_frame j c, Hub.blk_skipCompare_of_apart,
      fun d o diff hd hc hlast => ?_, rfl, s.hub.regsBut_redundCounted j c⟩
    · rw [Hub.cell_redundCounted, if_pos rfl, Cell.conv_redundMarked e]
    · rw [Hub.cell_redundCounted, if_neg hk]
    · rw [Hub.blk_redundCounted, Hub.dwell_skipCompare hd hc, Option.map_some, Dwell.compared_skipLast hlast]
  · have e : exec (.cellRedundError j c) s = s.actAwake fun h => if h.sampling then h.redundError j c else h := rfl
    rw [e, State.actAwake_of_awake ha, hs]
    rfl

end Sys2Proof.Machine
end

section
/-! Hits of a cell's discriminator and its TDC (R80, R233 to R238). -/

namespace Sys2Proof.Machine

/-! ## The discriminator (R80 to R82) -/

section Discriminator

variable {x : Cell} {tick : Nat} {move : Swing}

/-- An enabled discriminator that is not blanked gives a hit where the signal crosses and finds it armed. -/
theorem discHit_iff (hen : ctrlEn x.ctrl = true) (hdisc : bit x.disc 16 = true) (hb : x.blankTick = none) :
    discHit x tick move = true ↔
      discCrosses x.disc move = true ∧ (x.armed = true ∨ discRearms x.disc move.start = true) := by
  simp [discHit, hen, hdisc, hb]

theorem discHit_iff_of_rising (hen : ctrlEn x.ctrl = true) (hdisc : bit x.disc 16 = true) (hb : x.blankTick = none)
    (hpol : bit x.disc 15 = false) :
    discHit x tick move = true ↔ move.start < discThreshold x.disc ∧ discThreshold x.disc ≤ move.stop ∧
      (x.armed = true ∨ move.start < discThreshold x.disc - discHyst x.disc) := by
  rw [discHit_iff hen hdisc hb]
  simp [discCrosses, discRearms, hpol, and_assoc]

theorem discHit_iff_of_falling (hen : ctrlEn x.ctrl = true) (hdisc : bit x.disc 16 = true) (hb : x.blankTick = none)
    (hpol : bit x.disc 15 = true) :
    discHit x tick move = true ↔ discThreshold x.disc < move.start ∧ move.stop ≤ discThreshold x.disc ∧
      (x.armed = true ∨ discThreshold x.disc + discHyst x.disc < move.start) := by
  rw [discHit_iff hen hdisc hb]
  simp [discCrosses, discRearms, hpol, and_assoc]

end Discriminator

/-! ## What a TDC makes of a hit (R235, R236) -/

section TdcRecord

variable {h : Hub} {id q : Nat} {snap : Snap}

/-- A second hit in an event-clock period is not recorded (R236). -/
theorem Hub.tdcRecord_of_same_period (hp : (h.tdc id).period = some (4 * h.clk.tick + q)) :
    h.tdcRecord id q snap = (none, h.tdc id, true) :=
  if_pos (.inr hp)

/-- The time word and COLD of a measured hit; PILE is for one that is not measured (R235). -/
def Hub.measuredHit (h : Hub) (id q : Nat) (snap : Snap) : Hit :=
  ⟨valueWord (h.measuredValue id q (h.tdc id).skew snap), false, !h.warm⟩

theorem Hub.pile_measuredHit : (h.measuredHit id q snap).pile = false := rfl

theorem Hub.cold_measuredHit : (h.measuredHit id q snap).cold = !h.warm := rfl

/-- A TDC after a measured hit. -/
def Hub.tdcMeasured (h : Hub) (id q : Nat) (snap : Snap) : Tdc :=
  { h.tdc id with
    period := some (4 * h.clk.tick + q)
    edge := some (h.edgeTime id q snap)
    measured := some (4 * h.clk.tick + q) }

theorem Hub.tdcRecord_of_measured (hp : (h.tdc id).period ≠ some (4 * h.clk.tick + q))
    (hw : h.tdcWaking (h.tdc id) = false) (hd : h.inDeadTime (h.tdc id) (h.edgeTime id q snap) = false) :
    h.tdcRecord id q snap = (some (h.measuredHit id q snap), h.tdcMeasured id q snap, false) := by
  simp only [Hub.tdcRecord, hp, hw, hd, Bool.false_eq_true, or_self, if_false]
  rfl

end TdcRecord

/-! ## The measurement does not rest on the state of the cells -/

section SetCell

variable (h : Hub) (k : Nat) (x : Cell) (id q : Nat) (snap : Snap)

theorem Hub.clk_setCell : (h.setCell k x).clk = h.clk := rfl

theorem Hub.get_setCell (f : RF) : (h.setCell k x).get f = h.get f := rfl

theorem Hub.ringRatio_setCell : (h.setCell k x).ringRatio id snap = h.ringRatio id snap := rfl

theorem Hub.sampleBase_setCell : (h.setCell k x).sampleBase = h.sampleBase := rfl

theorem Hub.skewFine_setCell (skew : Nat) : (h.setCell k x).skewFine skew = h.skewFine skew := rfl

/-- The unapplied function is unfolded: to compare the applied one with its body, the kernel would evaluate the ring's
phases, which are numbers modulo 2^31, in unary. -/
theorem Hub.edgeTime_setCell : (h.setCell k x).edgeTime id q snap = h.edgeTime id q snap := by
  generalize hf : @Hub.edgeTime = f
  delta Hub.edgeTime at hf
  subst hf
  beta_reduce
  rw [Hub.ringRatio_setCell, Hub.clk_setCell]

/-- Unfolded unapplied, as `Hub.edgeTime` above. -/
theorem Hub.measuredValue_setCell (skew : Nat) :
    (h.setCell k x).measuredValue id q skew snap = h.measuredValue id q skew snap := by
  generalize hf : @Hub.measuredValue = f
  delta Hub.measuredValue at hf
  subst hf
  beta_reduce
  rw [Hub.ringRatio_setCell, Hub.sampleBase_setCell, Hub.get_setCell, Hub.skewFine_setCell]

theorem Hub.coarseValue_setCell (skew : Nat) : (h.setCell k x).coarseValue q skew = h.coarseValue q skew := by
  unfold Hub.coarseValue
  rw [Hub.sampleBase_setCell, Hub.get_setCell, Hub.skewFine_setCell]

theorem Hub.tdcRecord_setCell : (h.setCell k x).tdcRecord id q snap = h.tdcRecord id q snap := by
  unfold Hub.tdcRecord
  rw [Hub.edgeTime_setCell]
  simp only [Hub.measuredValue_setCell, Hub.coarseValue_setCell]
  rfl

end SetCell

/-! ## A hit of a cell (R233, R237) -/

theorem Hub.tdc_setTdc (h : Hub) (a b : Nat) (x : Tdc) :
    (h.setTdc a x).tdc b = if b = a then x else h.tdc b := SMap.get_set _ _ _ _ _

section StoreHit

variable (h : Hub) (j c : Nat) (x : Hit)

/-- A hit that enters a hit store changes the stores alone (R134, R237). -/
theorem Hub.storeHit_frame : ∃ stores, h.storeHit j c x = { h with hitStores := stores } := by
  unfold Hub.storeHit
  dsimp only
  split
  · exact ⟨h.hitStores, rfl⟩
  · exact ⟨_, rfl⟩

theorem Hub.regsBut_storeHit : RegsBut [] h (h.storeHit j c x) := by
  obtain ⟨_, e⟩ := h.storeHit_frame j c x
  rw [e]
  exact fun _ _ => rfl

theorem Hub.tdc_storeHit (k : Nat) : (h.storeHit j c x).tdc k = h.tdc k := by
  obtain ⟨_, e⟩ := h.storeHit_frame j c x
  rw [e]
  rfl

theorem Hub.cell_storeHit (k : Nat) : (h.storeHit j c x).cell k = h.cell k := by
  obtain ⟨_, e⟩ := h.storeHit_frame j c x
  rw [e]
  rfl

end StoreHit

section Outcomes

variable (h : Hub) (j c q : Nat) (snap : Snap)

/-- The hub once a cell's discriminator has fired, its TDC in state `x`: the discriminator is unarmed and its window
counts a hit more (R80, R84). -/
def Hub.discFired (id : Nat) (x : Tdc) : Hub :=
  (h.setCell id { h.cell id with armed := false, hits := (h.cell id).hits + 1 }).setTdc id x

/-- The hub after a hit that is not recorded. -/
def Hub.hitDropped : Hub := (h.discFired (cellId j c) (h.tdc (cellId j c))).inc (TDC_DROP_COUNT j c)

/-- The hub after a measured hit, but for the hit store of its channel. -/
def Hub.hitCounted : Hub :=
  let v := h.measuredHit (cellId j c) q snap
  (((h.discFired (cellId j c) (h.tdcMeasured (cellId j c) q snap)).inc (TDC_HIT_COUNT j c)).w64 (TDC_LAST j c)
    v.tw).wr (TDC_LAST_FLAGS j c).addr (4 + b2n v.pile * 2 + b2n v.cold)

theorem Hub.count_hitDropped :
    (h.hitDropped j c).get (TDC_DROP_COUNT j c) = (h.get (TDC_DROP_COUNT j c) + 1) % 2 ^ 32 :=
  Hub.get_put_self _ (TDC_DROP_COUNT j c) _ (Nat.zero_le 31) (by decide : 31 < 32)

theorem Hub.regsBut_hitDropped : RegsBut [(TDC_DROP_COUNT j c).addr] h (h.hitDropped j c) :=
  Hub.regsBut_inc _ (TDC_DROP_COUNT j c)

theorem Hub.tdc_hitDropped (k : Nat) : (h.hitDropped j c).tdc k = h.tdc k := by
  have e : (h.hitDropped j c).tdc k = if k = cellId j c then h.tdc (cellId j c) else h.tdc k := Hub.tdc_setTdc _ _ _ _
  rw [e]
  split
  · next hk => rw [hk]
  · rfl

theorem Hub.count_hitCounted :
    (h.hitCounted j c q snap).get (TDC_HIT_COUNT j c) = (h.get (TDC_HIT_COUNT j c) + 1) % 2 ^ 32 := by
  rw [Hub.hitCounted, Hub.get_wr_ne _ _ _ (by simp [TDC_HIT_COUNT, TDC_LAST_FLAGS]),
    (Hub.regsBut_w64 _ _ _).get _ (by simp [TDC_HIT_COUNT, TDC_LAST])]
  exact Hub.get_put_self _ (TDC_HIT_COUNT j c) _ (Nat.zero_le 31) (by decide : 31 < 32)

theorem Hub.last_hitCounted : (h.hitCounted j c q snap).r64 (TDC_LAST j c) =
    valueWord (h.measuredValue (cellId j c) q (h.tdc (cellId j c)).skew snap) % 2 ^ 64 := by
  rw [Hub.hitCounted, (Hub.regsBut_wr _ _ _).r64 _ (by simp [TDC_LAST, TDC_LAST_FLAGS])
    (by simp [TDC_LAST, TDC_LAST_FLAGS]), Hub.r64_w64]
  rfl

theorem Hub.flags_hitCounted : (h.hitCounted j c q snap).rd (TDC_LAST_FLAGS j c).addr = 4 + b2n (!h.warm) := by
  have hcold := b2n_lt_two (!h.warm)
  rw [Hub.hitCounted, Hub.rd_wr_self, Hub.pile_measuredHit, Hub.cold_measuredHit, b2n, if_neg Bool.false_ne_true,
    Nat.zero_mul, Nat.add_zero, Nat.mod_eq_of_lt (by omega)]

theorem Hub.tdc_hitCounted : (h.hitCounted j c q snap).tdc (cellId j c) = h.tdcMeasured (cellId j c) q snap :=
  (Hub.tdc_setTdc _ _ _ _).trans (if_pos rfl)

theorem Hub.cell_hitCounted : (h.hitCounted j c q snap).cell (cellId j c) =
    { h.cell (cellId j c) with armed := false, hits := (h.cell (cellId j c)).hits + 1 } :=
  (Hub.cell_setCell _ _ _ _).trans (if_pos rfl)

theorem Hub.regsBut_hitCounted :
    RegsBut [(TDC_HIT_COUNT j c).addr, (TDC_LAST j c).addr, (TDC_LAST j c).addr + 4, (TDC_LAST_FLAGS j c).addr] h
      (h.hitCounted j c q snap) :=
  have hcount := Hub.regsBut_inc (h.discFired (cellId j c) (h.tdcMeasured (cellId j c) q snap)) (TDC_HIT_COUNT j c)
  ((hcount.mono (by simp)).trans (Hub.regsBut_w64 _ (TDC_LAST j c) _) (by simp)).trans (Hub.regsBut_wr _ _ _) (by simp)

end Outcomes

section Crossing

variable {h : Hub} {j c q : Nat} {snap : Snap} {move : Swing}

theorem Hub.cellCrossing_of_dropped (hs : h.sampling = true)
    (hh : discHit (h.cell (cellId j c)) h.clk.tick move = true) (hen : (h.tdc (cellId j c)).en = true)
    (hp : (h.tdc (cellId j c)).period = some (4 * h.clk.tick + q)) :
    h.cellCrossing j c q snap move = h.hitDropped j c := by
  have hen' (x : Cell) : ((h.setCell (cellId j c) x).tdc (cellId j c)).en = true := hen
  have hrec (x : Cell) : (h.setCell (cellId j c) x).tdcRecord (cellId j c) q snap =
      (none, h.tdc (cellId j c), true) :=
    (h.tdcRecord_setCell _ x _ q snap).trans (Hub.tdcRecord_of_same_period hp)
  simp only [Hub.cellCrossing, hs, hh, hen', hrec, Bool.not_true, Bool.false_eq_true, or_self, if_false, if_true]
  rfl

theorem Hub.cellCrossing_of_measured (hs : h.sampling = true)
    (hh : discHit (h.cell (cellId j c)) h.clk.tick move = true) (hen : (h.tdc (cellId j c)).en = true)
    (hp : (h.tdc (cellId j c)).period ≠ some (4 * h.clk.tick + q))
    (hw : h.tdcWaking (h.tdc (cellId j c)) = false)
    (hd : h.inDeadTime (h.tdc (cellId j c)) (h.edgeTime (cellId j c) q snap) = false) :
    h.cellCrossing j c q snap move = (h.hitCounted j c q snap).storeHit j c (h.measuredHit (cellId j c) q snap) := by
  have hen' (x : Cell) : ((h.setCell (cellId j c) x).tdc (cellId j c)).en = true := hen
  have hrec (x : Cell) : (h.setCell (cellId j c) x).tdcRecord (cellId j c) q snap =
      (some (h.measuredHit (cellId j c) q snap), h.tdcMeasured (cellId j c) q snap, false) :=
    (h.tdcRecord_setCell _ x _ q snap).trans (Hub.tdcRecord_of_measured hp hw hd)
  simp only [Hub.cellCrossing, hs, hh, hen', hrec, Bool.not_true, Bool.false_eq_true, or_self, if_false,
    Hub.pile_measuredHit]
  rfl

end Crossing

/-- A move at the input whose id is that of a cell is one at the cell's discriminator (R80, R233). -/
theorem Hub.tdcHit_cellId (h : Hub) (j : Fin 24) (c : Fin 17) (q : Nat) (snap : Snap) (move : Swing) :
    h.tdcHit (cellId j c) q snap move = h.cellCrossing j c q snap move := by
  have hid : cellId j c = 17 * j.val + c.val := rfl
  have hj : cellId j c / 17 = j := by omega
  have hc : cellId j c % 17 = c := by omega
  rw [Hub.tdcHit, if_pos (by omega), hj, hc]

/-- Settles O40: the discriminator's hit by polarity, and the TDC's outcomes `Hub.hitDropped` and `Hub.hitCounted`. -/
theorem tdcHits : Obligations.TdcHits := by
  intro s j c id q snap move ha hs hid
  have e : exec (.tdcHit id q snap move) s = s.actAwake fun h => h.cellCrossing j c q (snapOf snap) move := by
    simp only [← Hub.tdcHit_cellId, ← hid]
    rfl
  refine ⟨fun x hctrl hdisc hb => ⟨discHit_iff_of_rising hctrl hdisc hb, discHit_iff_of_falling hctrl hdisc hb⟩,
    fun hh hen => ⟨fun hp => .of_actAwake e ha ?_, fun hp hw hd => .of_actAwake e ha ?_⟩⟩
  · rw [Hub.cellCrossing_of_dropped hs hh hen hp]
    exact ⟨s.hub.count_hitDropped j c, rfl, s.hub.tdc_hitDropped j c, s.hub.regsBut_hitDropped j c⟩
  · rw [Hub.cellCrossing_of_measured hs hh hen hp hw hd]
    have hregs := (s.hub.hitCounted j c q (snapOf snap)).regsBut_storeHit j c
      (s.hub.measuredHit (cellId j c) q (snapOf snap))
    refine ⟨(hregs.get _ List.not_mem_nil).trans (s.hub.count_hitCounted j c q _),
      (hregs.r64 _ List.not_mem_nil List.not_mem_nil).trans (s.hub.last_hitCounted j c q _),
      (hregs _ List.not_mem_nil).trans (s.hub.flags_hitCounted j c q _), ?_, ?_,
      (s.hub.regsBut_hitCounted j c q _).trans hregs (List.nil_subset _)⟩
    · rw [Hub.tdc_storeHit, Hub.tdc_hitCounted]
      rfl
    · rw [Hub.cell_storeHit, Hub.cell_hitCounted]

end Sys2Proof.Machine
end

section
/-! A change of the delay of a channel (R132, R133). -/

namespace Sys2Proof.Machine

/-! ## Marks of a channel (R76) -/

section Mark

variable (h : Hub) (n cause len : Nat)

theorem Hub.chan_mark_self : (h.mark n cause len).chan n =
    { h.chan n with marks := (h.chan n).marks ++ [⟨cause, h.clk.tick + 1, h.clk.tick + 1 + len⟩] } :=
  (Hub.chan_setChan _ _ _ _).trans (if_pos rfl)

theorem Hub.chan_mark_ne {k : Nat} (hk : k ≠ n) : (h.mark n cause len).chan k = h.chan k :=
  (Hub.chan_setChan _ _ _ _).trans (if_neg hk)

end Mark

/-! ## The delay of the next sample -/

/-- CELL_DLY in 1/16 sample. -/
def Hub.delaySetting (h : Hub) (j c : Nat) : Nat := h.get (CELL_DLY_INT j c) * 16 + h.get (CELL_DLY_FRAC j c)

/-- The delay in effect for the next sample of a channel. -/
def Hub.nextDelay (h : Hub) (n : Nat) : Nat := delayAt (h.chan n).dly (h.clk.tick + 1)

/-- How many samples a change between two delays marks (R133). -/
def delayMarks (new old : Nat) : Nat := max 1 ((max new old - min new old + 15) / 16)

/-- A channel whose delay is `d` from sample `i` on. -/
def Chan.delayedFrom (x : Chan) (i d : Nat) : Chan := { x with dly := (i, d) :: x.dly.take 15 }

theorem Chan.delayAt_delayedFrom (x : Chan) (i d : Nat) : delayAt (x.delayedFrom i d).dly i = d :=
  if_pos le_rfl

/-- The hub after a change of CELL_DLY has taken effect. -/
def Hub.delayChanged (h : Hub) (j c : Nat) : Hub :=
  let n := chanOf j c
  (h.setChan n ((h.chan n).delayedFrom (h.clk.tick + 1) (h.delaySetting j c))).mark n qDelay
    (delayMarks (h.delaySetting j c) (h.nextDelay n))

section TakeDelay

variable {h : Hub} {j c : Nat}

theorem Hub.takeDelay_of_same (e : h.delaySetting j c = h.nextDelay (chanOf j c)) : h.takeDelay j c = h :=
  if_pos e

/-- The distance is the greater delay less the smaller one, whichever way the delay moves. -/
theorem Hub.takeDelay_of_changed (e : h.delaySetting j c ≠ h.nextDelay (chanOf j c)) :
    h.takeDelay j c = h.delayChanged j c := by
  have hdist (new old : Nat) : (if old < new then new - old else old - new) = max new old - min new old := by
    split <;> omega
  have ht : h.takeDelay j c = _ := if_neg e
  rw [ht, hdist]
  rfl

end TakeDelay

section DelayChanged

variable (h : Hub) (j c : Nat)

theorem Hub.chan_delayChanged_self : (h.delayChanged j c).chan (chanOf j c) =
    { (h.chan (chanOf j c)).delayedFrom (h.clk.tick + 1) (h.delaySetting j c) with
      marks := (h.chan (chanOf j c)).marks ++ [⟨qDelay, h.clk.tick + 1,
        h.clk.tick + 1 + delayMarks (h.delaySetting j c) (h.nextDelay (chanOf j c))⟩] } := by
  rw [Hub.delayChanged, Hub.chan_mark_self, Hub.chan_setChan, if_pos rfl]
  rfl

theorem Hub.chan_delayChanged_ne {k : Nat} (hk : k ≠ chanOf j c) : (h.delayChanged j c).chan k = h.chan k := by
  rw [Hub.delayChanged, Hub.chan_mark_ne _ _ _ _ hk, Hub.chan_setChan, if_neg hk]

theorem Hub.delayChanged_frame : h.delayChanged j c = { h with chans := (h.delayChanged j c).chans } := rfl

end DelayChanged

/-- Settles O44: a setting other than the delay of the next sample comes to `Hub.delayChanged`, the same one to
nothing. -/
theorem delayChangeMarks : Obligations.DelayChangeMarks := by
  intro s j c ha n x new old
  have e : exec (.delayChange j c) s = s.actAwake fun h => h.takeDelay j c := rfl
  refine ⟨fun hsame => ?_, fun hne => .of_actAwake e ha ?_⟩
  · rw [e, State.actAwake_of_awake ha, Hub.takeDelay_of_same hsame]
  · rw [Hub.takeDelay_of_changed hne]
    refine ⟨?_, ?_, fun k hk => s.hub.chan_delayChanged_ne j c hk, s.hub.delayChanged_frame j c⟩
    · rw [Hub.chan_delayChanged_self]
      exact Chan.delayAt_delayedFrom _ _ _
    · rw [Hub.chan_delayChanged_self]
      rfl

end Sys2Proof.Machine
end

section
/-! Swaps of a filter (R147 to R149). -/

namespace Sys2Proof.Machine

/-! ## The fade of a stage -/

section Fade

variable (h : Hub) (s : Stage) (n : Nat) (f : Option Fade)

theorem Hub.setFade_frame : h.setFade s n f = { h with chans := (h.setFade s n f).chans } := by
  cases s <;> rfl

theorem Hub.regsBut_setFade : RegsBut [] h (h.setFade s n f) := by
  rw [Hub.setFade_frame]
  exact fun _ _ => rfl

theorem Hub.fadeOf_setFade : (h.setFade s n f).fadeOf s n = f := by
  cases s <;> simp [Hub.setFade, Hub.fadeOf, Hub.chan_setChan]

theorem Hub.chan_setFade_ne {k : Nat} (hk : k ≠ n) : (h.setFade s n f).chan k = h.chan k := by
  cases s <;> simp [Hub.setFade, Hub.chan_setChan, hk]

end Fade

section OnlyRegs

variable {as : List Nat} {h g : Hub}

theorem Hub.OnlyRegs.chan (H : OnlyRegs as h g) (k : Nat) : g.chan k = h.chan k := (congrArg (Hub.chan · k) H.1 :)

theorem Hub.OnlyRegs.setFade_frame (H : OnlyRegs as h g) (s : Stage) (n : Nat) (f : Option Fade) :
    g.setFade s n f = { h with regs := (g.setFade s n f).regs, chans := (g.setFade s n f).chans } := by
  have hr : (g.setFade s n f).regs = g.regs := (congrArg Hub.regs (Hub.setFade_frame g s n f) :)
  rw [hr]
  exact (Hub.setFade_frame g s n f).trans
    (congrArg (fun x : Hub => { x with chans := (g.setFade s n f).chans }) H.1)

end OnlyRegs

/-! ## A swap taken up (R147, R148) -/

theorem stageReg_ne_status (s : Stage) (j c : Nat) : (stageReg s j c).addr ≠ (CELL_FLT_STATUS j c).addr := by
  cases s <;> simp [stageReg, CELL_FLT_EST, CELL_FLT_REC, CELL_FLT_STATUS]

/-- The hub once SWAP of stage register `r` reads 0. -/
def Hub.swapCleared (h : Hub) (r : RF) : Hub := h.put (fSwap r) 0

section SwapCleared

variable (h : Hub) (r : RF)

theorem Hub.swapBit_swapCleared : (h.swapCleared r).get (fSwap r) = 0 :=
  h.get_put_self (fSwap r) 0 (by simp [fSwap]) (by simp [fSwap])

/-- SWAP is the top bit of its register. -/
theorem Hub.get_swapCleared {f : RF} (hl : f.lo ≤ f.hi) (hh : f.hi < 31) : (h.swapCleared r).get f = h.get f :=
  h.get_put_below (fSwap r) f 0 hl (by omega) hh

theorem Hub.on_swapCleared {f : RF} (hl : f.lo ≤ f.hi) (hh : f.hi < 31) : (h.swapCleared r).on f = h.on f := by
  rw [Hub.on, Hub.get_swapCleared h r hl hh, ← Hub.on]

theorem Hub.onlyRegs_swapCleared : OnlyRegs [r.addr] h (h.swapCleared r) := h.onlyRegs_put (fSwap r) 0

end SwapCleared

/-- The hub after a refused swap. -/
def Hub.swapRefused (h : Hub) (s : Stage) (j c : Nat) : Hub :=
  (h.swapCleared (stageReg s j c)).set1 (CELL_FLT_STATUS_SWAP_BUSY j c)

/-- The registers after a fade has started: OTHER names the new response, and FADING reads 1. -/
def Hub.fadeShown (h : Hub) (r : RF) : Hub := ((h.swapCleared r).put (fOther r) (h.get (fNext r))).put (fFading r) 1

/-- The hub after a fade from CUR to NEXT has started. -/
def Hub.fadeStarted (h : Hub) (s : Stage) (j c : Nat) : Hub :=
  let r := stageReg s j c
  (h.fadeShown r).setFade s (chanOf j c) (some ⟨h.get (fCur r), h.get (fNext r), 0, 8 * 2 ^ h.get (fFadeLen r)⟩)

section FadeShown

variable (h : Hub) (r : RF)

/-- A field of the stage's register that is apart from SWAP, OTHER and FADING keeps its value. -/
theorem Hub.get_fadeShown {f : RF} (hl : f.lo ≤ f.hi) (hh : f.hi < 31) (ha : f.hi < 8 ∨ 14 < f.lo) :
    (h.fadeShown r).get f = h.get f := by
  rw [Hub.fadeShown, Hub.get_put_apart (f := fFading r) _ _ (by simp [fFading]) hl (by omega)
      (by simp only [fFading]; omega),
    Hub.get_put_apart (f := fOther r) _ _ (by simp [fOther]) hl (by omega) (by simp only [fOther]; omega),
    Hub.get_swapCleared h r hl hh]

theorem Hub.swapBit_fadeShown : (h.fadeShown r).get (fSwap r) = 0 := by
  rw [Hub.fadeShown, Hub.get_put_above _ (fFading r) (fSwap r) _ (by simp [fFading]) (by simp [fSwap])
      (by simp [fSwap]) (by simp [fFading, fSwap]),
    Hub.get_put_above _ (fOther r) (fSwap r) _ (by simp [fOther]) (by simp [fSwap]) (by simp [fSwap])
      (by simp [fOther, fSwap]),
    Hub.swapBit_swapCleared]

theorem Hub.fading_fadeShown : (h.fadeShown r).on (fFading r) = true :=
  Hub.on_put_one (f := fFading r) _ (by simp [fFading]) (by simp [fFading])

theorem Hub.onlyRegs_fadeShown : OnlyRegs [r.addr] h (h.fadeShown r) := by
  have hother := (h.onlyRegs_swapCleared r).trans (Hub.onlyRegs_put _ (fOther r) (h.get (fNext r)))
  exact (hother.trans (Hub.onlyRegs_put _ (fFading r) 1)).mono (by simp [fOther, fFading])

end FadeShown

section Swap

variable {h : Hub} {s : Stage} {j c : Nat}

theorem Hub.swapTake_of_waiting (hw : bit (h.rd (stageReg s j c).addr) 31 = true)
    (hf : bit (h.rd (stageReg s j c).addr) 30 = false) : h.swapTake s j c false = h.swap s j c := by
  simp [Hub.swapTake, hw, hf]

theorem Hub.fading_swapCleared (r : RF) : (h.swapCleared r).on (fFading r) = h.on (fFading r) :=
  h.on_swapCleared r (by simp [fFading]) (by simp [fFading])

theorem Hub.not_fading_swapCleared {r : RF} (hf : h.on (fFading r) = false) :
    ¬ (h.swapCleared r).on (fFading r) = true := by
  rw [Hub.fading_swapCleared, hf]
  exact Bool.false_ne_true

theorem Hub.swap_of_fading (hf : h.on (fFading (stageReg s j c)) = true) :
    h.swap s j c = h.swapRefused s j c :=
  if_pos ((Hub.fading_swapCleared _).trans hf)

theorem Hub.swap_of_same (hf : h.on (fFading (stageReg s j c)) = false)
    (he : h.get (fNext (stageReg s j c)) = h.get (fCur (stageReg s j c))) :
    h.swap s j c = h.swapCleared (stageReg s j c) :=
  (if_neg (Hub.not_fading_swapCleared hf)).trans (if_pos he)

/-- FADE_LEN is read after OTHER and FADING are set, and is apart from them. -/
theorem Hub.swap_of_fade (hf : h.on (fFading (stageReg s j c)) = false)
    (he : h.get (fNext (stageReg s j c)) ≠ h.get (fCur (stageReg s j c))) :
    h.swap s j c = h.fadeStarted s j c := by
  rw [Hub.fadeStarted, ← h.get_fadeShown (stageReg s j c) (f := fFadeLen (stageReg s j c)) (by simp [fFadeLen])
    (by simp [fFadeLen]) (by simp [fFadeLen])]
  exact (if_neg (Hub.not_fading_swapCleared hf)).trans (if_neg he)

end Swap

section Outcomes

variable (h : Hub) (s : Stage) (j c : Nat)

theorem Hub.swapBit_swapRefused : (h.swapRefused s j c).get (fSwap (stageReg s j c)) = 0 :=
  (Hub.get_put_ne _ (CELL_FLT_STATUS_SWAP_BUSY j c) (fSwap (stageReg s j c)) _ (stageReg_ne_status s j c)).trans
    (h.swapBit_swapCleared _)

theorem Hub.busy_swapRefused : (h.swapRefused s j c).on (CELL_FLT_STATUS_SWAP_BUSY j c) = true :=
  Hub.on_set1 _ (by simp [CELL_FLT_STATUS_SWAP_BUSY]) (by simp [CELL_FLT_STATUS_SWAP_BUSY])

theorem Hub.onlyRegs_swapRefused :
    OnlyRegs [(stageReg s j c).addr, (CELL_FLT_STATUS j c).addr] h (h.swapRefused s j c) :=
  (h.onlyRegs_swapCleared _).trans (Hub.onlyRegs_put _ (CELL_FLT_STATUS_SWAP_BUSY j c) 1)

/-- A fade's own state is no register. -/
theorem Hub.regsBut_fadeStarted : RegsBut [] (h.fadeShown (stageReg s j c)) (h.fadeStarted s j c) :=
  Hub.regsBut_setFade _ _ _ _

theorem Hub.swapBit_fadeStarted : (h.fadeStarted s j c).get (fSwap (stageReg s j c)) = 0 :=
  ((h.regsBut_fadeStarted s j c).get _ List.not_mem_nil).trans (h.swapBit_fadeShown _)

theorem Hub.fading_fadeStarted : (h.fadeStarted s j c).on (fFading (stageReg s j c)) = true :=
  ((h.regsBut_fadeStarted s j c).on _ List.not_mem_nil).trans (h.fading_fadeShown _)

theorem Hub.cur_fadeStarted :
    (h.fadeStarted s j c).get (fCur (stageReg s j c)) = h.get (fCur (stageReg s j c)) :=
  ((h.regsBut_fadeStarted s j c).get _ List.not_mem_nil).trans
    (h.get_fadeShown _ (by simp [fCur]) (by simp [fCur]) (by simp [fCur]))

theorem Hub.fadeOf_fadeStarted : (h.fadeStarted s j c).fadeOf s (chanOf j c) =
    some ⟨h.get (fCur (stageReg s j c)), h.get (fNext (stageReg s j c)), 0,
      8 * 2 ^ h.get (fFadeLen (stageReg s j c))⟩ :=
  Hub.fadeOf_setFade _ _ _ _

theorem Hub.chan_fadeStarted_ne {k : Nat} (hk : k ≠ chanOf j c) : (h.fadeStarted s j c).chan k = h.chan k :=
  (Hub.chan_setFade_ne _ _ _ _ hk).trans ((h.onlyRegs_fadeShown _).chan k)

theorem Hub.fadeStarted_frame :
    h.fadeStarted s j c = { h with regs := (h.fadeStarted s j c).regs, chans := (h.fadeStarted s j c).chans } :=
  (h.onlyRegs_fadeShown _).setFade_frame _ _ _

theorem Hub.regsBut_fadeStarted_stage : RegsBut [(stageReg s j c).addr] h (h.fadeStarted s j c) :=
  (h.onlyRegs_fadeShown _).2.trans (h.regsBut_fadeStarted s j c) (List.nil_subset _)

end Outcomes

/-- A SWAP that waits with FORCE = 0 is taken up as `Hub.swap`. -/
theorem gives_fltSwap {s : State} {record : Bool} {j : Fin 24} {c : Fin 16} {g : Hub} {P : Hub → Prop}
    (ha : s.hub.awake = true) (hw : bit (s.hub.rd (stageReg (stageOf record) j c).addr) 31 = true)
    (hf : bit (s.hub.rd (stageReg (stageOf record) j c).addr) 30 = false)
    (hg : s.hub.swap (stageOf record) j c = g) (hP : P g) : s.Gives (.fltSwap record j c) P := by
  have e : exec (.fltSwap record j c) s = s.actAwake fun h => h.swapTake (stageOf record) j c false := rfl
  refine .of_actAwake e ha ?_
  rwa [Hub.swapTake_of_waiting hw hf, hg]

/-- Settles O60: a swap taken up is refused during a fade, idle where NEXT is CUR, and otherwise starts a fade. -/
theorem filterSwaps : Obligations.FilterSwaps := by
  intro s record j c ha r hw hforce
  refine ⟨fun hf => gives_fltSwap ha hw hforce (Hub.swap_of_fading hf) ?_,
    fun hf he => gives_fltSwap ha hw hforce (Hub.swap_of_same hf he) ?_,
    fun hf he => gives_fltSwap ha hw hforce (Hub.swap_of_fade hf he) ?_⟩
  · exact ⟨s.hub.swapBit_swapRefused _ j c, s.hub.busy_swapRefused _ j c, s.hub.onlyRegs_swapRefused _ j c⟩
  · exact ⟨s.hub.swapBit_swapCleared r, s.hub.onlyRegs_swapCleared r⟩
  · exact ⟨s.hub.swapBit_fadeStarted _ j c, s.hub.fading_fadeStarted _ j c, s.hub.cur_fadeStarted _ j c,
      s.hub.fadeOf_fadeStarted _ j c, fun k hk => s.hub.chan_fadeStarted_ne _ j c hk,
      s.hub.fadeStarted_frame _ j c, s.hub.regsBut_fadeStarted_stage _ j c⟩

end Sys2Proof.Machine
end

section
/-! ACCEPT triggers (R172) and the freeze triggers of the blocks (R188). -/

namespace Sys2Proof.Machine

/-! ## The freeze trigger of a block (R188) -/

/-- Between `h` and `g` the registers at `as` and the state of the blocks may differ, and nothing else of the hub. -/
def Hub.OnlyRegsBlks (as : List Nat) (h g : Hub) : Prop :=
  g = { h with regs := g.regs, blks := g.blks } ∧ Hub.RegsBut as h g

section OnlyRegsBlks

variable {as bs : List Nat} {h g k : Hub}

theorem Hub.onlyRegsBlks_refl (as : List Nat) (h : Hub) : OnlyRegsBlks as h h := ⟨rfl, fun _ _ => rfl⟩

theorem Hub.OnlyRegsBlks.trans (H : OnlyRegsBlks as h g) (G : OnlyRegsBlks bs g k) (hs : bs ⊆ as) :
    OnlyRegsBlks as h k :=
  ⟨G.1.trans (congrArg (fun x : Hub => { x with regs := k.regs, blks := k.blks }) H.1), H.2.trans G.2 hs⟩

theorem Hub.OnlyRegsBlks.trig_pendTrigger (H : OnlyRegsBlks as h g) (t : PendTrig) :
    (g.pendTrigger t).trig = { h.trig with pend := h.trig.pend ++ [t] } :=
  (congrArg (fun x : Hub => (x.pendTrigger t).trig) H.1 :)

theorem Hub.OnlyRegsBlks.pendTrigger_frame (H : OnlyRegsBlks as h g) (t : PendTrig) :
    g.pendTrigger t =
      { h with regs := (g.pendTrigger t).regs, trig := (g.pendTrigger t).trig, blks := (g.pendTrigger t).blks } :=
  congrArg (fun x : Hub => { x with trig := (g.pendTrigger t).trig }) H.1

end OnlyRegsBlks

theorem Hub.onlyRegsBlks_put_setBlk (h : Hub) (j : Nat) (b : Blk) (f : RF) (n : Nat) :
    OnlyRegsBlks [f.addr] h ((h.setBlk j b).put f n) :=
  ⟨rfl, (h.setBlk j b).regsBut_put f n⟩

/-- A freeze trigger moves the snapshot state of armed blocks, and changes nothing else beside what a block keeps of
the trigger. -/
theorem Hub.onlyRegsBlks_snapTrigger (h : Hub) (src time due : Nat) :
    OnlyRegsBlks ((List.range 24).map fun j => (BLK_SNAP_STATUS j).addr) h (h.snapTrigger src time due) := by
  refine List.foldlRecOn _ _ (h.onlyRegsBlks_refl _) fun g H j hj => ?_
  split
  · have hmem : (BLK_SNAP_STATUS j).addr ∈ (List.range 24).map fun j => (BLK_SNAP_STATUS j).addr :=
      List.mem_map_of_mem hj
    exact H.trans (g.onlyRegsBlks_put_setBlk j _ (BLK_SNAP_STATUS_STATE j) 2) (List.cons_subset.mpr ⟨hmem, List.nil_subset _⟩)
  · exact H

/-! ## What an ACCEPT does (R172) -/

/-- The trigger of an ACCEPT: slot 0 of the BX that lies TRG_LATENCY back, with CAUSE bit 0. -/
def Hub.acceptTrigger (h : Hub) : PendTrig :=
  ⟨bxBack h.nextFrame (h.get TRG_LATENCY_LAT) * 2 ^ 16, 1, 0, h.actTick⟩

section Accept

variable {h : Hub}

theorem Hub.accept_of_disabled (hoff : h.on TRG_CFG_ACC_EN = false) : h.accept = h.inc TRG_ACC_IGNORED := by
  simp [Hub.accept, hoff]

theorem Hub.accept_of_run (hon : h.on TRG_CFG_ACC_EN = true) (hr : h.inRun = true) :
    h.accept = (h.snapTrigger 0 h.acceptTrigger.time h.actTick).pendTrigger h.acceptTrigger := by
  simp [Hub.accept, Hub.acceptTrigger, hon, hr]

theorem Hub.accept_of_ready (hon : h.on TRG_CFG_ACC_EN = true) (hr : h.pwr.state = .ready) :
    h.accept = h.inc TRG_EVT_NEXT := by
  simp [Hub.accept, Hub.inRun, Hub.sampling, Hub.nextEvent, hon, hr]

theorem Hub.inRun_eq_false_of_not_sampling (hs : h.sampling = false) : h.inRun = false :=
  (Bool.or_eq_false_iff.mp hs).2

theorem Hub.accept_of_not_sampling (hon : h.on TRG_CFG_ACC_EN = true) (hs : h.sampling = false) : h.accept = h := by
  simp [Hub.accept, hon, hs, Hub.inRun_eq_false_of_not_sampling hs]

end Accept

/-- A counter that fills its register counts modulo 2^32. -/
theorem Hub.get_inc_word (h : Hub) (a : Nat) : (h.inc ⟨a, 31, 0⟩).get ⟨a, 31, 0⟩ = (h.get ⟨a, 31, 0⟩ + 1) % 2 ^ 32 :=
  h.get_put_self ⟨a, 31, 0⟩ _ (Nat.zero_le 31) (by decide : 31 < 32)

/-- Settles O39, by the four outcomes of `Hub.accept`: disabled, in RUN, in READY, and in no state that samples. -/
theorem acceptTriggers : Obligations.AcceptTriggers := by
  intro s ha
  have e : exec .accept s = s.actAwake fun h => h.accept := rfl
  refine ⟨fun hon hr => .of_actAwake e ha ?_, fun hoff => .of_actAwake e ha ?_,
    fun hon hr => .of_actAwake e ha ?_, fun hon hs => ?_⟩
  · have H := s.hub.onlyRegsBlks_snapTrigger 0 s.hub.acceptTrigger.time s.hub.actTick
    rw [Hub.accept_of_run hon hr]
    exact ⟨H.trig_pendTrigger _, H.pendTrigger_frame _, H.2⟩
  · rw [Hub.accept_of_disabled hoff]
    exact ⟨s.hub.get_inc_word _, s.hub.onlyRegs_put TRG_ACC_IGNORED _⟩
  · rw [Hub.accept_of_ready hon hr]
    exact ⟨s.hub.get_inc_word _, s.hub.onlyRegs_put TRG_EVT_NEXT _⟩
  · rw [e, State.actAwake_of_awake ha, Hub.accept_of_not_sampling hon hs]

end Sys2Proof.Machine
end

section
/-! A slot is released once all its units have been sent (R220, R221). -/

namespace Sys2Proof.Machine

/-! ## What a change made for each index keeps -/

/-- What the change of every index in the list keeps, all the changes keep. -/
theorem Hub.forAll_keeps {β : Type} (p : Hub → β) {f : Hub → Nat → Hub} {l : List Nat}
    (hf : ∀ g, ∀ i ∈ l, p (f g i) = p g) (h : Hub) : p (h.forAll l f) = p h :=
  List.foldlRecOn (motive := fun g => p g = p h) l f rfl fun g e i hi => (hf g i hi).trans e

/-- An alarm leaves the trigger and event state alone. -/
theorem Hub.trig_raise (h : Hub) (code wher detail : Nat) : (h.raise code wher detail).trig = h.trig := by
  obtain ⟨x, e⟩ | e := h.raiseAt_cases h.label code wher detail <;> rw [Hub.raise, e] <;> rfl

/-! ## Lag (R223) -/

/-- Hub h with the lag of region r shown in RGN_LAG. -/
def Hub.lagCounted (h : Hub) (r : Nat) : Hub := h.put (RGN_LAG_EVENTS r) (h.lagOf r)

/-- The registers that follow the lag of region r: RGN_LAG and LAG, and those the alarm of a setting of LAG writes. -/
def lagRegs (r : Nat) : List Nat := [(RGN_LAG r).addr, (RGN_STATUS r).addr, (Q_COUNT 6).addr, (Q_PUSH_FULL 6).addr]

section Lag

variable (h : Hub) (r : Nat)

/-- LAG stands, clears, or is set with an alarm. -/
theorem Hub.refreshLag_cases :
    h.refreshLag r = h.lagCounted r ∨ h.refreshLag r = (h.lagCounted r).put (RGN_STATUS_LAG r) 0 ∨
      h.refreshLag r = ((h.lagCounted r).put (RGN_STATUS_LAG r) 1).raise 0x05 (whereRgn r) (h.lagOf r) := by
  unfold Hub.refreshLag Hub.putIf
  dsimp only
  split
  · split
    · exact .inr (.inl rfl)
    · exact .inl rfl
  · split
    · exact .inr (.inr rfl)
    · exact .inl rfl

theorem Hub.trig_refreshLag : (h.refreshLag r).trig = h.trig := by
  obtain e | e | e := h.refreshLag_cases r <;> rw [e]
  · rfl
  · rfl
  · exact Hub.trig_raise _ _ _ _

theorem Hub.trig_refreshLags : h.refreshLags.trig = h.trig :=
  Hub.forAll_keeps Hub.trig (fun g i _ => g.trig_refreshLag i) h

theorem Hub.regsBut_refreshLag : RegsBut (lagRegs r) h (h.refreshLag r) := by
  have hlag : RegsBut (lagRegs r) h (h.lagCounted r) :=
    (h.regsBut_put (RGN_LAG_EVENTS r) (h.lagOf r)).mono (List.cons_subset_cons _ (List.nil_subset _))
  have hput (n : Nat) : RegsBut (lagRegs r) h ((h.lagCounted r).put (RGN_STATUS_LAG r) n) :=
    hlag.trans (Hub.regsBut_put _ (RGN_STATUS_LAG r) n) (by simp [lagRegs, RGN_STATUS, RGN_STATUS_LAG])
  obtain e | e | e := h.refreshLag_cases r <;> rw [e]
  · exact hlag
  · exact hput 0
  · exact (hput 1).trans (Hub.regsBut_raiseAt _ _ _ _ _) (by simp [lagRegs])

/-- Outside the ALARM queue, the registers below those of the regions stand. -/
theorem Hub.rd_refreshLags {a : Nat} (hr : a < rgnBase 0) (hq : a ∉ [(Q_COUNT 6).addr, (Q_PUSH_FULL 6).addr]) :
    h.refreshLags.rd a = h.rd a := by
  refine Hub.rd_forAll (fun g i => g.regsBut_refreshLag i a ?_) _ h
  have hlag : a ≠ (RGN_LAG i).addr := by simp only [RGN_LAG, rgnBase] at hr ⊢; omega
  have hstatus : a ≠ (RGN_STATUS i).addr := by simp only [RGN_STATUS, rgnBase] at hr ⊢; omega
  exact List.not_mem_cons_of_ne_of_not_mem hlag (List.not_mem_cons_of_ne_of_not_mem hstatus hq)

end Lag

/-! ## The allocation of the slots (R192) -/

/-- The registers that show the allocation. -/
def slotRegs : List Nat := TRG_FREE_SLOTS.addr :: (List.range 4).map fun i => (TRG_SLOT_BUSY i).addr

section Slots

variable (h : Hub)

theorem Hub.trig_refreshSlots : h.refreshSlots.trig = h.trig :=
  (Hub.forAll_keeps Hub.trig (fun g i _ => g.wr_trig (TRG_SLOT_BUSY i).addr _) _).trans (h.wr_trig _ _)

theorem Hub.freeSlots_length_le : h.freeSlots.length ≤ 128 :=
  (List.length_filter_le _ _).trans_eq List.length_range

/-- The free slots are those of the trigger and event state. -/
theorem Hub.freeSlots_congr {g h : Hub} (e : g.trig = h.trig) : g.freeSlots = h.freeSlots := by
  simp only [Hub.freeSlots, Hub.slot, e]

/-- The count written fits the register. -/
theorem Hub.freeSlotCount_refreshSlots : h.refreshSlots.rd TRG_FREE_SLOTS.addr = h.freeSlots.length := by
  have hle := h.freeSlots_length_le
  have hbusy (i : Nat) : TRG_FREE_SLOTS.addr ≠ (TRG_SLOT_BUSY i).addr := by
    simp only [TRG_FREE_SLOTS, TRG_SLOT_BUSY]; omega
  calc h.refreshSlots.rd TRG_FREE_SLOTS.addr
      = (h.wr TRG_FREE_SLOTS.addr h.freeSlots.length).rd TRG_FREE_SLOTS.addr :=
        Hub.rd_forAll (fun g i => g.rd_wr_ne _ (hbusy i)) _ _
    _ = h.freeSlots.length % 2 ^ 32 := h.rd_wr_self _ _
    _ = h.freeSlots.length := Nat.mod_eq_of_lt (by omega)

theorem Hub.regsBut_refreshSlots : RegsBut slotRegs h h.refreshSlots := by
  intro a ha
  obtain ⟨hfree, hbusy⟩ := not_or.mp (mt List.mem_cons.mpr ha)
  have hne (i : Nat) (hi : i ∈ List.range 4) : a ≠ (TRG_SLOT_BUSY i).addr := fun e =>
    hbusy (List.mem_map.mpr ⟨i, hi, e.symm⟩)
  exact (Hub.forAll_keeps (·.rd a) (fun g i hi => g.rd_wr_ne _ (hne i hi)) _).trans (h.rd_wr_ne _ hfree)

end Slots

/-! ## The release (R221) -/

/-- Hub h with slot k free, its release counted, and the registers that follow the allocation brought up to date. -/
def Hub.slotReleased (h : Hub) (k : Nat) : Hub :=
  (((h.setSlot k none).inc64 EVT_RELEASED).refreshSlots).refreshLags

section Release

variable {h : Hub} {k : Nat} {x : Slot}

theorem Hub.slotRelease_of_free (hk : h.slot k = none) : h.slotRelease k = h := by
  simp [Hub.slotRelease, hk]

theorem Hub.slotRelease_of_not_done (hk : h.slot k = some x) (hd : x.done = false) : h.slotRelease k = h := by
  simp [Hub.slotRelease, hk, hd]

theorem Hub.slotRelease_of_done (hk : h.slot k = some x) (hd : x.done = true) :
    h.slotRelease k = h.slotReleased k := by
  simp [Hub.slotRelease, Hub.slotReleased, hk, hd]

end Release

section Released

variable (h : Hub) (k : Nat)

theorem Hub.trig_slotReleased : (h.slotReleased k).trig = (h.setSlot k none).trig :=
  (Hub.trig_refreshLags _).trans (Hub.trig_refreshSlots _)

theorem Hub.slot_slotReleased (i : Nat) : (h.slotReleased k).slot i = if i = k then none else h.slot i := by
  rw [Hub.slot, h.trig_slotReleased k]
  exact h.slot_setSlot k i none

theorem Hub.trig_slotReleased_frame :
    (h.slotReleased k).trig = { h.trig with slots := (h.slotReleased k).trig.slots } := by
  rw [h.trig_slotReleased k]
  rfl

theorem Hub.released_slotReleased :
    (h.slotReleased k).r64 EVT_RELEASED = (h.r64 EVT_RELEASED + 1) % 2 ^ 64 := by
  have hrd {a : Nat} (ha : a ∈ [EVT_RELEASED.addr, EVT_RELEASED.addr + 4]) :
      (h.slotReleased k).rd a = ((h.setSlot k none).inc64 EVT_RELEASED).rd a := by
    have hplace : a < rgnBase 0 ∧ a ∉ [(Q_COUNT 6).addr, (Q_PUSH_FULL 6).addr] ∧ a ∉ slotRegs := by
      revert a
      decide
    obtain ⟨hbelow, hqueue, hslots⟩ := hplace
    exact (Hub.rd_refreshLags _ hbelow hqueue).trans (Hub.regsBut_refreshSlots _ a hslots)
  calc (h.slotReleased k).r64 EVT_RELEASED
      = ((h.setSlot k none).inc64 EVT_RELEASED).r64 EVT_RELEASED := by
        rw [Hub.r64, Hub.r64, hrd (by simp), hrd (by simp)]
    _ = (h.r64 EVT_RELEASED + 1) % 2 ^ 64 := Hub.r64_w64 _ _ _

theorem Hub.freeSlotCount_slotReleased :
    (h.slotReleased k).rd TRG_FREE_SLOTS.addr = (h.slotReleased k).freeSlots.length := by
  rw [Hub.freeSlots_congr (h.trig_slotReleased k), Hub.slotReleased, Hub.rd_refreshLags _ (by decide) (by decide)]
  exact Hub.freeSlotCount_refreshSlots _

end Released

/-- Settles O59, by the three outcomes of `Hub.slotRelease`: a free slot, units still to send, and the release. -/
theorem slotsReleased : Obligations.SlotsReleased := by
  intro s k ha
  have e : exec (.slotRelease k) s = s.actAwake fun h => h.slotRelease k := rfl
  refine ⟨fun hk => ?_, fun x hk => ⟨fun hd => ?_, fun hd => .of_actAwake e ha ?_⟩⟩
  · rw [e, State.actAwake_of_awake ha, Hub.slotRelease_of_free hk]
  · rw [e, State.actAwake_of_awake ha, Hub.slotRelease_of_not_done hk hd]
  · rw [Hub.slotRelease_of_done hk hd]
    exact ⟨(s.hub.slot_slotReleased k k).trans (if_pos rfl),
      fun i hi => (s.hub.slot_slotReleased k i).trans (if_neg hi), s.hub.trig_slotReleased_frame k,
      s.hub.released_slotReleased k, s.hub.freeSlotCount_slotReleased k⟩

end Sys2Proof.Machine
end

section
/-! Interval engines: the first edge, and the result of the second in SINGLE mode (R243 to R245, R257). -/

namespace Sys2Proof.Machine

/-! ## The result word (R245) -/

/-- IVL_RESULT as the difference, COLD, TIE, ORDER and OVF make it up. -/
def ivlWord (d : Int) (cold tie order ovf : Bool) : Nat :=
  2 ^ 63 + b2n cold * 2 ^ 62 + b2n tie * 2 ^ 61 + b2n order * 2 ^ 60 + b2n ovf * 2 ^ 59 + unsgn 40 d

theorem unsgn_lt (w : Nat) (x : Int) : unsgn w x < 2 ^ w :=
  (Int.toNat_lt_of_ne_zero (Nat.two_pow_pos w).ne').mpr
    (Int.emod_lt_of_pos x (Int.natCast_pos.mpr (Nat.two_pow_pos w)))

theorem bit_of_bits {n i : Nat} {b : Bool} (h : bits n i i = b2n b) : bit n i = b := by
  rw [bit_eq_bits, h]
  cases b <;> rfl

section IvlWord

variable (d : Int) (cold tie order ovf : Bool)

/-- Every flag is one bit and the difference 40 bits, so no field of the word reaches into the next. -/
theorem ivlWord_fields_lt :
    b2n cold < 2 ∧ b2n tie < 2 ∧ b2n order < 2 ∧ b2n ovf < 2 ∧ unsgn 40 d < 2 ^ 40 :=
  ⟨b2n_lt_two cold, b2n_lt_two tie, b2n_lt_two order, b2n_lt_two ovf, unsgn_lt 40 d⟩

theorem ivlWord_lt : ivlWord d cold tie order ovf < 2 ^ 64 := by
  obtain ⟨hcold, htie, horder, hovf, hd⟩ := ivlWord_fields_lt d cold tie order ovf
  unfold ivlWord
  omega

theorem bits_ivlWord :
    bits (ivlWord d cold tie order ovf) 63 63 = b2n true ∧ bits (ivlWord d cold tie order ovf) 62 62 = b2n cold ∧
    bits (ivlWord d cold tie order ovf) 61 61 = b2n tie ∧ bits (ivlWord d cold tie order ovf) 60 60 = b2n order ∧
    bits (ivlWord d cold tie order ovf) 39 0 = unsgn 40 d := by
  obtain ⟨hcold, htie, horder, hovf, hd⟩ := ivlWord_fields_lt d cold tie order ovf
  have hvalid : b2n true = 1 := rfl
  unfold bits ivlWord
  omega

end IvlWord

/-! ## The engines -/

theorem Hub.ivl_setIvl (h : Hub) (a b : Nat) (x : Ivl) :
    (h.setIvl a x).ivl b = if b = a then x else h.ivl b := SMap.get_set _ _ _ _ _

/-- Hub h with engine e in state n, its own state x. -/
def Hub.ivlMoved (h : Hub) (e : Nat) (x : Ivl) (n : Nat) : Hub := (h.setIvl e x).put (IVL_STATUS_STATE e) n

section IvlMoved

variable (h : Hub) (e : Nat) (x : Ivl) (n : Nat)

theorem Hub.ivl_ivlMoved_self : (h.ivlMoved e x n).ivl e = x := (h.ivl_setIvl e e x).trans (if_pos rfl)

theorem Hub.ivl_ivlMoved_ne {k : Nat} (hk : k ≠ e) : (h.ivlMoved e x n).ivl k = h.ivl k :=
  (h.ivl_setIvl e k x).trans (if_neg hk)

theorem Hub.state_ivlMoved : (h.ivlMoved e x n).get (IVL_STATUS_STATE e) = n % 4 :=
  Hub.get_put_self _ (IVL_STATUS_STATE e) n (Nat.zero_le 1) (by decide : 1 < 32)

theorem Hub.done_ivlMoved : (h.ivlMoved e x n).on (IVL_STATUS_DONE e) = h.on (IVL_STATUS_DONE e) :=
  Hub.on_put_apart (h.setIvl e x) n (Nat.zero_le 1) (le_refl 2) (by decide : 2 < 32) (.inr (by decide : 1 < 2))

theorem Hub.regsBut_ivlMoved : RegsBut [(IVL_STATUS e).addr] h (h.ivlMoved e x n) :=
  Hub.regsBut_put (h.setIvl e x) (IVL_STATUS_STATE e) n

end IvlMoved

theorem Hub.OnlyRegs.ivlMoved_frame {as : List Nat} {h g : Hub} (H : OnlyRegs as h g) (e : Nat) (x : Ivl) (n : Nat) :
    g.ivlMoved e x n = { h with regs := (g.ivlMoved e x n).regs, ivls := (g.ivlMoved e x n).ivls } :=
  congrArg (fun k : Hub => { k with regs := (g.ivlMoved e x n).regs, ivls := (g.ivlMoved e x n).ivls }) H.1

/-! ## The first edge (R243) -/

section FirstEdge

variable {h : Hub} {e src : Nat} {falling : Bool} (v : Nat)

/-- The hub after the first edge: the engine keeps whether it was the stop, its time value and COLD. -/
def Hub.ivlFirstTaken (h : Hub) (e src : Nat) (falling : Bool) (v : Nat) : Hub :=
  h.ivlMoved e { h.ivl e with first := some (!isStart (h.ivl e).cfg src falling, v, !h.warm) } 2

theorem Hub.ivlFirst_of_wanted (hs : h.get (IVL_STATUS_STATE e) = 1) (ht : (h.ivl e).armFrom ≤ h.clk.tick)
    (hw : (isStart (h.ivl e).cfg src falling || isStop (h.ivl e).cfg src falling) = true) :
    h.ivlFirst e src falling v = h.ivlFirstTaken e src falling v := by
  have hwants : h.ivlWants e src falling = true := by simp [Hub.ivlWants, hs, hw]
  refine if_neg ?_
  rintro (hstate | hearly | hother)
  · exact hstate hs
  · exact hearly.not_ge ht
  · simp [hwants] at hother

theorem Hub.ivlFirst_of_unwanted
    (hw : (isStart (h.ivl e).cfg src falling || isStop (h.ivl e).cfg src falling) = false) :
    h.ivlFirst e src falling v = h := by
  have hwants : h.ivlWants e src falling = false := by simp [Hub.ivlWants, hw]
  exact if_pos (.inr (.inr (by simp [hwants])))

end FirstEdge

/-! ## The second edge in SINGLE mode (R243 to R245) -/

theorem ivlCount_not_mem_result (e : Nat) : (IVL_COUNT e).addr ∉ [(IVL_RESULT e).addr, (IVL_RESULT e).addr + 4] := by
  simp [IVL_COUNT, IVL_RESULT]
  omega

theorem ivlResult_not_mem_count_status (e : Nat) : ∀ a ∈ [(IVL_RESULT e).addr, (IVL_RESULT e).addr + 4],
    a ∉ [(IVL_COUNT e).addr, (IVL_STATUS e).addr] := by
  simp [IVL_COUNT, IVL_RESULT, IVL_STATUS]
  omega

/-- Hub h with word r in IVL_RESULT, counted, and DONE set. -/
def Hub.ivlStored (h : Hub) (e r : Nat) : Hub :=
  ((h.w64 (IVL_RESULT e) r).inc (IVL_COUNT e)).set1 (IVL_STATUS_DONE e)

section IvlStored

variable (h : Hub) (e r : Nat)

theorem Hub.count_ivlStored : (h.ivlStored e r).get (IVL_COUNT e) = (h.get (IVL_COUNT e) + 1) % 2 ^ 32 := by
  have hw : (h.w64 (IVL_RESULT e) r).get (IVL_COUNT e) = h.get (IVL_COUNT e) :=
    (h.regsBut_w64 _ r).get _ (ivlCount_not_mem_result e)
  rw [Hub.ivlStored, (Hub.regsBut_set1 _ _).get _ (by simp [IVL_COUNT, IVL_STATUS_DONE]), ← hw]
  exact Hub.get_put_self _ (IVL_COUNT e) _ (Nat.zero_le 31) (by decide : 31 < 32)

theorem Hub.done_ivlStored : (h.ivlStored e r).on (IVL_STATUS_DONE e) = true :=
  Hub.on_set1 _ (le_refl 2) (by decide : 2 < 32)

/-- Beyond the result's two words, the count and the status alone are written. -/
theorem Hub.onlyRegs_ivlStored :
    OnlyRegs [(IVL_COUNT e).addr, (IVL_STATUS e).addr] (h.w64 (IVL_RESULT e) r) (h.ivlStored e r) :=
  (Hub.onlyRegs_put (h.w64 (IVL_RESULT e) r) (IVL_COUNT e) _).trans (Hub.onlyRegs_put _ (IVL_STATUS_DONE e) 1)

end IvlStored

section Ended

variable (h : Hub) (e r : Nat)

/-- The hub after a result r of an engine that does not re-arm. -/
def Hub.ivlEnded : Hub := (h.ivlStored e r).ivlMoved e {} 0

theorem Hub.ivlEnded_frame :
    h.ivlEnded e r = { h with regs := (h.ivlEnded e r).regs, ivls := (h.ivlEnded e r).ivls } :=
  ((h.onlyRegs_w64 (IVL_RESULT e) r).trans (h.onlyRegs_ivlStored e r)).ivlMoved_frame e {} 0

theorem Hub.regsBut_ivlEnded_w64 :
    RegsBut [(IVL_COUNT e).addr, (IVL_STATUS e).addr] (h.w64 (IVL_RESULT e) r) (h.ivlEnded e r) :=
  (h.onlyRegs_ivlStored e r).2.trans (Hub.regsBut_ivlMoved _ e _ _) (by simp)

theorem Hub.result_ivlEnded : (h.ivlEnded e r).r64 (IVL_RESULT e) = r % 2 ^ 64 := by
  rw [(h.regsBut_ivlEnded_w64 e r).r64 _ (ivlResult_not_mem_count_status e _ (by simp))
    (ivlResult_not_mem_count_status e _ (by simp)), Hub.r64_w64]

theorem Hub.count_ivlEnded : (h.ivlEnded e r).get (IVL_COUNT e) = (h.get (IVL_COUNT e) + 1) % 2 ^ 32 :=
  ((Hub.regsBut_ivlMoved _ e _ _).get _ (by simp [IVL_COUNT, IVL_STATUS])).trans (h.count_ivlStored e r)

theorem Hub.done_ivlEnded : (h.ivlEnded e r).on (IVL_STATUS_DONE e) = true :=
  (Hub.done_ivlMoved _ e _ _).trans (h.done_ivlStored e r)

theorem Hub.regsBut_ivlEnded :
    RegsBut [(IVL_RESULT e).addr, (IVL_RESULT e).addr + 4, (IVL_COUNT e).addr, (IVL_STATUS e).addr] h
      (h.ivlEnded e r) :=
  ((h.regsBut_w64 (IVL_RESULT e) r).mono (by simp)).trans (h.regsBut_ivlEnded_w64 e r) (by simp)

end Ended

section SecondEdge

variable {h : Hub} {e src v0 : Nat} {falling stop cold : Bool} (v : Nat)

theorem Hub.ivlWrite_of_single (hm : bit (h.ivl e).cfg 16 = false) (d : Int) (cold tie order ovf : Bool) :
    h.ivlWrite e d cold tie order ovf = h.ivlEnded e (ivlWord d cold tie order ovf) := by
  have hm' (r : Nat) : bit ((h.ivlStored e r).ivl e).cfg 16 = false := hm
  unfold Hub.ivlWrite Hub.ivlEnded Hub.ivlMoved
  exact if_neg (Bool.eq_false_iff.mp (hm' _))

theorem Hub.ivlSecond_of_other (hf : (h.ivl e).first = some (stop, v0, cold))
    (hk : (if stop then isStart (h.ivl e).cfg src falling else isStop (h.ivl e).cfg src falling) = false) :
    h.ivlSecond e src falling v = h := by
  simp only [Hub.ivlSecond, hf, hk, Bool.not_false, if_true]

theorem Hub.ivlSecond_of_taken (hf : (h.ivl e).first = some (stop, v0, cold)) (hm : bit (h.ivl e).cfg 16 = false)
    (hk : (if stop then isStart (h.ivl e).cfg src falling else isStop (h.ivl e).cfg src falling) = true) :
    h.ivlSecond e src falling v =
      let d := if stop then valueDiff v0 v else valueDiff v v0
      h.ivlEnded e (ivlWord d (cold || !h.warm) (d == 0) (decide (d < 0)) false) := by
  simp only [Hub.ivlSecond, hf, hk, Bool.not_true, Bool.false_eq_true, if_false, Hub.ivlWrite_of_single hm]

end SecondEdge

/-- Settles O41: the first edge is `Hub.ivlFirstTaken`, and the result of the edge of the other kind `Hub.ivlEnded`
with the word `ivlWord`. -/
theorem intervalMeasurement : Obligations.IntervalMeasurement := by
  intro s e src falling v ha
  have hfirst : exec (.ivlFirstEdge e ⟨src, falling⟩ v) s = s.actAwake fun h => h.ivlFirst e src falling v.toNat := rfl
  have hsecond : exec (.ivlResult e ⟨⟨src, falling⟩, v⟩) s =
      s.actAwake fun h => h.ivlSecond e src falling v.toNat := rfl
  refine ⟨fun hs ht => ⟨fun hw => .of_actAwake hfirst ha ?_, fun hw => ?_⟩,
    fun first v0 cold hf hm => ⟨fun hk => ?_, fun hk => .of_actAwake hsecond ha ?_⟩⟩
  · rw [Hub.ivlFirst_of_wanted v.toNat hs ht hw]
    exact ⟨s.hub.ivl_ivlMoved_self e _ 2, s.hub.state_ivlMoved e _ 2, fun k hk => s.hub.ivl_ivlMoved_ne e _ 2 hk, rfl,
      s.hub.regsBut_ivlMoved e _ 2⟩
  · rw [hfirst, State.actAwake_of_awake ha, Hub.ivlFirst_of_unwanted v.toNat hw]
  · rw [hsecond, State.actAwake_of_awake ha, Hub.ivlSecond_of_other v.toNat hf hk]
  · rw [Hub.ivlSecond_of_taken v.toNat hf hm hk]
    dsimp only
    generalize (if first then valueDiff v0 v.toNat else valueDiff v.toNat v0) = d
    obtain ⟨hvalid, hcold, htie, horder, hdiff⟩ := bits_ivlWord d (cold || !s.hub.warm) (d == 0) (decide (d < 0)) false
    rw [Hub.result_ivlEnded, Nat.mod_eq_of_lt (ivlWord_lt _ _ _ _ _)]
    exact ⟨hdiff, bit_of_bits hvalid, bit_of_bits hcold, bit_of_bits htie, bit_of_bits horder,
      s.hub.count_ivlEnded e _, s.hub.done_ivlEnded e _, Hub.state_ivlMoved _ e _ 0, Hub.ivl_ivlMoved_self _ e _ 0,
      s.hub.ivlEnded_frame e _, s.hub.regsBut_ivlEnded e _⟩

end Sys2Proof.Machine
end

section
/-! Calibration queues: what a host request leaves in the queue of its block and in QUEUED (R294, R303). -/

namespace Sys2Proof.Machine

/-! ## Masks -/

theorem bit_eq_testBit (n i : Nat) : bit n i = n.testBit i :=
  (Nat.testBit_eq_decide_div_mod_eq).symm

theorem maskOf_succ (n : Nat) (p : Nat → Bool) :
    maskOf (n + 1) p = if p n then 2 ^ n + maskOf n p else maskOf n p := by
  simp only [maskOf, List.range_succ, List.foldl_append, List.foldl_cons, List.foldl_nil, Nat.add_comm]

theorem maskOf_lt (n : Nat) (p : Nat → Bool) : maskOf n p < 2 ^ n := by
  induction n with
  | zero => exact Nat.one_pos
  | succ n ih =>
    rw [maskOf_succ, Nat.pow_succ]
    split <;> omega

/-- A mask shows its predicate, place by place. -/
theorem bit_maskOf {n k : Nat} (hk : k < n) (p : Nat → Bool) : bit (maskOf n p) k = p k := by
  rw [bit_eq_testBit]
  induction n with
  | zero => exact absurd hk (Nat.not_lt_zero k)
  | succ n ih =>
    rw [maskOf_succ]
    obtain hlt | rfl := Nat.lt_succ_iff_lt_or_eq.mp hk
    · split
      · rw [Nat.testBit_two_pow_add_gt hlt, ih hlt]
      · exact ih hlt
    · have htop : (maskOf k p).testBit k = false := Nat.testBit_lt_two_pow (maskOf_lt k p)
      split
      case isTrue hp => rw [Nat.testBit_two_pow_add_eq, htop, hp, Bool.not_false]
      case isFalse hp => rw [htop, Bool.eq_false_iff.mpr hp]

/-! ## Storing the queue of a block -/

theorem Hub.calBlk_setCalBlk (h : Hub) (a b : Nat) (x : CalBlk) :
    (h.setCalBlk a x).calBlk b = if b = a then x else h.calBlk b := SMap.get_set _ _ _ _ _

section SetCalQueue

variable (h : Hub) (j : Nat) (q : List CalReq)

theorem Hub.calBlk_setCalQueue_self : (h.setCalQueue j q).calBlk j = { h.calBlk j with queue := q } :=
  (h.calBlk_setCalBlk j j _).trans (if_pos rfl)

theorem Hub.calBlk_setCalQueue_ne {i : Nat} (hi : i ≠ j) : (h.setCalQueue j q).calBlk i = h.calBlk i :=
  (h.calBlk_setCalBlk j i _).trans (if_neg hi)

/-- QUEUED shows the cells of the queue stored (R303). -/
theorem Hub.queued_setCalQueue {k : Nat} (hk : k < 17) :
    bit ((h.setCalQueue j q).get (CAL_BLK_STATUS_QUEUED j)) k = q.any fun r => r.cell == k := by
  have hget : (h.setCalQueue j q).get (CAL_BLK_STATUS_QUEUED j) =
      maskOf 17 (fun c => q.any fun r => r.cell == c) % 2 ^ 17 :=
    Hub.get_put_self _ (CAL_BLK_STATUS_QUEUED j) _ (Nat.zero_le 16) (by decide : 16 < 32)
  rw [hget, bit_mod hk, bit_maskOf hk]

theorem Hub.setCalQueue_frame :
    h.setCalQueue j q = { h with regs := (h.setCalQueue j q).regs, cal := (h.setCalQueue j q).cal } := rfl

theorem Hub.regsBut_setCalQueue : RegsBut [(CAL_BLK_STATUS j).addr] h (h.setCalQueue j q) :=
  Hub.regsBut_put (h.setCalBlk j { h.calBlk j with queue := q }) (CAL_BLK_STATUS_QUEUED j) _

end SetCalQueue

/-! ## A host request (R294) -/

/-- A queued calibration after the host has asked for cell c. -/
def CalReq.hostAsked (c : Nat) (r : CalReq) : CalReq := if r.cell = c then { r with host := true } else r

@[simp] theorem CalReq.cell_hostAsked (c : Nat) (r : CalReq) : (r.hostAsked c).cell = r.cell := by
  unfold CalReq.hostAsked
  split <;> rfl

theorem map_cell_hostAsked (c : Nat) (q : List CalReq) :
    (q.map (CalReq.hostAsked c)).map CalReq.cell = q.map CalReq.cell := by
  simp [Function.comp_def]

section HostRequest

variable {h : Hub} {j c : Nat}

/-- A host request for a queued cell is noted at its entry (log entry 63). -/
theorem Hub.calQueue_host_of_queued (hq : ((h.calBlk j).queue.any fun r => r.cell == c) = true) :
    h.calQueue j c 1 false = h.setCalQueue j ((h.calBlk j).queue.map (CalReq.hostAsked c)) := by
  unfold Hub.calQueue
  rw [if_pos hq]
  refine congrArg (h.setCalQueue j) (List.map_congr_left fun r _ => ?_)
  simp [CalReq.hostAsked]

/-- A host request for another cell enters with host rank. -/
theorem Hub.calQueue_host_of_not_queued (hq : ((h.calBlk j).queue.any fun r => r.cell == c) = false) :
    h.calQueue j c 1 false = h.setCalQueue j ((h.calBlk j).queue ++ [⟨c, 1, true, false⟩]) := by
  simp [Hub.calQueue, hq]

end HostRequest

/-- Queued already or not, a host request stores a queue of its block and does nothing else. -/
theorem Hub.calQueue_host_eq_setCalQueue (h : Hub) (j c : Nat) :
    ∃ q, h.calQueue j c 1 false = h.setCalQueue j q := by
  cases hq : (h.calBlk j).queue.any fun r => r.cell == c
  · exact ⟨_, Hub.calQueue_host_of_not_queued hq⟩
  · exact ⟨_, Hub.calQueue_host_of_queued hq⟩

/-! ## The command -/

/-- A command that a keeper serves has the effect of its operation while the hub is not keeperless (R471, R545). -/
theorem Serves.of_serve {c : Instr} {m : Nat} {r : RF} {op : KeeperOp}
    (e : ∀ s, exec c s = s.actAwake fun h => h.serve m r true op) : Serves c m r.addr fun h => h.keeperDo op := by
  intro s ha hm hk
  have hserve : s.hub.serve m r true op = s.hub.keeperDo op := by simp [Hub.serve, Hub.keeperServed, hm, hk]
  rw [e, State.actAwake_of_awake ha, hserve]

theorem serves_calReq (m : Fin 4) (j : Fin 24) (c : Fin 17) :
    Serves (.calReq m j c) m CAL_REQ.addr fun h => h.calQueue j c 1 false :=
  Serves.of_serve (op := .calReq j c) fun _ => rfl

/-- Settles O55: a host request stores the queue of its block, with its cell's entry noted or a new entry. -/
theorem oneQueuedCalibrationPerCell : Obligations.OneQueuedCalibrationPerCell := by
  intro s m j c ha hm hk q
  have hqueue (l : List CalReq) : ((s.hub.setCalQueue j l).calBlk j).queue = l := by
    rw [Hub.calBlk_setCalQueue_self]
  refine ⟨s.hub.calQueue j c 1 false, serves_calReq m j c s ha hm hk, fun hq => ?_, fun hq => ?_, ?_⟩
  · rw [Hub.calQueue_host_of_queued hq, hqueue]
    exact ⟨map_cell_hostAsked c q, rfl⟩
  · rw [Hub.calQueue_host_of_not_queued hq, hqueue]
  · obtain ⟨l, e⟩ := s.hub.calQueue_host_eq_setCalQueue j c
    rw [e, hqueue]
    exact ⟨fun k => s.hub.queued_setCalQueue j l k.isLt, by rw [Hub.calBlk_setCalQueue_self],
      fun i hi => s.hub.calBlk_setCalQueue_ne j l hi, s.hub.setCalQueue_frame j l, s.hub.regsBut_setCalQueue j l⟩

end Sys2Proof.Machine
end

section
/-! Failed trainings: the cause and the counts of a failure (R312, R313). -/

namespace Sys2Proof.Machine

/-! ## Counts that saturate -/

theorem satInc_le {top n : Nat} : satInc top n ≤ top := by
  unfold satInc
  split <;> omega

/-- A count at its top stays there. -/
theorem satInc_of_le_top {top n : Nat} (hn : n ≤ top) : satInc top n = if n < top then n + 1 else n := by
  unfold satInc
  split <;> omega

/-- A field of `b` bits saturates at all ones. -/
theorem Hub.get_incSat (h : Hub) (f : RF) (hl : f.lo ≤ f.hi) (hh : f.hi < 32) :
    (h.incSat f).get f = satInc (2 ^ (f.hi - f.lo + 1) - 1) (h.get f) := by
  have ht : satInc (2 ^ (f.hi - f.lo + 1) - 1) (h.get f) < 2 ^ (f.hi - f.lo + 1) :=
    satInc_le.trans_lt (Nat.sub_lt (Nat.two_pow_pos _) Nat.one_pos)
  rw [Hub.incSat, h.get_put_self f _ hl hh, Nat.mod_eq_of_lt ht]

/-! ## A training fails -/

/-- Lane l enters DOWN with the cause named. -/
def Hub.downFor (h : Hub) (l cause : Nat) : Hub := (h.setLs l 1).put (lCause l) cause

/-- The failure counts in the run of failures of lane l. -/
def Hub.runCounted (h : Hub) (l : Nat) : Hub := h.put (lRun l) (satInc 11 (h.get (lRun l)))

section TrainFail

variable (h : Hub) (l cause : Nat)

/-- A failure is the entry into DOWN, and then its two counts. -/
theorem Hub.trainFail_eq : h.trainFail l cause = ((h.downFor l cause).runCounted l).incSat (lTotal l) := rfl

theorem Hub.ls_downFor : (h.downFor l cause).ls l = 1 :=
  calc (h.downFor l cause).get (lState l)
      = (h.setLs l 1).get (lState l) :=
        Hub.get_put_below _ (lCause l) _ _ (by simp [lState]) (by simp [lState]) (by simp [lState, lCause])
    _ = 1 := h.get_put_self (lState l) 1 (by simp [lState]) (by simp [lState])

theorem Hub.cause_downFor : (h.downFor l cause).get (lCause l) = cause % 2 ^ 4 :=
  Hub.get_put_self _ (lCause l) cause (by simp [lCause]) (by simp [lCause])

theorem Hub.onlyRegs_downFor : OnlyRegs [laneBase l + 8] h (h.downFor l cause) :=
  ((h.onlyRegs_put (lState l) 1).trans (Hub.onlyRegs_put _ (lCause l) cause)).mono (by simp [lState, lCause])

theorem Hub.run_runCounted : (h.runCounted l).get (lRun l) = satInc 11 (h.get (lRun l)) := by
  have ht : satInc 11 (h.get (lRun l)) < 2 ^ 4 := satInc_le.trans_lt (by decide)
  exact (h.get_put_self (lRun l) _ (by simp [lRun]) (by simp [lRun])).trans (Nat.mod_eq_of_lt ht)

theorem Hub.total_runCounted : (h.runCounted l).get (lTotal l) = h.get (lTotal l) :=
  h.get_put_above (lRun l) (lTotal l) _ (by simp [lRun]) (by simp [lTotal]) (by simp [lTotal]) (by simp [lRun, lTotal])

/-- Both counts stand in the failure register. -/
theorem Hub.onlyRegs_failureCounted : OnlyRegs [laneBase l + 12] h ((h.runCounted l).incSat (lTotal l)) :=
  ((h.onlyRegs_put (lRun l) _).trans (Hub.onlyRegs_put _ (lTotal l) _)).mono (by simp [lRun, lTotal])

/-- The STATUS register stands beside the failure counts. -/
theorem Hub.status_trainFail {f : RF} (hf : f.addr = laneBase l + 8) :
    (h.trainFail l cause).get f = (h.downFor l cause).get f :=
  (Hub.onlyRegs_failureCounted _ l).2.get f (by simp [hf])

/-- The failure counts stand beside the STATUS register. -/
theorem Hub.failures_downFor {f : RF} (hf : f.addr = laneBase l + 12) : (h.downFor l cause).get f = h.get f :=
  (h.onlyRegs_downFor l cause).2.get f (by simp [hf])

theorem Hub.ls_trainFail : (h.trainFail l cause).ls l = 1 :=
  (h.status_trainFail l cause rfl).trans (h.ls_downFor l cause)

theorem Hub.cause_trainFail : (h.trainFail l cause).get (lCause l) = cause % 2 ^ 4 :=
  (h.status_trainFail l cause rfl).trans (h.cause_downFor l cause)

/-- The run of failures counts up to 11 (R313). -/
theorem Hub.run_trainFail : (h.trainFail l cause).get (lRun l) = satInc 11 (h.get (lRun l)) := by
  rw [Hub.trainFail_eq, Hub.incSat, Hub.get_put_below, Hub.run_runCounted, Hub.failures_downFor] <;>
    simp [lRun, lTotal]

theorem Hub.total_trainFail : (h.trainFail l cause).get (lTotal l) = satInc 65535 (h.get (lTotal l)) := by
  rw [Hub.trainFail_eq, Hub.get_incSat, Hub.total_runCounted, Hub.failures_downFor] <;> simp [lTotal]

theorem Hub.onlyRegs_trainFail : OnlyRegs [laneBase l + 8, laneBase l + 12] h (h.trainFail l cause) :=
  (h.onlyRegs_downFor l cause).trans (Hub.onlyRegs_failureCounted _ l)

end TrainFail

/-- Settles O56: from COMMA to IDENT the timeout is a failure with CAUSE 1, and in any other state it is none. -/
theorem trainingTimeout : Obligations.TrainingTimeout := by
  intro s l ha
  have e : exec (.trainTimeout l) s = s.actAwake fun h => h.trainTimeout l := rfl
  refine ⟨fun hlo hhi => .of_actAwake e ha ?_, fun hout => ?_⟩
  · have hfail : s.hub.trainTimeout l = s.hub.trainFail l 1 := if_pos ⟨hlo, hhi⟩
    have htotal : s.hub.get (lTotal l) ≤ 65535 := Nat.le_of_lt_succ (s.hub.get_lt (lTotal l))
    rw [hfail]
    exact ⟨s.hub.ls_trainFail l 1, s.hub.cause_trainFail l 1, s.hub.run_trainFail l 1,
      (s.hub.total_trainFail l 1).trans (satInc_of_le_top htotal), s.hub.onlyRegs_trainFail l 1⟩
  · have hkept : s.hub.trainTimeout l = s.hub := if_neg (by omega)
    rw [e, State.actAwake_of_awake ha, hkept]

end Sys2Proof.Machine
end

section
/-! Faults: which commands end in one (log entry 37). -/

namespace Sys2Proof.Machine

/-- A command that can be sent runs, and any other ends in the fault illFormed: seven commands check their operands,
with the check that `Instr.wellFormed` makes, and the others act. -/
theorem exec_next_or_illFormed (c : Instr) (s : State) :
    ∃ t, exec c s = if c.wellFormed then .next t else .fault .illFormed := by
  cases c with
  | trainEqDone | dlFrame | spokeUpstreamFrame | leafIdent | leafWindowAccess | flashLineFetchDone
  | pwrSupplyMeasure => exact ⟨_, rfl⟩
  | _ => exact ⟨_, (if_pos rfl).symm⟩

/-- Settles O9: a command has either outcome of `exec_next_or_illFormed`, by `Instr.wellFormed`. -/
theorem illFormedFaults : Obligations.IllFormedFaults := by
  refine ⟨fun c s hc => ?_, fun c s f hf => ?_⟩ <;> obtain ⟨t, e⟩ := exec_next_or_illFormed c s
  · rw [e, hc]
    rfl
  · by_contra hc
    rw [hf, if_pos (by simpa using hc)] at e
    cases e

end Sys2Proof.Machine
end

section
/-! Fast commands that are not enabled or not armed (R335). -/

namespace Sys2Proof.Machine

/-- From `h` to `g` a fast command is ignored: it is counted, its flag is set, and nothing else changes (R335). -/
def Hub.FcIgnoredBy (flag : RF) (h g : Hub) : Prop :=
  g.get DL_FC_IGNORED = (h.get DL_FC_IGNORED + 1) % 2 ^ 32 ∧ g.on flag = true ∧
    OnlyRegs [DL_FC_IGNORED.addr, DL_CTL_STATUS.addr] h g

section Ignored

variable (h : Hub)

/-- The count stands beside DL_CTL_STATUS, so that setting a flag there leaves it. -/
theorem Hub.fcIgnoredBy_inc_set1 {flag : RF} (ha : flag.addr = DL_CTL_STATUS.addr) (hl : flag.lo ≤ flag.hi)
    (hh : flag.hi < 32) : FcIgnoredBy flag h ((h.inc DL_FC_IGNORED).set1 flag) := by
  have hne : DL_FC_IGNORED.addr ≠ flag.addr := ha ▸ (by decide)
  have hregs : OnlyRegs ([DL_FC_IGNORED.addr] ++ [flag.addr]) h ((h.inc DL_FC_IGNORED).set1 flag) :=
    (h.onlyRegs_put DL_FC_IGNORED _).trans (Hub.onlyRegs_put _ flag 1)
  exact ⟨(Hub.get_put_ne _ flag _ 1 hne).trans (h.get_inc_word _), Hub.on_set1 _ hl hh, ha ▸ hregs⟩

theorem Hub.fcIgnoredBy_fcIgnored : FcIgnoredBy DL_CTL_STATUS_FC_IGNORED h h.fcIgnored :=
  h.fcIgnoredBy_inc_set1 rfl (Nat.le_refl 0) (by decide)

/-- A gate whose enable bit is clear ignores the command, whatever it would do. -/
theorem Hub.fcIgnoredBy_fcGate {en : RF} (act : Hub → Hub) (hoff : h.on en = false) :
    FcIgnoredBy DL_CTL_STATUS_FC_IGNORED h (h.fcGate en act) := by
  have hgate : h.fcGate en act = h.fcIgnored := if_neg (by simp [hoff])
  rw [hgate]
  exact h.fcIgnoredBy_fcIgnored

theorem Hub.fcIgnoredBy_hardReset (hoff : h.hrstArmed = false) :
    FcIgnoredBy DL_CTL_STATUS_HRST_IGNORED h h.hardReset := by
  have hreset : h.hardReset = (h.inc DL_FC_IGNORED).set1 DL_CTL_STATUS_HRST_IGNORED := if_neg (by simp [hoff])
  rw [hreset]
  exact h.fcIgnoredBy_inc_set1 rfl (Nat.le_refl 1) (by decide)

end Ignored

/-- A command that acts through the gate of an enable bit that is clear is ignored. -/
theorem gives_fcIgnoredBy_of_disabled {s : State} {c : Instr} {en : RF} {act : Hub → Hub}
    (e : exec c s = s.actAwake fun h => h.fcGate en act) (ha : s.hub.awake = true) (hoff : s.hub.on en = false) :
    s.Gives c (Hub.FcIgnoredBy DL_CTL_STATUS_FC_IGNORED s.hub) :=
  .of_actAwake e ha (s.hub.fcIgnoredBy_fcGate act hoff)

/-- Settles O37: six commands act through the gate of their enable bits, and HARD_RESET tests its arming. -/
theorem disabledFastCommands : Obligations.DisabledFastCommands := by
  intro s ha quiet
  have hardReset : exec .hardReset s = s.actAwake fun h => h.hardReset := rfl
  exact ⟨gives_fcIgnoredBy_of_disabled (act := Hub.bxSetActs) rfl ha,
    gives_fcIgnoredBy_of_disabled (act := Hub.recSyncActs) rfl ha,
    gives_fcIgnoredBy_of_disabled (act := Hub.runStart) rfl ha,
    gives_fcIgnoredBy_of_disabled (act := Hub.runStop) rfl ha,
    gives_fcIgnoredBy_of_disabled (act := Hub.cfgApplyFast) rfl ha,
    gives_fcIgnoredBy_of_disabled (act := Hub.calStrobe) rfl ha,
    fun hoff => .of_actAwake hardReset ha (s.hub.fcIgnoredBy_hardReset hoff)⟩

end Sys2Proof.Machine
end

section
/-! Steps of the machine: the front command, queues of commands that can be sent, and what single commands keep
(R415, R418, R528). -/

namespace Sys2Proof.Machine

/-! ## The queue of commands -/

theorem step_cons (s : State) (c : Instr) (rest : List Instr) :
    step { s with pending := c :: rest } = exec c { s with pending := rest } := rfl

theorem step_nil (s : State) :
    step { s with pending := [] } = .next { s with pending := [], hub := s.hub.microsecond } := rfl

/-- Settles O1: the two cases of `step`. -/
theorem stepTakesFront : Obligations.StepTakesFront := ⟨step_cons, step_nil⟩

theorem State.pending_act {s t : State} {f : Hub → Hub} (e : s.act f = .next t) : t.pending = s.pending := by
  cases e
  rfl

theorem State.pending_actAwake {s t : State} {f : Hub → Hub} (e : s.actAwake f = .next t) :
    t.pending = s.pending :=
  State.pending_act e

/-- No command touches the queue: each acts on the hub, seven of them after a check of their operands. -/
theorem pending_exec {s t : State} {c : Instr} (e : exec c s = .next t) : t.pending = s.pending := by
  unfold exec at e
  cases c with
  | trainEqDone | dlFrame | spokeUpstreamFrame | leafIdent | leafWindowAccess | flashLineFetchDone
  | pwrSupplyMeasure => exact State.pending_act (next_of_guard e)
  | _ => exact State.pending_act e

/-- A command that can be sent runs, and leaves the queue as it is. -/
theorem exec_of_wellFormed {c : Instr} (hc : c.wellFormed = true) (s : State) :
    ∃ t, exec c s = .next t ∧ t.pending = s.pending := by
  obtain ⟨t, e⟩ := exec_next_or_illFormed c s
  rw [hc, if_pos rfl] at e
  exact ⟨t, e, pending_exec e⟩

/-- With only commands that can be sent waiting, a step takes the front one and leaves the others. -/
theorem step_of_sendable {s : State} (hs : s.Sendable) : ∃ t, step s = .next t ∧ t.pending = s.pending.tail := by
  obtain ⟨hub, pending⟩ := s
  cases pending with
  | nil => exact ⟨_, step_nil ⟨hub, []⟩, rfl⟩
  | cons c rest =>
    obtain ⟨t, e, ht⟩ := exec_of_wellFormed (hs c List.mem_cons_self) ⟨hub, rest⟩
    exact ⟨t, (step_cons ⟨hub, rest⟩ c rest).trans e, ht⟩

theorem State.Sendable.of_pending_tail {s t : State} (hs : s.Sendable) (ht : t.pending = s.pending.tail) :
    t.Sendable := fun c hc => hs c (List.mem_of_mem_tail (ht ▸ hc))

/-- Every step answers a next state of the same kind, so any number of them runs. -/
theorem State.runs_of_sendable (n : Nat) {s : State} (hs : s.Sendable) : State.runs n s := by
  induction n generalizing s with
  | zero => trivial
  | succ n ih =>
    obtain ⟨t, e, ht⟩ := step_of_sendable hs
    exact ⟨t, e, ih (hs.of_pending_tail ht)⟩

/-- Settles O2, by `step_of_sendable` and induction on the number of steps. -/
theorem sendableStepsRun : Obligations.SendableStepsRun := by
  intro s hs
  obtain ⟨t, e, ht⟩ := step_of_sendable hs
  exact ⟨⟨t, e, ht, hs.of_pending_tail ht⟩, fun n => State.runs_of_sendable n hs⟩

/-! ## Keys, the test access port and nonces -/

theorem Instr.programsKey_eq_false {c : Instr} (hc : ∀ good, c ≠ .sesKeyProgramDone good) : c.programsKey = false := by
  cases c with
  | sesKeyProgramDone good => exact absurd rfl (hc good)
  | _ => rfl

/-- Settles O6, by what every command keeps. -/
theorem keysChangeOnlyByProgramming : Obligations.KeysChangeOnlyByProgramming := fun _ _ _ hs hc e =>
  (exec_keptBy hs e).keys (Instr.programsKey_eq_false hc)

/-- Settles O7, by what every command keeps: each command that loads the port is one of the eight. -/
theorem tapChangesOnlyByTap : Obligations.TapChangesOnlyByTap := by
  intro s t c hs hc e
  refine (exec_keptBy hs e).tap ?_
  obtain ⟨hreset, hextest, hhighz, hclamp, hpulse, htrain, hbypass, hpreload⟩ := hc
  cases c with
  | tapReset | extest | highz | clamp | extestPulse | extestTrain | bypass => contradiction
  | samplePreload w => exact absurd rfl (hpreload w)
  | _ => rfl

/-- Settles O8, by what every command keeps. -/
theorem noncesNeverReused : Obligations.NoncesNeverReused := fun _ _ _ hs e => (exec_keptBy hs e).nonces

end Sys2Proof.Machine
end

section
/-! The machine right after reset (R494, R505). -/

namespace Sys2Proof.Machine

/-- With no register written, every register reads its reset value. -/
theorem Hub.rd_reset (a : Nat) : Hub.reset.rd a = (resetWord [] a).toNat := rfl

theorem Hub.sound_reset : Hub.reset.Sound := ⟨by decide, by decide, rfl⟩

theorem rd_CELL_CTRL_reset : ∀ (j : Fin 24) (c : Fin 17), Hub.reset.rd (CELL_CTRL j c).addr = 0x00201403 := by
  decide +kernel

theorem rd_HNG_ROT_MASK_reset : ∀ j : Fin 24, Hub.reset.rd (HNG_ROT_MASK j).addr = 0xFFFF := by decide +kernel

theorem rd_HNG_TOL_reset : ∀ j : Fin 24, Hub.reset.rd (HNG_TOL j).addr = 48 := by decide +kernel

/-- Settles O4: the tables of the reset hub are empty, and its registers read the reset values of the map. -/
theorem resetState : Obligations.ResetState :=
  ⟨Hub.sound_reset, rfl, rfl, by decide, by decide, by decide, rd_CELL_CTRL_reset,
    fun j => ⟨rd_HNG_ROT_MASK_reset j, rd_HNG_TOL_reset j⟩, fun _ => rfl, fun _ => rfl⟩

end Sys2Proof.Machine
end

section
/-! Commands that act, and commands that are accesses of registers: the forms of their effects (R6, R447, R448, R471). -/

namespace Sys2Proof.Machine

/-! ## Commands that act -/

section Acting

variable {c : Instr} {f : Hub → Hub}

theorem Acts.of_actAwake (e : ∀ s, exec c s = s.actAwake f) : Acts c f :=
  fun s ha => (e s).trans (State.actAwake_of_awake ha)

/-- A command that checks its operands acts where they pass. -/
theorem Acts.of_guard {p : Prop} [Decidable p] {r : Fault}
    (e : ∀ s, exec c s = if p then s.actAwake f else .fault r) (hp : p) : Acts c f :=
  Acts.of_actAwake fun s => (e s).trans (if_pos hp)

theorem ActsAlways.of_act (e : ∀ s, exec c s = s.act f) : ActsAlways c f := e

theorem ActsAlways.of_guard {p : Prop} [Decidable p] {r : Fault}
    (e : ∀ s, exec c s = if p then s.act f else .fault r) (hp : p) : ActsAlways c f :=
  fun s => (e s).trans (if_pos hp)

end Acting

/-! ## Registers whose write is an action of their own -/

/-- At `r` lies register `l`, of 32 bits, and no keeper serves it. -/
structure IsPlainReg (r : RF) (l : Loc) : Prop where
  place_eq : place r.addr = .reg l
  aligned : r.addr % 4 = 0
  narrow : (regDesc l.name).wide = false
  notServed : served l.name = false

/-- Every register lies below the leaf windows (R22, R23). -/
theorem lt_of_place_reg {a : Nat} {l : Loc} (h : place a = .reg l) : a - a % 4 < 0x01600000 := by
  by_contra hge
  have hn : locate (a - a % 4) = none := locate_eq_none (by omega)
  simp only [place, hn] at h
  split_ifs at h

section Writing

variable {c : Instr} {m : Nat} {r : RF} {l : Loc} {act : Hub → Hub}

theorem le_of_place_reg {a : Nat} (h : place a = .reg l) : a ≤ 0xFFFFFFFC := by
  have := lt_of_place_reg h
  omega

/-- A command that writes `v` at the register of the action `act` has that effect; `v` rests on no more of the hub
than the beginning of the access leaves as it was. -/
theorem Writes.of_writeTo {v : Hub → Nat} (hr : IsPlainReg r l)
    (e : ∀ s, exec c s = s.actAwake fun h => h.writeTo m r (v h)) (hv : ∀ h, v (h.enteredWrite m) = v h)
    (hact : ∀ h, h.writeReg m l (keyOf m r.addr l) (v h) = act h) : Writes c m r.addr l act := by
  intro s hs
  obtain ⟨ha, -⟩ := id hs
  rw [e, State.actAwake_of_awake ha, Hub.writeTo_eq hs hr.place_eq hr.aligned (le_of_place_reg hr.place_eq) hr.narrow
    hr.notServed, Hub.writeEffect, ← hv, hact, ← Hub.writeEffect]

end Writing

/-- A command that reads the +0 half, or a register, runs as the read. -/
theorem Reads.of_busRead {c : Instr} {m a : Nat} {l : Loc} (hp : place a = .reg l) (ha : a % 4 = 0)
    (e : ∀ s, exec c s = s.actAwake fun h => h.busRead m a) : Reads c m a l := by
  intro s hs
  obtain ⟨hawake, -⟩ := id hs
  rw [e, State.actAwake_of_awake hawake, Hub.busRead_eq hs hp ha (le_of_place_reg hp)]

/-! ## The registers of commands that are writes -/

theorem blkBase_mod_four (j : Nat) : blkBase j % 4 = 0 := by unfold blkBase; omega

theorem laneBase_mod_four (l : Nat) : laneBase l % 4 = 0 := by
  unfold laneBase
  split_ifs <;> omega

theorem isPlainReg_Q_CTRL (q : Fin 8) : IsPlainReg (Q_CTRL q) ⟨.Q_CTRL, q, 0, false⟩ :=
  ⟨place_Q_CTRL q, by simp only [Q_CTRL]; omega, rfl, rfl⟩

theorem isPlainReg_CLK_CTRL : IsPlainReg CLK_CTRL ⟨.CLK_CTRL, 0, 0, false⟩ := ⟨place_CLK_CTRL, rfl, rfl, rfl⟩

theorem isPlainReg_TIME_ALIGN_CTRL : IsPlainReg TIME_ALIGN_CTRL ⟨.TIME_ALIGN_CTRL, 0, 0, false⟩ :=
  ⟨place_TIME_ALIGN_CTRL, rfl, rfl, rfl⟩

theorem isPlainReg_ORG_CTRL : IsPlainReg ORG_CTRL ⟨.ORG_CTRL, 0, 0, false⟩ := ⟨place_ORG_CTRL, rfl, rfl, rfl⟩

theorem isPlainReg_CELL_HEALTH (j : Fin 24) (c : Fin 17) : IsPlainReg (CELL_HEALTH j c) ⟨.CELL_HEALTH, j, c, false⟩ :=
  ⟨place_CELL_HEALTH j c, by have := blkBase_mod_four j; simp only [CELL_HEALTH, cellBase]; omega, rfl, rfl⟩

theorem isPlainReg_HNG_MOVE (j : Fin 24) : IsPlainReg (HNG_MOVE j) ⟨.HNG_MOVE, j, 0, false⟩ :=
  ⟨place_HNG_MOVE j, by have := blkBase_mod_four j; simp only [HNG_MOVE]; omega, rfl, rfl⟩

theorem isPlainReg_HNG_COMMIT (j : Fin 24) : IsPlainReg (HNG_COMMIT j) ⟨.HNG_COMMIT, j, 0, false⟩ :=
  ⟨place_HNG_COMMIT j, by have := blkBase_mod_four j; simp only [HNG_COMMIT]; omega, rfl, rfl⟩

theorem isPlainReg_BLK_CTRL (j : Fin 24) : IsPlainReg (BLK_CTRL j) ⟨.BLK_CTRL, j, 0, false⟩ :=
  ⟨place_BLK_CTRL j, by have := blkBase_mod_four j; simp only [BLK_CTRL]; omega, rfl, rfl⟩

theorem isPlainReg_BLK_SNAP_CTRL (j : Fin 24) : IsPlainReg (BLK_SNAP_CTRL j) ⟨.BLK_SNAP_CTRL, j, 0, false⟩ :=
  ⟨place_BLK_SNAP_CTRL j, by have := blkBase_mod_four j; simp only [BLK_SNAP_CTRL]; omega, rfl, rfl⟩

theorem isPlainReg_RGN_CTRL (g : Fin 6) : IsPlainReg (RGN_CTRL g) ⟨.RGN_CTRL, g, 0, false⟩ :=
  ⟨place_RGN_CTRL g, by simp only [RGN_CTRL, rgnBase]; omega, rfl, rfl⟩

theorem isPlainReg_CREC_CTRL : IsPlainReg CREC_CTRL ⟨.CREC_CTRL, 0, 0, false⟩ := ⟨place_CREC_CTRL, rfl, rfl, rfl⟩

theorem isPlainReg_IVL_CTRL (e : Fin 4) : IsPlainReg (IVL_CTRL e) ⟨.IVL_CTRL, e, 0, false⟩ :=
  ⟨place_IVL_CTRL e, by simp only [IVL_CTRL]; omega, rfl, rfl⟩

theorem isPlainReg_FRQ_CTRL : IsPlainReg FRQ_CTRL ⟨.FRQ_CTRL, 0, 0, false⟩ := ⟨place_FRQ_CTRL, rfl, rfl, rfl⟩

theorem isPlainReg_MON_URGENT : IsPlainReg MON_URGENT ⟨.MON_URGENT, 0, 0, false⟩ :=
  ⟨place_MON_URGENT, rfl, rfl, rfl⟩

theorem isPlainReg_laneCtrl (l : Fin 30) : IsPlainReg (laneCtrl l) (laneLoc l) := by
  refine ⟨place_lane l, laneBase_mod_four l, ?_, ?_⟩ <;> unfold laneLoc <;> split_ifs <;> rfl

theorem isPlainReg_UL_SPARE : IsPlainReg UL_SPARE ⟨.UL_SPARE, 0, 0, false⟩ := ⟨place_UL_SPARE, rfl, rfl, rfl⟩

theorem isPlainReg_UL_COMMON_CTRL : IsPlainReg UL_COMMON_CTRL ⟨.UL_COMMON_CTRL, 0, 0, false⟩ :=
  ⟨place_UL_COMMON_CTRL, rfl, rfl, rfl⟩

theorem isPlainReg_DL_HRST_ARM : IsPlainReg DL_HRST_ARM ⟨.DL_HRST_ARM, 0, 0, false⟩ :=
  ⟨place_DL_HRST_ARM, rfl, rfl, rfl⟩

theorem isPlainReg_LEAF_CTRL (sp : Fin 16) : IsPlainReg (LEAF_CTRL sp) ⟨.LEAF_CTRL, sp, 0, false⟩ :=
  ⟨place_LEAF_CTRL sp, by simp only [LEAF_CTRL]; omega, rfl, rfl⟩

theorem isPlainReg_LEAF_BCAST_CTRL : IsPlainReg LEAF_BCAST_CTRL ⟨.LEAF_BCAST_CTRL, 0, 0, false⟩ :=
  ⟨place_LEAF_BCAST_CTRL, rfl, rfl, rfl⟩

theorem isPlainReg_CFG_CTRL : IsPlainReg CFG_CTRL ⟨.CFG_CTRL, 0, 0, false⟩ := ⟨place_CFG_CTRL, rfl, rfl, rfl⟩

theorem isPlainReg_CFG_LOAD_DATA : IsPlainReg CFG_LOAD_DATA ⟨.CFG_LOAD_DATA, 0, 0, false⟩ :=
  ⟨place_CFG_LOAD_DATA, rfl, rfl, rfl⟩

theorem isPlainReg_SES_CTRL : IsPlainReg SES_CTRL ⟨.SES_CTRL, 0, 0, false⟩ := ⟨place_SES_CTRL, rfl, rfl, rfl⟩

theorem isPlainReg_SES_KEY_CTRL : IsPlainReg SES_KEY_CTRL ⟨.SES_KEY_CTRL, 0, 0, false⟩ :=
  ⟨place_SES_KEY_CTRL, rfl, rfl, rfl⟩

theorem isPlainReg_PWR_CTRL : IsPlainReg PWR_CTRL ⟨.PWR_CTRL, 0, 0, false⟩ := ⟨place_PWR_CTRL, rfl, rfl, rfl⟩

theorem isPlainReg_PWR_CELL_RESET : IsPlainReg PWR_CELL_RESET ⟨.PWR_CELL_RESET, 0, 0, false⟩ :=
  ⟨place_PWR_CELL_RESET, rfl, rfl, rfl⟩

theorem isPlainReg_GZB_CTRL : IsPlainReg GZB_CTRL ⟨.GZB_CTRL, 0, 0, false⟩ := ⟨place_GZB_CTRL, rfl, rfl, rfl⟩

/-! ## Words written, and what the register's action makes of them -/

theorem Hub.writeAlignCtrl_compute (h : Hub) : h.writeAlignCtrl 1 = h.alignCompute := by
  simp [Hub.writeAlignCtrl, bit]

theorem Hub.writeAlignCtrl_arm (h : Hub) : h.writeAlignCtrl 2 = h.alignArm := by
  simp [Hub.writeAlignCtrl, bit]

theorem Hub.writeAlignCtrl_cancel (h : Hub) : h.writeAlignCtrl 4 = h.alignCancel := by
  simp [Hub.writeAlignCtrl, bit]

theorem Hub.writeOrgCtrl_eq (h : Hub) (en : Bool) {setpoint : Nat} (hs : setpoint < 1024) :
    h.writeOrgCtrl (b2n en * 2 ^ 16 + setpoint) = (h.orgCtrlWrite (b2n en) setpoint).skewsCold := by
  have he := b2n_lt_two en
  have hen : bits (b2n en * 2 ^ 16 + setpoint) 16 16 = b2n en := by unfold bits; omega
  have hset : bits (b2n en * 2 ^ 16 + setpoint) 9 0 = setpoint := by unfold bits; omega
  rw [Hub.writeOrgCtrl, hen, hset]

theorem moveWord_fields {use t : Nat} (hu : use < 4) (ht : t < 32) :
    bits (use * 256 + t) 10 8 = use ∧ bits (use * 256 + t) 4 0 = t := by
  unfold bits
  omega

/-- A move of a live cell, or of the spare, or of no cell of the block (R112, R118, R129). -/
theorem Hub.writeMove_eq (h : Hub) (j : Nat) {use t : Nat} (hu : use < 4) (ht : t < 32) :
    h.writeMove j (use * 256 + t) =
      if 16 < t then h.moveIllegal j
      else if t = 16 then
        if use = useShadow then h.spareRestore j
        else if use = useRetire then h.spareRetire j
        else h.moveIllegal j
      else if use = useShadow then h.moveShadow j t
      else h.moveUse j t use := by
  obtain ⟨huse, htarget⟩ := moveWord_fields hu ht
  have hlegal : ¬ 3 < use := by omega
  simp only [Hub.writeMove, huse, htarget, hlegal, false_or]

theorem Hub.moveUse_of_not_cell (h : Hub) (j use : Nat) {t : Nat} (ht : ¬ t < 16) :
    h.moveUse j t use = h.moveIllegal j :=
  if_neg ht

theorem Hub.writeMove_shadow (h : Hub) (j : Nat) {t : Nat} (ht : t < 32) :
    h.writeMove j (useShadow * 256 + t) =
      if t < 16 then h.moveShadow j t else if t = 16 then h.spareRestore j else h.moveIllegal j := by
  rw [h.writeMove_eq j (by decide) ht]
  obtain hlt | rfl | hgt := Nat.lt_trichotomy t 16
  · simp [hlt, hlt.ne, hlt.not_gt]
  · simp
  · simp [hgt, hgt.ne', hgt.not_gt]

/-- With a use other than SHADOW and RETIRE, no target stands for the spare. -/
theorem Hub.writeMove_use (h : Hub) (j : Nat) {use t : Nat} (hu : use < 4) (hs : use ≠ useShadow)
    (hr : use ≠ useRetire) (ht : t < 32) : h.writeMove j (use * 256 + t) = h.moveUse j t use := by
  rw [h.writeMove_eq j hu ht]
  obtain hlt | rfl | hgt := Nat.lt_trichotomy t 16
  · simp [hlt.ne, hlt.not_gt, hs]
  · simp [hs, hr, h.moveUse_of_not_cell]
  · simp [hgt, h.moveUse_of_not_cell j use hgt.not_gt]

theorem Hub.writeMove_retire (h : Hub) (j : Nat) {t : Nat} (ht : t < 32) :
    h.writeMove j (useRetire * 256 + t) = if t = 16 then h.spareRetire j else h.moveUse j t useRetire := by
  have hne : useRetire ≠ useShadow := by decide
  rw [h.writeMove_eq j (by decide) ht]
  obtain hlt | rfl | hgt := Nat.lt_trichotomy t 16
  · simp [hlt.ne, hlt.not_gt, hne]
  · simp [hne]
  · simp [hgt, hgt.ne', h.moveUse_of_not_cell j useRetire hgt.not_gt]

theorem Hub.writeMove_retire_spare (h : Hub) (j : Nat) : h.writeMove j (useRetire * 256 + 16) = h.spareRetire j := by
  rw [h.writeMove_retire j (by decide), if_pos rfl]

theorem Hub.writeMove_restore_spare (h : Hub) (j : Nat) :
    h.writeMove j (useShadow * 256 + 16) = h.spareRestore j := by
  rw [h.writeMove_shadow j (by decide), if_neg (by decide), if_pos rfl]

theorem Hub.writeCommit_to_spare (h : Hub) (j : Nat) {c : Nat} (hc : c < 16) :
    h.writeCommit j c = h.commitToSpare j c := by
  have hback : bit c 8 = false := by simp [bit]; omega
  have hcell : bits c 3 0 = c := by unfold bits; omega
  simp [Hub.writeCommit, hback, hcell]

theorem Hub.writeCommit_back (h : Hub) (j : Nat) {c : Nat} (hc : c < 16) :
    h.writeCommit j (256 + c) = h.commitBack j c := by
  have hback : bit (256 + c) 8 = true := by simp [bit]; omega
  have hcell : bits (256 + c) 3 0 = c := by unfold bits; omega
  simp [Hub.writeCommit, hback, hcell]

theorem bit_setBits_one (n i : Nat) : bit (setBits n i i 1) i = true := bit_setBits_self n i true

/-- CTRL of a lane lies in the table of its kind (R324, R326). -/
theorem Hub.writeReg_laneLoc (h : Hub) (m key v : Nat) {l : Nat} (hl : l < 30) :
    h.writeReg m (laneLoc l) key v = h.writeLaneCtrl l v := by
  unfold laneLoc
  split_ifs with hup hdown
  · rfl
  · exact congrArg (h.writeLaneCtrl · v) (by omega : 12 + (l - 12) = l)
  · exact congrArg (h.writeLaneCtrl · v) (by omega : 14 + (l - 14) = l)

/-- RELOCK is written again only once it reads 0 (R307). -/
theorem Hub.writeReg_relock (h : Hub) (m key : Nat) :
    h.writeReg m ⟨.UL_COMMON_CTRL, 0, 0, false⟩ key 1 = if h.on UL_COMMON_CTRL_RELOCK then h else h.ulRelock := by
  have e (v : Nat) : h.writeReg m ⟨.UL_COMMON_CTRL, 0, 0, false⟩ key v =
      if bit v 0 ∧ !h.on UL_COMMON_CTRL_RELOCK then h.ulRelock else h := rfl
  have hbit : bit 1 0 = true := rfl
  rw [e, hbit]
  cases h.on UL_COMMON_CTRL_RELOCK <;> simp

theorem Hub.cfgCtrlWrite_begin (h : Hub) (m : Nat) : h.cfgCtrlWrite m 1 = h.cfgBegin m := by
  simp [Hub.cfgCtrlWrite, bit]

theorem Hub.cfgCtrlWrite_discard (h : Hub) (m : Nat) : h.cfgCtrlWrite m 2 = h.cfgDiscard := by
  simp [Hub.cfgCtrlWrite, bit]

theorem Hub.cfgCtrlWrite_arm (h : Hub) (m : Nat) : h.cfgCtrlWrite m 4 = h.cfgArm := by
  simp [Hub.cfgCtrlWrite, bit]

theorem Hub.cfgCtrlWrite_cancel (h : Hub) (m : Nat) : h.cfgCtrlWrite m 8 = h.cfgCancel := by
  simp [Hub.cfgCtrlWrite, bit]

theorem Hub.cfgCtrlWrite_applyNow (h : Hub) (m : Nat) : h.cfgCtrlWrite m 16 = h.cfgApplyNow := by
  simp [Hub.cfgCtrlWrite, bit]

theorem Hub.sesCtrlWrite_respond (h : Hub) (p : Nat) : h.sesCtrlWrite p 2 = h.respond p := by
  simp [Hub.sesCtrlWrite, bit]

theorem Hub.sesCtrlWrite_close (h : Hub) (p : Nat) : h.sesCtrlWrite p 4 = h.sesClose p := by
  simp [Hub.sesCtrlWrite, bit]

/-- What a challenge leaves of SES_CTRL's other fields (R419). -/
theorem Hub.sesCtrlWrite_challenge (h : Hub) (p : Nat) {n : Nat} (hn : n < 4) :
    h.sesCtrlWrite p (n * 16 + 1) = if p = 3 ∧ h.pwr.state = .boot then h.bootSession else h.challenge p n := by
  have hclose : bit (n * 16 + 1) 2 = false := by simp [bit]; omega
  have hrespond : bit (n * 16 + 1) 1 = false := by simp [bit]; omega
  have hchallenge : bit (n * 16 + 1) 0 = true := by simp [bit]; omega
  have hslot : bits (n * 16 + 1) 5 4 = n := by unfold bits; omega
  simp [Hub.sesCtrlWrite, hclose, hrespond, hchallenge, hslot]

theorem Hub.writeKeyCtrl_program (h : Hub) (m : Nat) (l : Loc) (key : Nat) {n wards : Nat} (hn : n < 4)
    (hw : wards < 64) :
    h.writeKeyCtrl m l key (wards * 256 + n * 16 + 1) =
      (h.writeFields l key (wards * 256 + n * 16 + 1)).keyProgram n wards := by
  have hprogram : bit (wards * 256 + n * 16 + 1) 0 = true := by simp [bit]; omega
  have hrevoke : bit (wards * 256 + n * 16 + 1) 1 = false := by simp [bit]; omega
  have hslot : bits (wards * 256 + n * 16 + 1) 5 4 = n := by unfold bits; omega
  have hwards : bits (wards * 256 + n * 16 + 1) 13 8 = wards := by unfold bits; omega
  simp only [Hub.writeKeyCtrl, hprogram, hrevoke, hslot, hwards, Bool.false_eq_true, if_true, if_false]

theorem Hub.writeKeyCtrl_revoke (h : Hub) (m : Nat) (l : Loc) (key : Nat) {n : Nat} (hn : n < 4) :
    h.writeKeyCtrl m l key (n * 16 + 2) = (h.writeFields l key (n * 16 + 2)).keyRevoke (pathOf m) n := by
  have hprogram : bit (n * 16 + 2) 0 = false := by simp [bit]; omega
  have hrevoke : bit (n * 16 + 2) 1 = true := by simp [bit]; omega
  have hslot : bits (n * 16 + 2) 5 4 = n := by unfold bits; omega
  simp only [Hub.writeKeyCtrl, hprogram, hrevoke, hslot, Bool.false_eq_true, if_true, if_false]

theorem goWord_fields {t : Nat} (ht : t < 8) :
    bits (8 + t) 2 0 = t ∧ bit (8 + t) 3 = true ∧ bit (8 + t) 4 = false := by
  refine ⟨by unfold bits; omega, ?_, ?_⟩ <;> simp [bit] <;> omega

/-- A GO alone: refused with a reserved code, else requested (R511). -/
theorem Hub.pwrCtrlWrite_go (h : Hub) {t : Nat} (ht : t < 8) :
    h.pwrCtrlWrite (8 + t) = if t < 2 ∨ 4 < t then h.set1 PWR_STATUS_CFG_ILLEGAL else h.pwrGo t := by
  obtain ⟨htarget, hgo, hreset⟩ := goWord_fields ht
  simp [Hub.pwrCtrlWrite, htarget, hgo, hreset]

/-- CHIP_RESET alone needs its key (R505). -/
theorem Hub.pwrCtrlWrite_chipReset (h : Hub) {key : Nat} (hk : key < 256) :
    h.pwrCtrlWrite (key * 2 ^ 24 + 16) =
      if key = 0xA5 then h.chipReset whyRegister else h.set1 PWR_STATUS_CFG_ILLEGAL := by
  have hgo : bit (key * 2 ^ 24 + 16) 3 = false := by simp [bit]; omega
  have hreset : bit (key * 2 ^ 24 + 16) 4 = true := by simp [bit]; omega
  have hkey : bits (key * 2 ^ 24 + 16) 31 24 = key := by unfold bits; omega
  simp only [Hub.pwrCtrlWrite, hgo, hreset, hkey, true_and, Bool.false_eq_true, false_and, or_false, ne_eq, ite_not,
    if_true]

theorem Hub.keeperCtrl_reset (h : Hub) (k : Fin 2) : h.keeperCtrl (2 ^ k.val) = h.keeperReset k := by
  match k with
  | 0 => simp [Hub.keeperCtrl, bit]
  | 1 => simp [Hub.keeperCtrl, bit]

theorem Hub.keeperCtrl_swap (h : Hub) : h.keeperCtrl 4 = h.keeperSwap := by
  simp [Hub.keeperCtrl, bit]

theorem Hub.updStep_begin (h : Hub) : h.updStep 1 = h.updBegin := by simp [Hub.updStep]

theorem Hub.updStep_end (h : Hub) : h.updStep 2 = h.updEnd := by simp [Hub.updStep]

theorem Hub.updStep_prove (h : Hub) : h.updStep 4 = h.updProve := by simp [Hub.updStep]

theorem Hub.updStep_complete (h : Hub) : h.updStep 8 = h.updComplete := by simp [Hub.updStep]

theorem Hub.updStep_abort (h : Hub) : h.updStep 16 = h.updAbort := by simp [Hub.updStep]

theorem bit_cellResetWord (j c : Nat) : bit (cellResetWord j c) 0 = true := by
  unfold bit cellResetWord
  simp only [beq_iff_eq]
  omega

end Sys2Proof.Machine
end

section
/-! Completion: every command acts, or is the access of a register, or is served by a keeper. -/

namespace Sys2Proof.Machine

/-- Settles O10: commands that act, accesses of any register, and the flush of a queue. -/
theorem busCompletes : Obligations.BusCompletes := by
  refine ⟨fun m addr v => .of_actAwake fun _ => rfl, fun m addr v l hp hw hs ha => ?_,
    fun m addr => .of_actAwake fun _ => rfl, fun m addr l hp ha => .of_busRead hp ha fun _ => rfl,
    fun m addr lo hi => .of_actAwake fun _ => rfl, .of_actAwake fun _ => rfl, .of_actAwake fun _ => rfl,
    .of_actAwake fun _ => rfl, fun q data mark pop => .of_actAwake fun _ => rfl,
    fun q err => .of_actAwake fun _ => rfl, fun m q => ?_⟩
  · exact .of_writeTo (r := ⟨addr.toNat, 31, 0⟩) (v := fun _ => v.toNat) ⟨hp, ha, hw, hs⟩ (fun _ => rfl)
      (fun _ => rfl) fun _ => rfl
  · exact .of_writeTo (v := fun _ => 1) (isPlainReg_Q_CTRL q) (fun _ => rfl) (fun _ => rfl) fun _ => rfl

/-- Settles O11: CLK_CTRL is written by two of the commands, and the others act. -/
theorem clockCompletes : Obligations.ClockCompletes := by
  refine ⟨.of_actAwake fun _ => rfl, .of_act fun _ => rfl, .of_actAwake fun _ => rfl, .of_actAwake fun _ => rfl,
    .of_actAwake fun _ => rfl, fun m on => ?_, fun m => ?_, .of_actAwake fun _ => rfl, fun warm => .of_act fun _ => rfl,
    .of_actAwake fun _ => rfl, fun hz => .of_actAwake fun _ => rfl, .of_actAwake fun _ => rfl,
    .of_actAwake fun _ => rfl, .of_actAwake fun _ => rfl, fun hz => .of_actAwake fun _ => rfl,
    .of_actAwake fun _ => rfl, fun err => .of_actAwake fun _ => rfl, .of_actAwake fun _ => rfl,
    .of_actAwake fun _ => rfl, .of_actAwake fun _ => rfl, fun hz => .of_actAwake fun _ => rfl,
    .of_actAwake fun _ => rfl⟩
  · exact .of_writeTo (v := fun h => setBits (setBits (h.rd CLK_CTRL.addr) 7 7 0) 3 3 (b2n on)) isPlainReg_CLK_CTRL
      (fun _ => rfl) (fun _ => rfl) fun _ => rfl
  · exact .of_writeTo (v := fun h => setBits (h.rd CLK_CTRL.addr) 7 7 1) isPlainReg_CLK_CTRL (fun _ => rfl)
      (fun _ => rfl) fun _ => rfl

/-- Settles O12: TIME_ALIGN_CTRL and ORG_CTRL are written by four of the commands, and the others act. -/
theorem alignCompletes : Obligations.AlignCompletes := by
  refine ⟨fun m => .of_writeTo (v := fun _ => 1) isPlainReg_TIME_ALIGN_CTRL (fun _ => rfl) (fun _ => rfl)
      Hub.writeAlignCtrl_compute,
    fun m => .of_writeTo (v := fun _ => 2) isPlainReg_TIME_ALIGN_CTRL (fun _ => rfl) (fun _ => rfl)
      Hub.writeAlignCtrl_arm,
    fun m => .of_writeTo (v := fun _ => 4) isPlainReg_TIME_ALIGN_CTRL (fun _ => rfl) (fun _ => rfl)
      Hub.writeAlignCtrl_cancel,
    .of_actAwake fun _ => rfl, fun m en setpoint => ?_, .of_actAwake fun _ => rfl, .of_actAwake fun _ => rfl⟩
  exact .of_writeTo (v := fun _ => b2n en * 2 ^ 16 + setpoint.toNat) isPlainReg_ORG_CTRL (fun _ => rfl)
    (fun _ => rfl) fun h => h.writeOrgCtrl_eq en setpoint.isLt

/-- Settles O13: CELL_HEALTH is written by one of the commands, and the others act. -/
theorem cellsComplete : Obligations.CellsComplete := by
  refine ⟨fun codes found => .of_act fun _ => rfl, fun j c => .of_actAwake fun _ => rfl,
    fun j c => .of_actAwake fun _ => rfl, fun j c => .of_actAwake fun _ => rfl, fun j c => .of_actAwake fun _ => rfl,
    fun m j c => ?_, fun j c level => .of_actAwake fun _ => rfl, fun j c level => .of_actAwake fun _ => rfl⟩
  exact .of_writeTo (v := fun _ => 0x8000) (isPlainReg_CELL_HEALTH j c) (fun _ => rfl) (fun _ => rfl) fun _ => rfl

/-- Settles O14: HNG_MOVE, HNG_COMMIT and BLK_CTRL are written by nine of the commands, and the others act. -/
theorem hingeCompletes : Obligations.HingeCompletes := by
  refine ⟨fun m j t => ?_, fun m j t => ?_, fun m j t => ?_, fun m j t => ?_, fun m j => ?_, fun m j => ?_,
    fun j => .of_actAwake fun _ => rfl, fun j => .of_actAwake fun _ => rfl, fun j => .of_actAwake fun _ => rfl,
    fun m j c => ?_, fun m j c => ?_, fun j => .of_actAwake fun _ => rfl, fun j => .of_actAwake fun _ => rfl,
    fun j => .of_actAwake fun _ => rfl, fun m j => ?_⟩
  · exact .of_writeTo (v := fun _ => useShadow * 256 + t.toNat) (isPlainReg_HNG_MOVE j) (fun _ => rfl) (fun _ => rfl)
      fun h => h.writeMove_shadow j t.isLt
  · exact .of_writeTo (v := fun _ => useCover * 256 + t.toNat) (isPlainReg_HNG_MOVE j) (fun _ => rfl) (fun _ => rfl)
      fun h => h.writeMove_use j (by decide) (by decide) (by decide) t.isLt
  · exact .of_writeTo (v := fun _ => useRetire * 256 + t.toNat) (isPlainReg_HNG_MOVE j) (fun _ => rfl) (fun _ => rfl)
      fun h => h.writeMove_retire j t.isLt
  · exact .of_writeTo (v := fun _ => useCalibrate * 256 + t.toNat) (isPlainReg_HNG_MOVE j) (fun _ => rfl)
      (fun _ => rfl) fun h => h.writeMove_use j (by decide) (by decide) (by decide) t.isLt
  · exact .of_writeTo (v := fun _ => useRetire * 256 + 16) (isPlainReg_HNG_MOVE j) (fun _ => rfl) (fun _ => rfl)
      fun h => h.writeMove_retire_spare j
  · exact .of_writeTo (v := fun _ => useShadow * 256 + 16) (isPlainReg_HNG_MOVE j) (fun _ => rfl) (fun _ => rfl)
      fun h => h.writeMove_restore_spare j
  · exact .of_writeTo (v := fun _ => c) (isPlainReg_HNG_COMMIT j) (fun _ => rfl) (fun _ => rfl)
      fun h => h.writeCommit_to_spare j c.isLt
  · exact .of_writeTo (v := fun _ => 256 + c) (isPlainReg_HNG_COMMIT j) (fun _ => rfl) (fun _ => rfl)
      fun h => h.writeCommit_back j c.isLt
  · exact .of_writeTo (v := fun h => setBits (h.rd (BLK_CTRL j).addr) 1 1 1) (isPlainReg_BLK_CTRL j) (fun _ => rfl)
      (fun _ => rfl) fun _ => if_pos (bit_setBits_one _ 1)

/-- Settles O15: CREC_CTRL is written by one of the commands, and the others act. -/
theorem filterCompletes : Obligations.FilterCompletes := by
  refine ⟨fun j c => .of_actAwake fun _ => rfl, fun record j c => .of_actAwake fun _ => rfl,
    fun record j c => .of_actAwake fun _ => rfl, fun record j c => .of_actAwake fun _ => rfl,
    .of_actAwake fun _ => rfl, .of_actAwake fun _ => rfl, fun m => ?_⟩
  exact .of_writeTo (v := fun _ => 1) isPlainReg_CREC_CTRL (fun _ => rfl) (fun _ => rfl) fun _ => rfl

/-- Settles O16: BLK_SNAP_CTRL and RGN_CTRL are written by four of the commands, and the others act. -/
theorem eventsComplete : Obligations.EventsComplete := by
  refine ⟨.of_actAwake fun _ => rfl, .of_actAwake fun _ => rfl, .of_actAwake fun _ => rfl, .of_actAwake fun _ => rfl,
    .of_actAwake fun _ => rfl, .of_actAwake fun _ => rfl, .of_actAwake fun _ => rfl, fun m j => ?_, fun m j => ?_,
    fun m j => ?_, fun j => .of_actAwake fun _ => rfl, fun k errs lost => .of_actAwake fun _ => rfl,
    fun j err => .of_actAwake fun _ => rfl, fun m j c w corrected lost => .of_actAwake fun _ => rfl,
    fun g => .of_actAwake fun _ => rfl, fun k => .of_actAwake fun _ => rfl, fun k => .of_actAwake fun _ => rfl,
    fun k => .of_actAwake fun _ => rfl, fun m g => ?_, fun g => .of_actAwake fun _ => rfl,
    fun k sp => .of_actAwake fun _ => rfl⟩
  · exact .of_writeTo (v := fun _ => 1) (isPlainReg_BLK_SNAP_CTRL j) (fun _ => rfl) (fun _ => rfl) fun _ => rfl
  · exact .of_writeTo (v := fun _ => 4) (isPlainReg_BLK_SNAP_CTRL j) (fun _ => rfl) (fun _ => rfl) fun _ => rfl
  · exact .of_writeTo (v := fun _ => 2) (isPlainReg_BLK_SNAP_CTRL j) (fun _ => rfl) (fun _ => rfl) fun _ => rfl
  · exact .of_writeTo (v := fun h => setBits (h.rd (RGN_CTRL g).addr) 2 2 1) (isPlainReg_RGN_CTRL g) (fun _ => rfl)
      (fun _ => rfl) fun _ => if_pos (bit_setBits_one _ 2)

/-- Settles O17: IVL_CTRL and FRQ_CTRL are written, TDC_TIN_FIFO and TDC_LAST are read, and the others act. -/
theorem timingCompletes : Obligations.TimingCompletes := by
  refine ⟨fun id q snap move => .of_actAwake fun _ => rfl, fun j c => .of_actAwake fun _ => rfl,
    fun t bin q => .of_actAwake fun _ => rfl, fun t => .of_actAwake fun _ => rfl, fun m t => ?_, fun m j c => ?_,
    fun m e => ?_, fun m e => ?_, fun e edge v => .of_actAwake fun _ => rfl, fun e x => .of_actAwake fun _ => rfl,
    fun e => .of_actAwake fun _ => rfl, .of_actAwake fun _ => rfl, fun ps => .of_actAwake fun _ => rfl,
    .of_actAwake fun _ => rfl, fun m => ?_, fun m => ?_, fun n ticks => .of_actAwake fun _ => rfl,
    fun n => .of_actAwake fun _ => rfl⟩
  · exact .of_busRead (place_TDC_TIN_FIFO t) (by simp only [TDC_TIN_FIFO]; omega) fun _ => rfl
  · exact .of_busRead (place_TDC_LAST j c) (by have := blkBase_mod_four j; simp only [TDC_LAST, cellBase]; omega)
      fun _ => rfl
  · exact .of_writeTo (v := fun _ => 1) (isPlainReg_IVL_CTRL e) (fun _ => rfl) (fun _ => rfl) fun _ => rfl
  · exact .of_writeTo (v := fun _ => 2) (isPlainReg_IVL_CTRL e) (fun _ => rfl) (fun _ => rfl) fun _ => rfl
  · exact .of_writeTo (v := fun _ => 1) isPlainReg_FRQ_CTRL (fun _ => rfl) (fun _ => rfl) fun _ => rfl
  · exact .of_writeTo (v := fun _ => 2) isPlainReg_FRQ_CTRL (fun _ => rfl) (fun _ => rfl) fun _ => rfl

/-- Settles O18: MON_URGENT is written by one of the commands, and the others act. -/
theorem monitorsComplete : Obligations.MonitorsComplete := by
  refine ⟨.of_actAwake fun _ => rfl, fun k code => .of_actAwake fun _ => rfl, fun k => .of_actAwake fun _ => rfl,
    fun m ch => ?_, .of_actAwake fun _ => rfl, fun x => .of_actAwake fun _ => rfl, fun x => .of_actAwake fun _ => rfl,
    fun e => .of_actAwake fun _ => rfl, fun e => .of_actAwake fun _ => rfl, fun e limit => .of_actAwake fun _ => rfl,
    fun e => .of_actAwake fun _ => rfl, fun k g low level => .of_actAwake fun _ => rfl⟩
  exact .of_writeTo (v := fun _ => 2 ^ 31 + ch.toNat) isPlainReg_MON_URGENT (fun _ => rfl) (fun _ => rfl) fun _ => rfl

/-- A sweep is executed by a keeper unless one has been asked for already (R293, R471). -/
theorem exec_calSweep {s : State} (m : Fin 4) (ha : s.hub.awake = true) (hm : s.hub.mayWrite m CAL_CTRL.addr = true)
    (hk : s.hub.on KPR_STATUS_KEEPERLESS = false) (hsweep : s.hub.on CAL_CTRL_SWEEP = false) :
    exec (.calSweep m) s = .next { s with hub := s.hub.calSweep } := by
  have e : exec (.calSweep m) s = s.actAwake fun h => h.serve m CAL_CTRL (!h.on CAL_CTRL_SWEEP) .sweep := rfl
  have hserve : s.hub.serve m CAL_CTRL (!s.hub.on CAL_CTRL_SWEEP) .sweep = s.hub.keeperDo .sweep := by
    simp [Hub.serve, Hub.keeperServed, hm, hk, hsweep]
  rw [e, State.actAwake_of_awake ha, hserve]
  rfl

/-- Settles O19: two commands are served by a keeper, and the others act. -/
theorem calibrationCompletes : Obligations.CalibrationCompletes :=
  ⟨fun _ _ => .of_actAwake fun _ => rfl, fun _ _ => .of_actAwake fun _ => rfl, fun _ _ _ => .of_actAwake fun _ => rfl,
    fun m _ => exec_calSweep m, serves_calReq, .of_actAwake fun _ => rfl, fun _ _ => .of_actAwake fun _ => rfl,
    .of_actAwake fun _ => rfl, .of_actAwake fun _ => rfl⟩

end Sys2Proof.Machine
end

section
/-! Completion of the commands of links, configuration, sessions, the serial port, keepers and power. -/

namespace Sys2Proof.Machine

/-- Settles O20: the CTRL register of a lane, UL_SPARE and UL_COMMON_CTRL are written by six of the commands, one
checks its operands, and the others act. -/
theorem lanesComplete : Obligations.LanesComplete := by
  refine ⟨fun m l => ?_, fun m l => ?_, fun m l => ?_, fun m l mode => ?_, fun l => .of_actAwake fun _ => rfl,
    fun l => .of_act fun _ => rfl, fun l => .of_actAwake fun _ => rfl, fun l => .of_actAwake fun _ => rfl,
    fun l => .of_actAwake fun _ => rfl, fun l eyes hlen => .of_guard (fun _ => rfl) hlen,
    fun l => .of_actAwake fun _ => rfl, fun l => .of_actAwake fun _ => rfl, fun l los => .of_act fun _ => rfl,
    fun l => .of_actAwake fun _ => rfl, fun l eye => .of_actAwake fun _ => rfl, fun l => .of_actAwake fun _ => rfl,
    fun l => .of_actAwake fun _ => rfl, fun l => .of_actAwake fun _ => rfl, fun m l => ?_,
    fun l => .of_actAwake fun _ => rfl, fun m => ?_, .of_actAwake fun _ => rfl, .of_actAwake fun _ => rfl,
    fun l => .of_actAwake fun _ => rfl⟩
  · exact .of_writeTo (r := laneCtrl l) (v := fun h => setBits (h.laneCtrlWord l) 0 0 1) (isPlainReg_laneCtrl l)
      (fun _ => rfl) (fun _ => rfl) fun h => h.writeReg_laneLoc m _ _ l.isLt
  · exact .of_writeTo (r := laneCtrl l) (v := fun h => setBits (h.laneCtrlWord l) 0 0 0) (isPlainReg_laneCtrl l)
      (fun _ => rfl) (fun _ => rfl) fun h => h.writeReg_laneLoc m _ _ l.isLt
  · exact .of_writeTo (r := laneCtrl l) (v := fun h => setBits (h.laneCtrlWord l) 3 3 1) (isPlainReg_laneCtrl l)
      (fun _ => rfl) (fun _ => rfl) fun h => h.writeReg_laneLoc m _ _ l.isLt
  · exact .of_writeTo (r := laneCtrl l) (v := fun h => setBits (h.laneCtrlWord l) 5 4 mode.toNat) (isPlainReg_laneCtrl l)
      (fun _ => rfl) (fun _ => rfl) fun h => h.writeReg_laneLoc m _ _ l.isLt
  · exact .of_writeTo (v := fun h => setBits (h.rd UL_SPARE.addr) 3 0 l.toNat) isPlainReg_UL_SPARE (fun _ => rfl)
      (fun _ => rfl) fun _ => rfl
  · exact .of_writeTo (v := fun _ => 1) isPlainReg_UL_COMMON_CTRL (fun _ => rfl) (fun _ => rfl)
      fun h => h.writeReg_relock m _

/-- Settles O21: DL_HRST_ARM is written by one of the commands, one checks its operands, and the others act. -/
theorem downlinkCompletes : Obligations.DownlinkCompletes := by
  refine ⟨fun a b hok => .of_guard (fun _ => rfl) hok, fun n ps => .of_actAwake fun _ => rfl,
    .of_actAwake fun _ => rfl, .of_actAwake fun _ => rfl, .of_actAwake fun _ => rfl, .of_actAwake fun _ => rfl,
    fun d => .of_act fun _ => rfl, fun mode target tag addr count => .of_actAwake fun _ => rfl,
    fun mode target tag addr count => .of_actAwake fun _ => rfl,
    fun mode target tag addr count data => .of_actAwake fun _ => rfl,
    fun mode target tag addr count data => .of_actAwake fun _ => rfl,
    fun mode target tag addr count mask v => .of_actAwake fun _ => rfl, fun acks => .of_actAwake fun _ => rfl,
    fun l => .of_actAwake fun _ => rfl, fun l first => .of_actAwake fun _ => rfl,
    fun d id sentOn => .of_actAwake fun _ => rfl, fun l => .of_actAwake fun _ => rfl, fun m => ?_,
    .of_actAwake fun _ => rfl⟩
  exact .of_writeTo (v := fun _ => 1) isPlainReg_DL_HRST_ARM (fun _ => rfl) (fun _ => rfl) fun _ => rfl

/-- Settles O22: LEAF_CTRL and LEAF_BCAST_CTRL are written by three of the commands, three check their operands, and
the others act. -/
theorem leavesComplete : Obligations.LeavesComplete := by
  refine ⟨fun sp f hok => .of_guard (fun _ => rfl) hok, fun sp words hlen => .of_guard (fun _ => rfl) hlen,
    fun sp tag status data => .of_actAwake fun _ => rfl, fun sp word => .of_actAwake fun _ => rfl,
    fun sp header hits n => .of_actAwake fun _ => rfl, fun sp => .of_actAwake fun _ => rfl, fun m sp => ?_,
    fun sp => .of_actAwake fun _ => rfl, fun m sp => ?_, fun sp => .of_actAwake fun _ => rfl,
    fun m addr ops hok => .of_guard (fun _ => rfl) hok, fun sp => .of_actAwake fun _ => rfl, fun m => ?_,
    fun sp => .of_actAwake fun _ => rfl, fun cal rsync => .of_actAwake fun _ => rfl, .of_actAwake fun _ => rfl⟩
  · exact .of_writeTo (v := fun h => setBits (h.rd (LEAF_CTRL sp).addr) 2 1 2) (isPlainReg_LEAF_CTRL sp) (fun _ => rfl)
      (fun _ => rfl) fun _ => rfl
  · exact .of_writeTo (v := fun h => setBits (h.rd (LEAF_CTRL sp).addr) 2 1 1) (isPlainReg_LEAF_CTRL sp) (fun _ => rfl)
      (fun _ => rfl) fun _ => rfl
  · exact .of_writeTo (v := fun _ => 1) isPlainReg_LEAF_BCAST_CTRL (fun _ => rfl) (fun _ => rfl) fun _ => rfl

/-- Settles O23: CFG_CTRL and CFG_LOAD_DATA are written by six of the commands, and the others act. -/
theorem configurationCompletes : Obligations.ConfigurationCompletes := by
  refine ⟨fun m => ?_, fun m => ?_, fun m => ?_, fun m => ?_, fun m => ?_, fun m v => ?_, .of_actAwake fun _ => rfl,
    fun differs => .of_actAwake fun _ => rfl, .of_actAwake fun _ => rfl, fun levels => .of_actAwake fun _ => rfl,
    fun f shadow rewrote upset => .of_actAwake fun _ => rfl⟩
  · exact .of_writeTo (v := fun _ => 1) isPlainReg_CFG_CTRL (fun _ => rfl) (fun _ => rfl)
      fun h => h.cfgCtrlWrite_begin m
  · exact .of_writeTo (v := fun _ => 2) isPlainReg_CFG_CTRL (fun _ => rfl) (fun _ => rfl)
      fun h => h.cfgCtrlWrite_discard m
  · exact .of_writeTo (v := fun _ => 4) isPlainReg_CFG_CTRL (fun _ => rfl) (fun _ => rfl)
      fun h => h.cfgCtrlWrite_arm m
  · exact .of_writeTo (v := fun _ => 8) isPlainReg_CFG_CTRL (fun _ => rfl) (fun _ => rfl)
      fun h => h.cfgCtrlWrite_cancel m
  · exact .of_writeTo (v := fun _ => 16) isPlainReg_CFG_CTRL (fun _ => rfl) (fun _ => rfl)
      fun h => h.cfgCtrlWrite_applyNow m
  · exact .of_writeTo (v := fun _ => v.toNat) isPlainReg_CFG_LOAD_DATA (fun _ => rfl) (fun _ => rfl) fun _ => rfl

/-- Settles O24: SES_CTRL and SES_KEY_CTRL are written by five of the commands, and the others act. -/
theorem sessionsComplete : Obligations.SessionsComplete := by
  refine ⟨fun m slot => ?_, fun m => ?_, fun m => ?_, fun p => .of_actAwake fun _ => rfl,
    fun p => .of_actAwake fun _ => rfl, fun m lo hi => .of_actAwake fun _ => rfl, fun m slot wards => ?_,
    fun good => .of_actAwake fun _ => rfl, fun m slot => ?_⟩
  · exact .of_writeTo (v := fun _ => slot.toNat * 16 + 1) isPlainReg_SES_CTRL (fun _ => rfl) (fun _ => rfl)
      fun h => h.sesCtrlWrite_challenge _ slot.isLt
  · exact .of_writeTo (v := fun _ => 2) isPlainReg_SES_CTRL (fun _ => rfl) (fun _ => rfl)
      fun h => h.sesCtrlWrite_respond _
  · exact .of_writeTo (v := fun _ => 4) isPlainReg_SES_CTRL (fun _ => rfl) (fun _ => rfl)
      fun h => h.sesCtrlWrite_close _
  · exact .of_writeTo (v := fun _ => wards.toNat * 256 + slot.toNat * 16 + 1) isPlainReg_SES_KEY_CTRL (fun _ => rfl)
      (fun _ => rfl) fun h => h.writeKeyCtrl_program m _ _ slot.isLt wards.isLt
  · exact .of_writeTo (v := fun _ => slot.toNat * 16 + 2) isPlainReg_SES_KEY_CTRL (fun _ => rfl) (fun _ => rfl)
      fun h => h.writeKeyCtrl_revoke m _ _ slot.isLt

/-- Settles O25: one command checks its operands, and the others act. -/
theorem portCompletes : Obligations.PortCompletes :=
  ⟨fun _ _ => .of_actAwake fun _ => rfl, fun _ _ => .of_actAwake fun _ => rfl,
    fun _ _ _ => .of_actAwake fun _ => rfl, fun _ _ _ => .of_actAwake fun _ => rfl, fun _ => .of_actAwake fun _ => rfl,
    fun _ => .of_actAwake fun _ => rfl, .of_actAwake fun _ => rfl, fun _ => .of_actAwake fun _ => rfl,
    fun _ _ => .of_actAwake fun _ => rfl, fun _ _ hlen => .of_guard (fun _ => rfl) hlen, .of_actAwake fun _ => rfl,
    .of_actAwake fun _ => rfl⟩

/-! ## Commands that a keeper serves (R459, R471, R476 to R478) -/

theorem serves_keeperReset (m : Fin 4) (k : Fin 2) :
    Serves (.keeperReset m k) m KPR_CTRL.addr fun h => h.keeperReset k := by
  intro s ha hm _
  have e : exec (.keeperReset m k) s = s.actAwake fun h => h.serveReset m k := rfl
  have hreset : s.hub.serveReset m k = s.hub.keeperCtrl (2 ^ k.val) := by simp [Hub.serveReset, hm]
  rw [e, State.actAwake_of_awake ha, hreset, Hub.keeperCtrl_reset]

/-- A command that a keeper serves has the effect `f` of its operation. -/
theorem Serves.of_serve_eq {c : Instr} {m : Nat} {r : RF} {f : Hub → Hub} (op : KeeperOp)
    (e : ∀ s, exec c s = s.actAwake fun h => h.serve m r true op) (hf : ∀ h : Hub, h.keeperDo op = f h) :
    Serves c m r.addr f := by
  obtain rfl : (fun h => h.keeperDo op) = f := funext hf
  exact Serves.of_serve e

/-- Settles O26: eight commands are served by a keeper, and the others act. -/
theorem keepersComplete : Obligations.KeepersComplete := by
  refine ⟨fun beat => .of_actAwake fun _ => rfl, .of_actAwake fun _ => rfl, fun k => .of_actAwake fun _ => rfl,
    fun who => .of_actAwake fun _ => rfl, .of_actAwake fun _ => rfl, fun k instr => .of_actAwake fun _ => rfl,
    fun hasp => .of_actAwake fun _ => rfl, fun gap => .of_actAwake fun _ => rfl, .of_actAwake fun _ => rfl,
    fun crcOk same => .of_actAwake fun _ => rfl, .of_actAwake fun _ => rfl, fun m => .of_actAwake fun _ => rfl,
    fun k bad corrected => .of_actAwake fun _ => rfl, fun k r => .of_actAwake fun _ => rfl, serves_keeperReset,
    fun k => .of_actAwake fun _ => rfl, fun m => ?_, fun k image => .of_actAwake fun _ => rfl, fun m => ?_,
    fun ok => .of_actAwake fun _ => rfl, fun m v => ?_, fun m => ?_,
    fun flashOk sigOk formatOk version => .of_actAwake fun _ => rfl, fun m => ?_, fun ok => .of_actAwake fun _ => rfl,
    .of_actAwake fun _ => rfl, fun m => ?_, fun ok => .of_actAwake fun _ => rfl, fun m => ?_⟩
  · exact .of_serve_eq (.ctrl 4) (fun _ => rfl) Hub.keeperCtrl_swap
  · exact .of_serve_eq (.step 1) (fun _ => rfl) Hub.updStep_begin
  · exact .of_serve_eq (.data v.toNat) (fun _ => rfl) fun _ => rfl
  · exact .of_serve_eq (.step 2) (fun _ => rfl) Hub.updStep_end
  · exact .of_serve_eq (.step 4) (fun _ => rfl) Hub.updStep_prove
  · exact .of_serve_eq (.step 8) (fun _ => rfl) Hub.updStep_complete
  · exact .of_serve_eq (.step 16) (fun _ => rfl) Hub.updStep_abort

/-- Settles O27: PWR_CTRL, PWR_CELL_RESET and GZB_CTRL are written by four of the commands, one checks its operands,
and the others act, many of them in every power state. -/
theorem powerCompletes : Obligations.PowerCompletes := by
  refine ⟨fun m target => ?_, .of_actAwake fun _ => rfl, fun m key => ?_, fun m j c => ?_,
    fun k => .of_act fun _ => rfl, .of_act fun _ => rfl, .of_act fun _ => rfl, fun image => .of_actAwake fun _ => rfl,
    .of_actAwake fun _ => rfl, fun mv hlen => .of_guard (fun _ => rfl) hlen, fun m => ?_, .of_act fun _ => rfl,
    fun low high lost limit => .of_act fun _ => rfl, fun why => .of_act fun _ => rfl, .of_act fun _ => rfl,
    fun d => .of_act fun _ => rfl, .of_act fun _ => rfl, .of_act fun _ => rfl, fun word => .of_act fun _ => rfl,
    .of_act fun _ => rfl, .of_act fun _ => rfl, .of_act fun _ => rfl, .of_act fun _ => rfl, .of_act fun _ => rfl⟩
  · exact .of_writeTo (v := fun _ => 8 + target.toNat) isPlainReg_PWR_CTRL (fun _ => rfl) (fun _ => rfl)
      fun h => h.pwrCtrlWrite_go target.isLt
  · exact .of_writeTo (v := fun _ => key.toNat * 2 ^ 24 + 16) isPlainReg_PWR_CTRL (fun _ => rfl) (fun _ => rfl)
      fun h => h.pwrCtrlWrite_chipReset key.isLt
  · exact .of_writeTo (v := fun _ => cellResetWord j c) isPlainReg_PWR_CELL_RESET (fun _ => rfl) (fun _ => rfl)
      fun _ => if_pos (.inl (bit_cellResetWord j c))
  · exact .of_writeTo (v := fun _ => 1) isPlainReg_GZB_CTRL (fun _ => rfl) (fun _ => rfl) fun _ => rfl

end Sys2Proof.Machine
end

section
/-! The address words of the configuration frames (R388). -/

namespace Sys2Proof.Machine

/-- The fields of an address word (R388). -/
structure FrameFields where
  kind : Nat
  region : Nat
  block : Nat
  cell : Nat
  page : Nat

/-- The address word with these fields, its unused bits 0. -/
def FrameFields.word (x : FrameFields) : Nat :=
  x.kind * 2 ^ 28 + x.region * 2 ^ 20 + x.block * 2 ^ 16 + x.cell * 2 ^ 11 + x.page

def FrameFields.ofWord (a : Nat) : FrameFields :=
  ⟨bits a 31 28, bits a 23 20, bits a 19 16, bits a 15 11, bits a 7 0⟩

/-- The fields of the address word of a frame; block j is block j mod 4 of region j / 4 (R12). -/
def FrameFields.of : FrameId → FrameFields
  | .chip p => ⟨1, 0, 0, 0, p⟩
  | .region r => ⟨2, r, 0, 0, 0⟩
  | .block j => ⟨3, j / 4, j % 4, 0, 0⟩
  | .cell j c => ⟨4, j / 4, j % 4, c, 0⟩
  | .trellis p => ⟨5, 0, 0, 0, p⟩
  | .laneMap => ⟨6, 0, 0, 0, 0⟩
  | .spokeMap => ⟨7, 0, 0, 0, 0⟩

/-- The table of R388: the fields each type of frame uses, the others 0. -/
def FrameFields.InTable (x : FrameFields) : Prop :=
  (x.kind = 1 ∧ x.region = 0 ∧ x.block = 0 ∧ x.cell = 0 ∧ x.page < 2) ∨
  (x.kind = 2 ∧ x.region < 6 ∧ x.block = 0 ∧ x.cell = 0 ∧ x.page = 0) ∨
  (x.kind = 3 ∧ x.region < 6 ∧ x.block < 4 ∧ x.cell = 0 ∧ x.page = 0) ∨
  (x.kind = 4 ∧ x.region < 6 ∧ x.block < 4 ∧ x.cell < 17 ∧ x.page = 0) ∨
  (x.kind = 5 ∧ x.region = 0 ∧ x.block = 0 ∧ x.cell = 0 ∧ x.page < 8) ∨
  ((x.kind = 6 ∨ x.kind = 7) ∧ x.region = 0 ∧ x.block = 0 ∧ x.cell = 0 ∧ x.page = 0)

theorem FrameFields.word_ofWord {a : Nat} (ha : a < 2 ^ 32) (h24 : bits a 27 24 = 0) (h8 : bits a 10 8 = 0) :
    (ofWord a).word = a := by
  simp only [word, ofWord, bits] at *
  omega

/-- Fields in the table fit their places in the word, and the bits between them are 0. -/
theorem FrameFields.InTable.ofWord_word {x : FrameFields} (hx : x.InTable) :
    ofWord x.word = x ∧ bits x.word 27 24 = 0 ∧ bits x.word 10 8 = 0 := by
  obtain ⟨t, r, b, c, p⟩ := x
  have hfit : t < 16 ∧ r < 16 ∧ b < 16 ∧ c < 32 ∧ p < 256 := by
    simp only [InTable] at hx
    omega
  simp only [ofWord, word, bits, FrameFields.mk.injEq]
  omega

theorem frameAddress_eq_word (f : FrameId) : frameAddress f = (FrameFields.of f).word := by
  cases f <;> simp only [frameAddress, FrameFields.of, FrameFields.word] <;> omega

theorem frameAddrOk_iff (a : Nat) :
    frameAddrOk a = true ↔ bits a 27 24 = 0 ∧ bits a 10 8 = 0 ∧ (FrameFields.ofWord a).InTable := by
  simp only [frameAddrOk, FrameFields.InTable, FrameFields.ofWord]
  generalize bits a 31 28 = t, bits a 23 20 = r, bits a 19 16 = b, bits a 15 11 = c, bits a 7 0 = p
  split_ifs <;> simp <;> omega

/-- The table lists the fields of the frames, and no others. -/
theorem FrameFields.inTable_iff (x : FrameFields) : x.InTable ↔ ∃ f, of f = x := by
  constructor
  · obtain ⟨t, r, b, c, p⟩ := x
    rintro (⟨rfl, rfl, rfl, rfl, hp⟩ | ⟨rfl, hr, rfl, rfl, rfl⟩ | ⟨rfl, hr, hb, rfl, rfl⟩ | ⟨rfl, hr, hb, hc, rfl⟩ |
      ⟨rfl, rfl, rfl, rfl, hp⟩ | ⟨rfl | rfl, rfl, rfl, rfl, rfl⟩)
    · exact ⟨.chip ⟨p, hp⟩, rfl⟩
    · exact ⟨.region ⟨r, hr⟩, rfl⟩
    · exact ⟨.block ⟨4 * r + b, by dsimp only at hr hb; omega⟩, by simp [of]; dsimp only at hr hb; omega⟩
    · exact ⟨.cell ⟨4 * r + b, by dsimp only at hr hb; omega⟩ ⟨c, hc⟩, by simp [of]; dsimp only at hr hb; omega⟩
    · exact ⟨.trellis ⟨p, hp⟩, rfl⟩
    · exact ⟨.laneMap, rfl⟩
    · exact ⟨.spokeMap, rfl⟩
  · rintro ⟨f, rfl⟩
    cases f <;> simp [of, InTable] <;> omega

/-- Frames of two types differ in the type, and frames of one type in what numbers them. -/
theorem FrameFields.of_injective : Function.Injective of := by
  intro f g e
  cases f <;> cases g <;> simp only [of, FrameFields.mk.injEq] at e <;> simp <;> omega

/-- Settles O30: the words of the table are the address words of the frames, and a word gives its fields back. -/
theorem frameAddressesOfR388 : Obligations.FrameAddressesOfR388 := by
  refine ⟨fun a ha => ?_, fun f g e => FrameFields.of_injective ?_⟩
  · rw [frameAddrOk_iff]
    constructor
    · rintro ⟨h24, h8, hx⟩
      obtain ⟨f, hf⟩ := (FrameFields.inTable_iff _).mp hx
      exact ⟨f, by rw [frameAddress_eq_word, hf, FrameFields.word_ofWord ha h24 h8]⟩
    · rintro ⟨f, rfl⟩
      have hx : (FrameFields.of f).InTable := (FrameFields.inTable_iff _).mpr ⟨f, rfl⟩
      obtain ⟨hback, h24, h8⟩ := hx.ofWord_word
      rw [frameAddress_eq_word, hback]
      exact ⟨h24, h8, hx⟩
  · have hback (f : FrameId) : FrameFields.ofWord (frameAddress f) = FrameFields.of f := by
      rw [frameAddress_eq_word]
      exact ((FrameFields.inTable_iff _).mpr ⟨f, rfl⟩).ofWord_word.1
    rw [← hback f, ← hback g, e]

end Sys2Proof.Machine
end

section
/-! Loads and applies of a configuration that are out of place (R401, R402, R404, R407). -/

namespace Sys2Proof.Machine

/-- Setting a flag sets it, and changes its register alone. -/
theorem Hub.set1_reports (h : Hub) {f : RF} (hl : f.lo ≤ f.hi) (hh : f.hi < 32) :
    (h.set1 f).on f = true ∧ OnlyRegs [f.addr] h (h.set1 f) :=
  ⟨h.on_set1 hl hh, h.onlyRegs_put f 1⟩

section Refusals

variable {h : Hub}

theorem Hub.cfgLoadData_of_refused {m : Nat} (hr : h.get CFG_STATUS_STATE ≠ 1 ∨ h.get CFG_STATUS_OWNER ≠ ownerOf m)
    (v : Nat) : h.cfgLoadData m v = h.set1 CFG_STATUS_LOAD_REFUSED :=
  if_pos hr

theorem Hub.cfgApplyNow_of_inRun (hr : h.inRun = true) : h.cfgApplyNow = h.set1 CFG_STATUS_RUN_LOCKED := if_pos hr

theorem Hub.cfgArm_of_late
    (hr : aheadMod (2 ^ 48) (h.r64 CFG_APPLY_BX / 2 ^ 16) h.clk.frame < 2 ∨
      2 ^ 47 ≤ aheadMod (2 ^ 48) (h.r64 CFG_APPLY_BX / 2 ^ 16) h.clk.frame) :
    h.cfgArm = h.set1 CFG_STATUS_ARM_LATE :=
  if_neg (by omega)

theorem Hub.cfgStall_of_not_loading (hs : h.get CFG_STATUS_STATE ≠ 1) : h.cfgStall = h := if_neg hs

theorem Hub.cfgStall_of_loading (hs : h.get CFG_STATUS_STATE = 1) : h.cfgStall = h.loadFail 14 := if_pos hs

theorem Hub.failWhy_loadFail (h : Hub) (why : Nat) : (h.loadFail why).get CFG_STATUS_FAIL_WHY = why % 2 ^ 5 :=
  Hub.get_put_self _ CFG_STATUS_FAIL_WHY why (by decide) (by decide)

end Refusals

/-- Settles O58: each refusal sets its flag of CFG_STATUS, and a stall in LOADING fails the load. -/
theorem configurationRefusals : Obligations.ConfigurationRefusals := by
  refine ⟨fun h m v hr => ?_, fun h hr => ?_, fun h hr => ?_, fun s ha => ⟨fun hs => ?_, fun hs => ?_⟩⟩
  · rw [Hub.cfgLoadData_of_refused hr]
    exact h.set1_reports (by decide) (by decide)
  · rw [Hub.cfgApplyNow_of_inRun hr]
    exact h.set1_reports (by decide) (by decide)
  · rw [Hub.cfgArm_of_late hr]
    exact h.set1_reports (by decide) (by decide)
  · have e : exec .cfgLoadStall s = s.actAwake fun h => h.cfgStall := rfl
    rw [e, State.actAwake_of_awake ha, Hub.cfgStall_of_not_loading hs]
  · refine .of_actAwake (f := fun h => h.cfgStall) rfl ha ?_
    rw [Hub.cfgStall_of_loading hs]
    exact s.hub.failWhy_loadFail 14

end Sys2Proof.Machine
end

section
/-! The addresses of an access and the top of the address space (R445, R448). -/

namespace Sys2Proof.Machine

/-- The last word of the address space. -/
def topAddr : Nat := 0xFFFFFFFC

theorem busItems_getElem? (access addr : Nat) (fix : Bool) {ops : List BusOp} {k : Nat} (hk : k < ops.length) :
    (busItems access addr fix ops)[k]? =
      some { access := access, pos := k, addr := stepAddr addr k fix, op := ops[k], fix := fix } := by
  have hpair : ((List.range ops.length).zip ops)[k]? = some (k, ops[k]) := by
    rw [List.getElem?_eq_getElem (by simpa using hk)]
    simp
  simp [busItems, hpair]

theorem stepAddr_inc (addr k : Nat) :
    stepAddr addr k false = if addr + 4 * k ≤ topAddr then addr + 4 * k else topAddr :=
  Nat.min_def

theorem place_topAddr : place topAddr = .hole := by decide

/-- Nothing is presented where nothing lies (R427, R444). -/
theorem Hub.presented_eq_false_of_hole {a : Nat} (hp : place a = .hole) (h : Hub) (m : Nat) (w : Bool) :
    h.presented m a w = false := by
  simp [Hub.presented, hp]

/-- An access to a place with nothing in it drops the held +0 where it writes, and gives VOID (R444, R448). -/
theorem Hub.doItem_of_hole (h : Hub) (m : Nat) {i : BusItem} (hp : place (i.addr - i.addr % 4) = .hole) :
    h.doItem m i = (h.dropLatch m i.op.writes).result m i 0 true := by
  have hno := fun g : Hub => g.presented_eq_false_of_hole hp m i.op.writes
  simp [Hub.doItem, Hub.latched, hno]

/-- Settles O31: the addresses of the items of an access, and what lies at the last of them. -/
theorem addressStepping : Obligations.AddressStepping := by
  refine ⟨fun access addr ops k hk => ⟨_, busItems_getElem? access addr false hk, rfl, rfl, stepAddr_inc addr k⟩,
    fun h m i hi => h.doItem_of_hole m ?_⟩
  rw [hi]
  exact place_topAddr

end Sys2Proof.Machine
end

section
/-! Reads of the two halves of a 64-bit value (R447). -/

namespace Sys2Proof.Machine

section Shadow

variable {h : Hub} {m a v : Nat} {l : Loc}

theorem Hub.readLow_of_not_pop (hl : l.name ≠ .TDC_TIN_FIFO) :
    h.readLow m a l = (h.loadShadow m a l (h.readReg { l with high := true } (keyOf m a l + 4)),
      h.readReg l (keyOf m a l), false) :=
  if_neg hl

theorem Hub.shadow_loadShadow (high : Nat) : ((h.loadShadow m a l high).master m).shadow = some (a + 4, high) := by
  simp [Hub.loadShadow, Hub.master_setMaster]

theorem Hub.readHigh_of_shadow (hs : (h.master m).shadow = some (a, v)) : h.readHigh m a l = (h, v, false) := by
  simp [Hub.readHigh, hs]

theorem Hub.readHigh_of_no_shadow (hs : (h.master m).shadow = none) :
    h.readHigh m a l = (h, h.readReg l (keyOf m a l), true) := by
  simp [Hub.readHigh, hs]

end Shadow

/-- Settles O33: the read of +0 puts the +4 half of its instant into the shadow, which the read of +4 gives. -/
theorem shadowReadsAreCoherent : Obligations.ShadowReadsAreCoherent := by
  intro h g m a l hl
  rw [Hub.readLow_of_not_pop hl]
  refine ⟨rfl, rfl, fun hg => Hub.readHigh_of_shadow ?_, fun hs => Hub.readHigh_of_no_shadow hs⟩
  rw [hg, Hub.shadow_loadShadow]

end Sys2Proof.Machine
end

section
/-! Claims of the hasp (R462, R464) and the steps of an image update (R478) that are refused. -/

namespace Sys2Proof.Machine

/-! ## Claims of the hasp -/

section Claims

variable {h : Hub} {k : Nat}

theorem Hub.haspClaim_of_not_mayClaim (hm : h.mayClaim k = false) : h.haspClaim k = h := by
  simp [Hub.haspClaim, hm]

/-- A keeper holds the hasp, and its keepalive has not been absent (R462). -/
def Hub.HaspHeld (h : Hub) : Prop := h.owner ≠ none ∧ (h.get HASP_STATUS_ABSENT_US < 8 ∨ h.toggling = true)

theorem Hub.haspClaim_of_haspHeld (hh : h.HaspHeld) (hm : h.mayClaim k = true) :
    h.haspClaim k = h.set1 HASP_STATUS_CLAIM_REFUSED := by
  obtain ⟨howner, hkeep⟩ := hh
  have hno : ¬ (h.owner = none ∨ (8 ≤ h.get HASP_STATUS_ABSENT_US ∧ !h.toggling)) := by
    rcases hkeep with ht | ht
    · simp [howner, Nat.not_le.mpr ht]
    · simp [howner, ht]
  rw [Hub.haspClaim, if_pos hm, if_neg hno]

/-! CLAIM_REFUSED is no part of what a claim rests on. -/

theorem Hub.owner_claimRefused (h : Hub) : (h.set1 HASP_STATUS_CLAIM_REFUSED).owner = h.owner := by
  have e : (h.set1 HASP_STATUS_CLAIM_REFUSED).get HASP_STATUS_OWNER = h.get HASP_STATUS_OWNER :=
    h.get_put_apart 1 (by decide) (by decide) (by decide) (by decide)
  simp only [Hub.owner, e]

theorem Hub.absent_claimRefused (h : Hub) :
    (h.set1 HASP_STATUS_CLAIM_REFUSED).get HASP_STATUS_ABSENT_US = h.get HASP_STATUS_ABSENT_US :=
  h.get_put_apart 1 (by decide) (by decide) (by decide) (by decide)

theorem kState_addr (k : Nat) : (kState k).addr = KPR_STATUS.addr := by
  rw [kState]; split <;> rfl

theorem Hub.kSt_claimRefused (h : Hub) (k : Nat) : (h.set1 HASP_STATUS_CLAIM_REFUSED).kSt k = h.kSt k :=
  h.get_put_ne _ _ _ (by rw [kState_addr]; decide)

theorem Hub.kFit_claimRefused (h : Hub) (k : Nat) : (h.set1 HASP_STATUS_CLAIM_REFUSED).kFit k = h.kFit k :=
  (h.regsBut_set1 HASP_STATUS_CLAIM_REFUSED).on _ (by simp [KPR_HEALTH_FIT, HASP_STATUS_CLAIM_REFUSED]; omega)

theorem Hub.mayClaim_claimRefused (h : Hub) (k : Nat) :
    (h.set1 HASP_STATUS_CLAIM_REFUSED).mayClaim k = h.mayClaim k := by
  simp only [Hub.mayClaim, Hub.fitStandby, h.kSt_claimRefused, h.kFit_claimRefused]

theorem Hub.toggling_claimRefused (h : Hub) : (h.set1 HASP_STATUS_CLAIM_REFUSED).toggling = h.toggling := by
  have hq : (h.set1 HASP_STATUS_CLAIM_REFUSED).kpr = h.kpr := rfl
  simp only [Hub.toggling, Hub.keeperRuns, h.owner_claimRefused, h.kSt_claimRefused, hq]

theorem Hub.HaspHeld.claimRefused (hh : h.HaspHeld) : (h.set1 HASP_STATUS_CLAIM_REFUSED).HaspHeld := by
  rw [Hub.HaspHeld, h.owner_claimRefused, h.absent_claimRefused, h.toggling_claimRefused]
  exact hh

end Claims

/-- The claim of keeper k, if it makes one, among the claims `a` and `b` of one CONTROL cycle. -/
def Hub.claimOf (a b : Bool) (h : Hub) (k : Nat) : Hub := if (if k = 0 then a else b) then h.haspClaim k else h

/-- Keeper k makes a claim it may make. -/
def Hub.Claims (a b : Bool) (h : Hub) (k : Nat) : Prop := (if k = 0 then a else b) = true ∧ h.mayClaim k = true

section ClaimOf

variable {a b : Bool} {h : Hub} {k : Nat}

theorem Hub.haspClaims_eq (a b : Bool) (h : Hub) :
    h.haspClaims a b = ((h.claimOf a b (h.kpr.claimPtr % 2)).claimOf a b (1 - h.kpr.claimPtr % 2)) := rfl

theorem Hub.claimOf_of_not_claims (hc : ¬ h.Claims a b k) : h.claimOf a b k = h := by
  unfold Hub.claimOf
  by_cases hk : (if k = 0 then a else b) = true
  · rw [if_pos hk]
    exact Hub.haspClaim_of_not_mayClaim (Bool.eq_false_iff.mpr fun hm => hc ⟨hk, hm⟩)
  · exact if_neg hk

theorem Hub.claimOf_of_claims (hh : h.HaspHeld) (hc : h.Claims a b k) :
    h.claimOf a b k = h.set1 HASP_STATUS_CLAIM_REFUSED :=
  (if_pos hc.1).trans (Hub.haspClaim_of_haspHeld hh hc.2)

theorem Hub.claims_claimRefused : (h.set1 HASP_STATUS_CLAIM_REFUSED).Claims a b k ↔ h.Claims a b k := by
  rw [Hub.Claims, h.mayClaim_claimRefused, ← Hub.Claims]

/-- `g` differs from `h` by refused claims alone, of which there has been one. -/
def Hub.ClaimRefused (h g : Hub) : Prop :=
  g.on HASP_STATUS_CLAIM_REFUSED = true ∧ g.owner = h.owner ∧ Hub.OnlyRegs [HASP_STATUS.addr] h g

theorem Hub.claimRefused_set1 (h : Hub) : h.ClaimRefused (h.set1 HASP_STATUS_CLAIM_REFUSED) :=
  ⟨h.on_set1 (by decide) (by decide), h.owner_claimRefused, h.onlyRegs_put _ _⟩

theorem Hub.ClaimRefused.trans {g x : Hub} (H : h.ClaimRefused g) (G : g.ClaimRefused x) : h.ClaimRefused x := by
  obtain ⟨-, howner, honly⟩ := H
  obtain ⟨hon, gowner, gonly⟩ := G
  exact ⟨hon, gowner.trans howner, (honly.trans gonly).mono (by simp)⟩

/-- Of two claims of one cycle, at least one made and both under a held hasp, all are refused. -/
theorem Hub.claimRefused_claimOf_claimOf {i j : Nat} (hh : h.HaspHeld) (hc : h.Claims a b i ∨ h.Claims a b j) :
    h.ClaimRefused ((h.claimOf a b i).claimOf a b j) := by
  by_cases hi : h.Claims a b i
  · rw [Hub.claimOf_of_claims hh hi]
    by_cases hj : h.Claims a b j
    · rw [Hub.claimOf_of_claims hh.claimRefused (Hub.claims_claimRefused.mpr hj)]
      exact h.claimRefused_set1.trans (Hub.claimRefused_set1 _)
    · rw [Hub.claimOf_of_not_claims (hj ∘ Hub.claims_claimRefused.mp)]
      exact h.claimRefused_set1
  · rw [Hub.claimOf_of_not_claims hi, Hub.claimOf_of_claims hh (hc.resolve_left hi)]
    exact h.claimRefused_set1

/-- The pointer only orders the claims of the two keepers. -/
theorem claimPtr_cases (P : Nat → Prop) (x : Nat) : P (x % 2) ∨ P (1 - x % 2) ↔ P 0 ∨ P 1 := by
  rcases Nat.mod_two_eq_zero_or_one x with hx | hx <;> simp [hx, or_comm]

theorem Hub.claims_iff_of_le_one (hk : k = 0 ∨ k = 1) :
    h.Claims a b k ↔ (k = 0 ∧ a = true ∨ k = 1 ∧ b = true) ∧ (h.kSt k = kBooting ∨ h.fitStandby k = true) := by
  rcases hk with rfl | rfl <;> simp [Hub.Claims, Hub.mayClaim]

end ClaimOf

/-- Settles O49: a refused claim leaves all a claim rests on, so a second one of the same cycle is refused alike. -/
theorem claimsWaitForTheKeepalive : Obligations.ClaimsWaitForTheKeepalive := by
  intro s a b ha claims
  have e : exec (.haspClaim ⟨a, b⟩) s = s.actAwake fun h => h.haspClaims a b := rfl
  have hiff : ∀ k, k = 0 ∨ k = 1 → (s.hub.Claims a b k ↔ claims k) := fun k hk => Hub.claims_iff_of_le_one hk
  refine ⟨fun hc howner hkeep => .of_actAwake (f := fun h => h.haspClaims a b) e ha ?_, fun h0 h1 => ?_⟩
  · rw [Hub.haspClaims_eq]
    refine Hub.claimRefused_claimOf_claimOf ⟨howner, hkeep⟩ ((claimPtr_cases (s.hub.Claims a b) _).mpr ?_)
    rwa [hiff 0 (.inl rfl), hiff 1 (.inr rfl)]
  · have hno : ¬ (s.hub.Claims a b (s.hub.kpr.claimPtr % 2) ∨ s.hub.Claims a b (1 - s.hub.kpr.claimPtr % 2)) := by
      rw [claimPtr_cases (s.hub.Claims a b), hiff 0 (.inl rfl), hiff 1 (.inr rfl)]
      exact fun hc => hc.elim h0 h1
    rw [not_or] at hno
    rw [e, State.actAwake_of_awake ha, Hub.haspClaims_eq, Hub.claimOf_of_not_claims hno.1,
      Hub.claimOf_of_not_claims hno.2]

/-! ## Steps of an image update -/

section Update

variable {h : Hub}

theorem Hub.updBegin_of_refused (h0 : h.updState ≠ 0) (h8 : h.updState ≠ 8) (h9 : h.updState ≠ 9) :
    h.updBegin = h.stepRefused := if_neg (by simp [h0, h8, h9])

theorem Hub.updEnd_of_refused (hs : h.updState ≠ 2) : h.updEnd = h.stepRefused := if_neg hs

theorem Hub.updProve_of_refused (hs : h.updState ≠ 4) : h.updProve = h.stepRefused := if_neg hs

theorem Hub.updComplete_of_refused (hs : h.updState ≠ 6) : h.updComplete = h.stepRefused := if_neg hs

theorem Hub.updAbort_of_refused (hs : h.updState < 1 ∨ 6 < h.updState) : h.updAbort = h.stepRefused :=
  if_neg (by omega)

theorem Hub.updData_of_refused (hs : ¬ (h.updState = 1 ∨ h.updState = 2) ∨
    h.rd KPR_UPD_LEN.addr < h.rd KPR_UPD_COUNT.addr + 4) : h.updData = h.stepRefused :=
  if_neg fun hc => hs.elim (· hc.1) (Nat.not_lt.mpr hc.2)

theorem Hub.updState_stepRefused (h : Hub) : h.stepRefused.updState = h.updState :=
  h.get_put_apart 1 (by decide) (by decide) (by decide) (by decide)

theorem Hub.stepRefused_reports (h : Hub) :
    h.stepRefused.on KPR_UPD_STATUS_STEP_REFUSED = true ∧ h.stepRefused.updState = h.updState ∧
      OnlyRegs [KPR_UPD_STATUS.addr] h h.stepRefused :=
  ⟨h.on_set1 (by decide) (by decide), h.updState_stepRefused, h.onlyRegs_put KPR_UPD_STATUS_STEP_REFUSED 1⟩

/-- A served step that is refused sets STEP_REFUSED and leaves the update where it is. -/
theorem Serves.gives_stepRefused {c : Instr} {m addr : Nat} {f : Hub → Hub} {s : State} (hc : Serves c m addr f)
    (ha : s.hub.awake = true) (hm : s.hub.mayWrite m addr = true) (hk : s.hub.on KPR_STATUS_KEEPERLESS = false)
    (hf : f s.hub = s.hub.stepRefused) : s.Gives c fun g =>
      g.on KPR_UPD_STATUS_STEP_REFUSED = true ∧ g.updState = s.hub.updState ∧
        Hub.OnlyRegs [KPR_UPD_STATUS.addr] s.hub g :=
  ⟨s.hub.stepRefused, by rw [hc s ha hm hk, hf], s.hub.stepRefused_reports⟩

end Update

/-- Settles O50: out of its state, each step is `stepRefused`. -/
theorem updateStepsInOrder : Obligations.UpdateStepsInOrder := by
  intro s m ha hk st refused
  obtain ⟨-, -, -, -, -, -, -, -, -, -, -, -, -, -, -, -, -, -, hbegin, -, hdata, hend, -, hprove, -, -, hcomplete, -,
    habort⟩ := keepersComplete
  refine ⟨fun hm => ⟨fun h0 h8 h9 => ?_, fun hs => ?_, fun hs => ?_, fun hs => ?_, fun hs => ?_⟩,
    fun hm => ⟨fun h1 h2 v => ?_, fun hl v => ?_⟩⟩
  · exact (hbegin m).gives_stepRefused ha hm hk (Hub.updBegin_of_refused h0 h8 h9)
  · exact (hend m).gives_stepRefused ha hm hk (Hub.updEnd_of_refused hs)
  · exact (hprove m).gives_stepRefused ha hm hk (Hub.updProve_of_refused hs)
  · exact (hcomplete m).gives_stepRefused ha hm hk (Hub.updComplete_of_refused hs)
  · exact (habort m).gives_stepRefused ha hm hk (Hub.updAbort_of_refused hs)
  · exact (hdata m v).gives_stepRefused ha hm hk (Hub.updData_of_refused (.inl (not_or.mpr ⟨h1, h2⟩)))
  · exact (hdata m v).gives_stepRefused ha hm hk (Hub.updData_of_refused (.inr hl))

end Sys2Proof.Machine
end

section
/-! Power transitions (R494, R495, R509). -/

namespace Sys2Proof.Machine

section Go

variable {h : Hub} {t : Nat}

theorem Hub.pwrCtrlWrite_reserved (ht : t < 8) (hr : t < 2 ∨ 4 < t) :
    h.pwrCtrlWrite (8 + t) = h.set1 PWR_STATUS_CFG_ILLEGAL := by
  rw [h.pwrCtrlWrite_go ht, if_pos hr]

theorem Hub.pwrCtrlWrite_state (h2 : 2 ≤ t) (h4 : t ≤ 4) : h.pwrCtrlWrite (8 + t) = h.pwrGo t := by
  rw [h.pwrCtrlWrite_go (by omega), if_neg (by omega)]

theorem Hub.pwrGo_of_waiting (hg : h.on PWR_CTRL_GO = true) : h.pwrGo t = h := if_pos hg

theorem Hub.pwrGo_of_refused (hg : h.on PWR_CTRL_GO = false) (hr : h.goListed t = false ∨ h.goReady t = false) :
    h.pwrGo t = h.set1 PWR_STATUS_GOTO_REFUSED := by
  have hno : ¬ (h.goListed t = true ∧ h.goReady t = true) := by
    rcases hr with hr | hr <;> simp [hr]
  rw [Hub.pwrGo, if_neg (by simp [hg]), if_neg hno, Hub.gotoRefused]

theorem Hub.pwrGo_of_listed (hg : h.on PWR_CTRL_GO = false) (hl : h.goListed t = true) (hr : h.goReady t = true) :
    h.pwrGo t = { h with pwr := { h.pwr with goTarget := some t } }.put PWR_CTRL_GO 1 := by
  rw [Hub.pwrGo, if_neg (by simp [hg]), if_pos ⟨hl, hr⟩]

end Go

section Transition

variable {h : Hub}

theorem Hub.goListed_run_of_ready (hs : h.pwr.state = .ready) : h.goListed 4 = true := by
  simp [Hub.goListed, hs]

theorem Hub.goListed_ready_of_run (hs : h.pwr.state = .run) : h.goListed 3 = true := by
  simp [Hub.goListed, hs]

theorem Hub.pwrTransition_run (hs : h.pwr.state = .ready) (ht : h.pwr.goTarget = some 4) :
    h.pwrTransition = h.goDone.setPState .run := by
  simp [Hub.pwrTransition, ht, Hub.goListed_run_of_ready hs, Hub.goReady]

theorem Hub.pwrTransition_ready (hs : h.pwr.state = .run) (ht : h.pwr.goTarget = some 3) :
    h.pwrTransition = h.goDone.setPState .ready := by
  simp [Hub.pwrTransition, ht, Hub.goListed_ready_of_run hs, Hub.goReady, hs]

/-- What `g` shows once the state `p` with the code `n` has been taken up at a GO. -/
def Hub.Entered (p : PState) (n : Nat) (h g : Hub) : Prop :=
  g.pwr = { h.pwr with state := p, goTarget := none } ∧ g.get PWR_STATUS_STATE = n ∧
    g.on PWR_CTRL_GO = false ∧ Hub.RegsBut [PWR_STATUS.addr, PWR_CTRL.addr] h g

theorem Hub.on_goDone (h : Hub) : h.goDone.on PWR_CTRL_GO = false := Hub.on_put_zero _ (by decide) (by decide)

theorem Hub.regsBut_goDone (h : Hub) : RegsBut [PWR_CTRL.addr] h h.goDone :=
  Hub.regsBut_put { h with pwr := { h.pwr with goTarget := none } } PWR_CTRL_GO 0

/-- Taking up a state once GO is done; `hp` says how the state is coded. -/
theorem Hub.entered_of_setPState {p : PState} {n : Nat} (hn : n < 8)
    (hp : ∀ g : Hub, g.setPState p = { g with pwr := { g.pwr with state := p } }.put PWR_STATUS_STATE n) :
    h.Entered p n (h.goDone.setPState p) := by
  have hregs : RegsBut [PWR_STATUS.addr] h.goDone (h.goDone.setPState p) := by
    rw [hp]
    exact Hub.regsBut_put { h.goDone with pwr := { h.goDone.pwr with state := p } } PWR_STATUS_STATE n
  refine ⟨by rw [hp]; rfl, ?_, ?_, (h.regsBut_goDone.mono (by simp)).trans hregs (by simp)⟩
  · rw [hp, Hub.get_put_self _ _ _ (by decide) (by decide)]
    exact Nat.mod_eq_of_lt hn
  · rw [hregs.on _ (by decide)]
    exact h.on_goDone

theorem Hub.entered_run (h : Hub) : h.Entered .run 4 (h.goDone.setPState .run) :=
  Hub.entered_of_setPState (by decide) fun _ => rfl

theorem Hub.entered_ready (h : Hub) : h.Entered .ready 3 (h.goDone.setPState .ready) :=
  Hub.entered_of_setPState (by decide) fun _ => rfl

end Transition

/-- Settles O51: a write of GO refuses, waits or sets the target, and the transition takes it up. -/
theorem powerTransitions : Obligations.PowerTransitions := by
  refine ⟨fun h t ht => ⟨fun hr => ?_, fun h2 h4 hg => ?_, fun h2 h4 hg hr => ?_, fun h2 h4 hg hl hr => ?_⟩,
    fun s => ⟨fun hs ht => ?_, fun hs ht => ?_⟩⟩
  · rw [Hub.pwrCtrlWrite_reserved ht hr]
    exact h.set1_reports (by decide) (by decide)
  · rw [Hub.pwrCtrlWrite_state h2 h4, Hub.pwrGo_of_waiting hg]
  · rw [Hub.pwrCtrlWrite_state h2 h4, Hub.pwrGo_of_refused hg hr]
    exact h.set1_reports (by decide) (by decide)
  · rw [Hub.pwrCtrlWrite_state h2 h4, Hub.pwrGo_of_listed hg hl hr]
    exact ⟨rfl, Hub.on_put_one _ (by decide) (by decide), rfl,
      Hub.regsBut_put { h with pwr := { h.pwr with goTarget := some t } } PWR_CTRL_GO 1⟩
  · refine .of_actAwake (f := fun h => h.pwrTransition) rfl (by simp [Hub.awake, hs]) ?_
    rw [Hub.pwrTransition_run hs ht]
    exact s.hub.entered_run
  · refine .of_actAwake (f := fun h => h.pwrTransition) rfl (by simp [Hub.awake, hs]) ?_
    rw [Hub.pwrTransition_ready hs ht]
    exact s.hub.entered_ready

end Sys2Proof.Machine
end

section
/-! What a chip reset keeps (R505), and the test access port (R528). -/

namespace Sys2Proof.Machine

/-! ## The chip reset -/

theorem SMap.get_filter {α : Type} (d : Nat → α) (p : Nat → Bool) (m : SMap α) (k : Nat) :
    SMap.get d (m.filter fun x => p x.1) k = if p k then SMap.get d m k else d k := by
  induction m with
  | nil => simp [SMap.get]
  | cons x t ih =>
    obtain ⟨a, v⟩ := x
    by_cases ha : a = k
    · subst ha
      by_cases hp : p a = true <;> simp [SMap.get, hp, ih]
    · by_cases hp : p a = true <;> simp [SMap.get, hp, ha, ih]

/-- What stands of the hub at a chip reset, before the lanes keep their signals and the reset reports itself. -/
def Hub.wiped (h : Hub) : Hub :=
  { Hub.reset with
    regs := h.regs.filter fun p => gazeboKey p.1
    fuse := h.fuse
    keys := h.keys
    nonces := h.nonces
    access := h.access
    tap := h.tap
    clk := { Hub.reset.clk with
      ocxoWarm := h.clk.ocxoWarm, ocxoHz := h.clk.ocxoHz, offsetBad := h.clk.offsetBad }
    kpr := { Hub.reset.kpr with header := h.kpr.header }
    pwr := { Hub.reset.pwr with
      supplyBad := h.pwr.supplyBad, ioLost := h.pwr.ioLost, gzbStopped := h.pwr.gzbStopped } }

/-- The wiped hub whose lanes have kept their signals. -/
def Hub.wipedLanes (h : Hub) : Hub :=
  h.wiped.forAll (List.range 30) fun g l => g.setLane l (keptLane (h.lane l))

/-- The reset reports itself in the registers, and the hub enters BOOT. -/
def Hub.reportReset (g : Hub) (count why good : Nat) : Hub :=
  ((((g.wr PWR_RESET_COUNT.addr count).put PWR_STATUS_RESET_WHY why).put GZB_CTRL_ENTER 0).put
    PWR_STATUS_SUPPLY_GOOD good).setPState .boot

section ChipReset

variable (h : Hub) (why : Nat)

theorem Hub.chipReset_eq : h.chipReset why =
    h.wipedLanes.reportReset ((h.rd PWR_RESET_COUNT.addr + 1) % 2 ^ 32) why (h.get PWR_STATUS_SUPPLY_GOOD) := rfl

/-- What no lane holds is as in the wiped hub. -/
theorem Hub.wipedLanes_keeps {β : Type} (p : Hub → β) (hp : ∀ g l x, p (Hub.setLane g l x) = p g) :
    p h.wipedLanes = p h.wiped :=
  Hub.forAll_keeps p (fun g l _ => hp g l _) _

theorem Hub.rd_wipedLanes (a : Nat) :
    h.wipedLanes.rd a = if gazeboKey a then h.rd a else (resetWord h.fuse a).toNat := by
  have e : h.wipedLanes.rd a = h.wiped.rd a := h.wipedLanes_keeps (·.rd a) fun _ _ _ => rfl
  have hget := SMap.get_filter (resetWord h.fuse) gazeboKey h.regs a
  have hw : h.wiped.rd a = (SMap.get (resetWord h.fuse) (h.regs.filter fun p => gazeboKey p.1) a).toNat := rfl
  rw [e, hw, hget]
  split <;> rfl

end ChipReset

section SetBoot

variable (h : Hub)

theorem Hub.setPState_boot :
    h.setPState .boot = { h with pwr := { h.pwr with state := .boot } }.put PWR_STATUS_STATE 1 := rfl

theorem Hub.regsBut_setPState_boot : RegsBut [PWR_STATUS.addr] h (h.setPState .boot) :=
  Hub.regsBut_put { h with pwr := { h.pwr with state := .boot } } PWR_STATUS_STATE 1

theorem Hub.get_state_setPState_boot : (h.setPState .boot).get PWR_STATUS_STATE = 1 :=
  Hub.get_put_self _ _ _ (by decide) (by decide)

theorem Hub.get_resetWhy_setPState_boot :
    (h.setPState .boot).get PWR_STATUS_RESET_WHY = h.get PWR_STATUS_RESET_WHY :=
  Hub.get_put_apart { h with pwr := { h.pwr with state := .boot } } 1 (by decide) (by decide) (by decide) (by decide)

end SetBoot

section ReportReset

variable (g : Hub) (count why good : Nat)

/-- A report changes registers and the power state alone. -/
theorem Hub.reportReset_keeps {β : Type} (p : Hub → β)
    (hp : ∀ (g : Hub) regs pwr, p { g with regs := regs, pwr := pwr } = p g) :
    p (g.reportReset count why good) = p g := by
  have hput : ∀ (x : Hub) (f : RF) (n : Nat), p (x.put f n) = p x := fun x f n => hp x (x.put f n).regs x.pwr
  have hstate : ∀ x : Hub, p (x.setPState .boot) = p x := fun x =>
    (hput { x with pwr := { x.pwr with state := .boot } } PWR_STATUS_STATE 1).trans (hp x x.regs _)
  have hcount : p (g.wr PWR_RESET_COUNT.addr count) = p g := hp g (g.wr PWR_RESET_COUNT.addr count).regs g.pwr
  rw [Hub.reportReset, hstate, hput, hput, hput, hcount]

theorem Hub.state_reportReset : (g.reportReset count why good).pwr.state = .boot := rfl

theorem Hub.get_state_reportReset : (g.reportReset count why good).get PWR_STATUS_STATE = 1 :=
  Hub.get_state_setPState_boot _

/-- The cause is written before the fields beside it. -/
theorem Hub.get_resetWhy_reportReset (hw : why < 8) :
    (g.reportReset count why good).get PWR_STATUS_RESET_WHY = why := by
  rw [Hub.reportReset, Hub.get_resetWhy_setPState_boot,
    Hub.get_put_apart _ good (by decide) (by decide) (by decide) (by decide), Hub.get_put_ne _ _ _ _ (by decide),
    Hub.get_put_self _ _ _ (by decide) (by decide)]
  exact Nat.mod_eq_of_lt hw

/-- Outside PWR_STATUS a report is the count and GZB_CTRL.ENTER. -/
theorem Hub.rd_reportReset {a : Nat} (ha : a ≠ PWR_STATUS.addr) : (g.reportReset count why good).rd a =
    (((g.wr PWR_RESET_COUNT.addr count).put PWR_STATUS_RESET_WHY why).put GZB_CTRL_ENTER 0).rd a := by
  rw [Hub.reportReset, Hub.regsBut_setPState_boot _ a (by simpa using ha), Hub.rd_put_ne _ PWR_STATUS_SUPPLY_GOOD _ ha]

theorem Hub.rd_count_reportReset : (g.reportReset count why good).rd PWR_RESET_COUNT.addr = count % 2 ^ 32 := by
  rw [Hub.rd_reportReset _ _ _ _ (by decide), Hub.rd_put_ne _ _ _ (by decide), Hub.rd_put_ne _ _ _ (by decide),
    Hub.rd_wr_self]

theorem Hub.rd_gzbCtrl_reportReset :
    (g.reportReset count why good).rd GZB_CTRL.addr = setBits (g.rd GZB_CTRL.addr) 0 0 0 % 2 ^ 32 := by
  have hput : ∀ x : Hub, (x.put GZB_CTRL_ENTER 0).rd GZB_CTRL.addr = setBits (x.rd GZB_CTRL.addr) 0 0 0 % 2 ^ 32 :=
    fun x => x.rd_wr_self _ _
  rw [Hub.rd_reportReset _ _ _ _ (by decide), hput, Hub.rd_put_ne _ _ _ (by decide), Hub.rd_wr_ne _ _ (by decide)]

theorem Hub.rd_reportReset_of_ne {a : Nat} (hc : a ≠ PWR_RESET_COUNT.addr) (hs : a ≠ PWR_STATUS.addr)
    (hg : a ≠ GZB_CTRL.addr) : (g.reportReset count why good).rd a = g.rd a := by
  rw [Hub.rd_reportReset _ _ _ _ hs, Hub.rd_put_ne _ GZB_CTRL_ENTER _ hg, Hub.rd_put_ne _ PWR_STATUS_RESET_WHY _ hs,
    Hub.rd_wr_ne _ _ hc]

end ReportReset

section ChipResetReads

variable (h : Hub) (why : Nat)

theorem gazeboKey_GZB_CTRL : gazeboKey GZB_CTRL.addr = true := by decide

/-- Clearing a bit does not leave the 32 bits of a register. -/
theorem setBits_zero_lt {x : Nat} (hx : x < 2 ^ 32) : setBits x 0 0 0 < 2 ^ 32 := by
  unfold setBits
  omega

theorem Hub.rd_gzbCtrl_chipReset :
    (h.chipReset why).rd GZB_CTRL.addr = setBits (h.rd GZB_CTRL.addr) 0 0 0 := by
  rw [Hub.chipReset_eq, Hub.rd_gzbCtrl_reportReset, Hub.rd_wipedLanes, if_pos gazeboKey_GZB_CTRL,
    Nat.mod_eq_of_lt (setBits_zero_lt (h.rd_lt _))]

theorem Hub.rd_gazebo_chipReset {a : Nat} (ha : gazeboKey a = true) (hg : a ≠ GZB_CTRL.addr) :
    (h.chipReset why).rd a = h.rd a := by
  have hc : a ≠ PWR_RESET_COUNT.addr := fun e => absurd ha (by rw [e]; decide)
  have hs : a ≠ PWR_STATUS.addr := fun e => absurd ha (by rw [e]; decide)
  rw [Hub.chipReset_eq, Hub.rd_reportReset_of_ne _ _ _ _ hc hs hg, Hub.rd_wipedLanes, if_pos ha]

theorem Hub.rd_chipReset {a : Nat} (ha : gazeboKey a = false) (hc : a ≠ PWR_RESET_COUNT.addr)
    (hs : a ≠ PWR_STATUS.addr) : (h.chipReset why).rd a = (resetWord h.fuse a).toNat := by
  have hg : a ≠ GZB_CTRL.addr := fun e => absurd (e ▸ ha) (by rw [gazeboKey_GZB_CTRL]; decide)
  rw [Hub.chipReset_eq, Hub.rd_reportReset_of_ne _ _ _ _ hc hs hg, Hub.rd_wipedLanes,
    if_neg (Bool.eq_false_iff.mp ha)]

/-- What neither registers, lanes nor the power state hold is as in the wiped hub. -/
theorem Hub.chipReset_keeps {β : Type} (p : Hub → β) (hl : ∀ g l x, p (Hub.setLane g l x) = p g)
    (hr : ∀ (g : Hub) regs pwr, p { g with regs := regs, pwr := pwr } = p g) :
    p (h.chipReset why) = p h.wiped := by
  rw [Hub.chipReset_eq, Hub.reportReset_keeps _ _ _ _ p hr]
  exact h.wipedLanes_keeps p hl

end ChipResetReads

/-- Below OFF and GAZEBO the reset pin is a chip reset (R503). -/
theorem Hub.resetPinLow_of_awake {h : Hub} (ha : h.awake = true) : h.resetPinLow = h.chipReset whyPin := by
  unfold Hub.awake at ha
  unfold Hub.resetPinLow
  split <;> simp_all

/-- Settles O52: a chip reset wipes the hub but for the gazebo domain, the lanes keep their signals, and the reset
reports itself. -/
theorem chipResetKeepsTheGazeboDomain : Obligations.ChipResetKeepsTheGazeboDomain := by
  refine ⟨fun h why hw => ?_, fun s ha => ⟨fun harm => ?_, ?_⟩⟩
  · have hcount : (h.chipReset why).rd PWR_RESET_COUNT.addr = (h.rd PWR_RESET_COUNT.addr + 1) % 2 ^ 32 := by
      rw [Hub.chipReset_eq, Hub.rd_count_reportReset, Nat.mod_mod]
    exact ⟨Hub.state_reportReset h.wipedLanes _ _ _,
      h.chipReset_keeps why (·.fuse) (fun _ _ _ => rfl) (fun _ _ _ => rfl),
      h.chipReset_keeps why (·.keys) (fun _ _ _ => rfl) (fun _ _ _ => rfl),
      Hub.get_resetWhy_reportReset _ _ _ _ hw, Hub.get_state_reportReset _ _ _ _, hcount,
      fun a ha hg => h.rd_gazebo_chipReset why ha hg, h.rd_gzbCtrl_chipReset why,
      fun a ha hc hs => h.rd_chipReset why ha hc hs,
      fun q => h.chipReset_keeps why (·.queue q) (fun _ _ _ => rfl) (fun _ _ _ => rfl),
      fun k => h.chipReset_keeps why (·.slot k) (fun _ _ _ => rfl) (fun _ _ _ => rfl),
      h.chipReset_keeps why (·.lom) (fun _ _ _ => rfl) (fun _ _ _ => rfl),
      h.chipReset_keeps why (·.port) (fun _ _ _ => rfl) (fun _ _ _ => rfl)⟩
  · have e : exec .hardReset s = s.actAwake fun h => h.hardReset := rfl
    rw [e, State.actAwake_of_awake ha, Hub.hardReset, if_pos harm]
  · have e : exec .resetPin s = s.act fun h => h.resetPinLow := rfl
    rw [e, State.act, Hub.resetPinLow_of_awake ha]

/-! ## The test access port -/

section Tap

variable {h : Hub} {i : TapInstr}

/-- An instruction that takes the balls, or one loaded over an instruction that does not, resets nothing. -/
theorem Hub.tapLoad_of_no_return (hi : (h.tap.instr.takesBalls && !i.takesBalls) = false) :
    h.tapLoad i = { h with tap := { h.tap with instr := i } } := by
  simp [Hub.tapLoad, hi]

theorem Hub.tapLoad_of_takes (hi : i.takesBalls = true) : h.tapLoad i = { h with tap := { h.tap with instr := i } } :=
  Hub.tapLoad_of_no_return (by simp [hi])

theorem Hub.tapLoad_of_free (hb : h.tap.instr.takesBalls = false) :
    h.tapLoad i = { h with tap := { h.tap with instr := i } } :=
  Hub.tapLoad_of_no_return (by simp [hb])

/-- Leaving an instruction that takes the balls resets the chip as the pin does. -/
theorem Hub.tapLoad_of_return (hb : h.tap.instr.takesBalls = true) (hi : i.takesBalls = false)
    (ha : h.awake = true) : h.tapLoad i = { h.chipReset whyPin with tap := { h.tap with instr := i } } := by
  have hoff : (h.pwr.state != .off) = true := by
    rw [Hub.awake, Bool.and_eq_true] at ha
    exact ha.1
  simp [Hub.tapLoad, hb, hi, hoff, Hub.resetPinLow_of_awake ha]

end Tap

/-- Settles O53: only an instruction that gives the balls back resets the chip. -/
theorem testAccessPort : Obligations.TestAccessPort := by
  intro s loads
  have hload : ∀ {c : Instr} {i : TapInstr}, (exec c s = s.act fun h => h.tapLoad i) →
      s.hub.tapLoad i = { s.hub with tap := { s.hub.tap with instr := i } } → loads c i := by
    intro c i e ht
    show exec c s = _
    rw [e, State.act, ht]
  refine ⟨hload rfl (Hub.tapLoad_of_takes rfl), hload rfl (Hub.tapLoad_of_takes rfl),
    hload rfl (Hub.tapLoad_of_takes rfl), hload rfl (Hub.tapLoad_of_takes rfl), hload rfl (Hub.tapLoad_of_takes rfl),
    fun hb => ⟨hload rfl (Hub.tapLoad_of_free hb), hload rfl (Hub.tapLoad_of_free hb), fun w => ?_⟩,
    fun hb ha c hc => ?_⟩
  · have e : exec (.samplePreload w) s = s.act fun h => h.tapPreload w.toNat := rfl
    rw [e, State.act, Hub.tapPreload, Hub.tapLoad_of_free hb, Nat.mod_eq_of_lt w.isLt]
  · have e : exec c s = s.act fun h => h.tapLoad .bypass := by rcases hc with rfl | rfl <;> rfl
    rw [e, State.act, Hub.tapLoad_of_return hb rfl ha]

end Sys2Proof.Machine
end

section
/-! Pushes into and pops from a queue (R484 to R489). -/

namespace Sys2Proof.Machine

section Store

variable (h : Hub) (q : Nat) (x : Queue)

theorem Hub.get_count_setQueue (hx : x.words.length < 64) :
    (h.setQueue q x).get (Q_COUNT_COUNT q) = x.words.length :=
  (Hub.get_put_self { h with queues := SMap.set (fun _ => ({} : Queue)) h.queues q x } (Q_COUNT_COUNT q) _
    (Nat.zero_le 5) (by decide : 5 < 32)).trans (Nat.mod_eq_of_lt hx)

/-- `g` differs from `h` in registers and queues alone, and of the queues in `q` alone. -/
def Hub.OnlyQueue (q : Nat) (as : List Nat) (h g : Hub) : Prop :=
  (∀ k, k ≠ q → g.queue k = h.queue k) ∧ g = { h with regs := g.regs, queues := g.queues } ∧ Hub.RegsBut as h g

theorem Hub.onlyQueue_setQueue : OnlyQueue q [(Q_COUNT q).addr] h (h.setQueue q x) :=
  ⟨fun _ hk => h.queue_setQueue_ne x hk, rfl, h.regsBut_setQueue q x⟩

/-- A register beside the queue changes as well. -/
theorem Hub.OnlyQueue.put {q : Nat} {as : List Nat} {h g : Hub} (H : OnlyQueue q as h g) (f : RF) (n : Nat) :
    OnlyQueue q (as ++ [f.addr]) h (g.put f n) := by
  obtain ⟨hq, hframe, hregs⟩ := H
  refine ⟨hq, ?_, (hregs.mono (List.subset_append_left _ _)).trans (g.regsBut_put f n) (List.subset_append_right _ _)⟩
  exact congrArg (fun y : Hub => { y with regs := (g.put f n).regs }) hframe

theorem Hub.OnlyQueue.mono {q : Nat} {as bs : List Nat} {h g : Hub} (H : OnlyQueue q bs h g) (hs : bs ⊆ as) :
    OnlyQueue q as h g := by
  obtain ⟨hq, hframe, hregs⟩ := H
  exact ⟨hq, hframe, hregs.mono hs⟩

end Store

theorem Hub.queue_put (h : Hub) (f : RF) (n k : Nat) : (h.put f n).queue k = h.queue k := rfl

section Held

variable {h : Hub} {q : Nat}

theorem Hub.qFill_of_none_held (hh : (h.queue q).held = []) : h.qFill q = h := by
  simp [Hub.qFill, hh]

/-- Where no producer holds a word, nothing follows into the room. -/
theorem Hub.qReleaseHeld_of_none_held (hh : (h.queue q).held = []) : h.qReleaseHeld q = h := by
  unfold Hub.qReleaseHeld
  simp only [hh, List.length_nil, Hub.qLatches, Hub.qFill_of_none_held hh, ite_self]

end Held

/-! ## Pushes -/

section Push

variable {h : Hub} {q data : Nat} {mark : Bool}

theorem Hub.held_qAccept : ((h.qAccept q data mark).queue q).held = (h.queue q).held := by
  simp only [Hub.qAccept, Hub.queue_put, Hub.queue_setQueue_self]

theorem Hub.words_qAccept :
    ((h.qAccept q data mark).queue q).words = (h.queue q).words ++ [⟨data, mark, .plain⟩] := by
  simp only [Hub.qAccept, Hub.queue_put, Hub.queue_setQueue_self]

theorem Hub.get_count_qAccept (hr : (h.queue q).words.length < 32) :
    (h.qAccept q data mark).get (Q_COUNT_COUNT q) = (h.queue q).words.length + 1 := by
  rw [Hub.qAccept, Hub.get_put_ne _ _ _ _ (by simp [Q_COUNT_COUNT, Q_STATUS_OPEN]),
    Hub.get_count_setQueue _ _ _ (by simp; omega), List.length_append, List.length_singleton]

theorem Hub.on_open_qAccept : (h.qAccept q data mark).on (Q_STATUS_OPEN q) = !mark := by
  cases mark
  · exact Hub.on_put_one _ (Nat.le_refl 1) (by decide : 1 < 32)
  · exact Hub.on_put_zero _ (Nat.le_refl 1) (by decide : 1 < 32)

theorem Hub.onlyQueue_qAccept :
    OnlyQueue q [(Q_COUNT q).addr, (Q_STATUS q).addr] h (h.qAccept q data mark) :=
  (h.onlyQueue_setQueue q _).put (Q_STATUS_OPEN q) _

section Awaits

variable (htail : h.on (Q_STATUS_TAIL_DROP q) = false) (hdrop : (h.queue q).drop = false)
  (hpart : (h.queue q).part = false)

include htail hdrop hpart

theorem Hub.qPush_of_room (hr : (h.queue q).words.length < 32) (hh : mark = true → (h.queue q).held = []) :
    h.qPush q data mark false = h.qAccept q data mark := by
  have hrelease : mark = true → (h.qAccept q data mark).qReleaseHeld q = h.qAccept q data mark := fun hm =>
    Hub.qReleaseHeld_of_none_held (Hub.held_qAccept.trans (hh hm))
  cases mark
  · simp [Hub.qPush, htail, hdrop, hpart, hr]
  · simp [Hub.qPush, htail, hdrop, hpart, hr, hrelease rfl]

theorem Hub.qPush_of_full (hf : (h.queue q).words.length = 32) :
    h.qPush q data mark false = h.qRefused q mark := by
  simp [Hub.qPush, htail, hdrop, hpart, hf]

end Awaits

/-- What the producer of queue q does with the rest of the refused item (R484). -/
def Hub.qRefusedRest (h : Hub) (q : Nat) (mark : Bool) : Hub :=
  if qHolds q then h else if mark then h.put (Q_STATUS_OPEN q) 0 else h.setQueue q { h.queue q with drop := true }

/-- What the loss of an item costs the agent of queue q (R274, R338). -/
def Hub.qRefusedTold (h : Hub) (q : Nat) : Hub :=
  if q = 0 then h.ctlDiscard else if q = 5 then h.monRecordLost else h

theorem Hub.qRefused_eq : h.qRefused q mark = ((h.inc (Q_PUSH_FULL q)).qRefusedRest q mark).qRefusedTold q := rfl

theorem Hub.queue_qRefusedTold (k : Nat) : (h.qRefusedTold q).queue k = h.queue k := by
  unfold Hub.qRefusedTold
  split
  · rfl
  · split <;> rfl

theorem Hub.queue_qRefusedRest {k : Nat} (hk : k ≠ q) : (h.qRefusedRest q mark).queue k = h.queue k := by
  unfold Hub.qRefusedRest
  split
  · rfl
  · split
    · rfl
    · exact h.queue_setQueue_ne _ hk

theorem Hub.words_qRefusedRest : ((h.qRefusedRest q mark).queue q).words = (h.queue q).words := by
  unfold Hub.qRefusedRest
  split
  · rfl
  · split
    · rfl
    · rw [Hub.queue_setQueue_self]

theorem Hub.regsBut_ctlDiscard : RegsBut [DL_CTL_DISCARD.addr, DL_CTL_STATUS.addr] h h.ctlDiscard :=
  ((h.regsBut_inc DL_CTL_DISCARD).mono (by simp)).trans
    (Hub.regsBut_set1 (h.inc DL_CTL_DISCARD) DL_CTL_STATUS_CTL_DISCARD) (by decide)

theorem Hub.regsBut_monRecordLost : RegsBut [MON_LOST_COUNT.addr, MON_STATUS.addr] h h.monRecordLost := by
  have hset : RegsBut [MON_LOST_COUNT.addr, MON_STATUS.addr] h ((h.inc MON_LOST_COUNT).set1 MON_STATUS_LOST) :=
    ((h.regsBut_inc MON_LOST_COUNT).mono (by simp)).trans
      (Hub.regsBut_set1 (h.inc MON_LOST_COUNT) MON_STATUS_LOST) (by decide)
  exact hset

theorem Hub.get_pushFull_qRefusedTold : (h.qRefusedTold q).get (Q_PUSH_FULL q) = h.get (Q_PUSH_FULL q) := by
  unfold Hub.qRefusedTold
  split
  · next hq =>
    subst hq
    exact h.regsBut_ctlDiscard.get _ (by decide)
  · split
    · next hq =>
      subst hq
      exact h.regsBut_monRecordLost.get _ (by decide)
    · rfl

theorem Hub.get_pushFull_qRefusedRest : (h.qRefusedRest q mark).get (Q_PUSH_FULL q) = h.get (Q_PUSH_FULL q) := by
  unfold Hub.qRefusedRest
  split
  · rfl
  · split
    · exact h.get_put_ne _ _ _ (by simp [Q_PUSH_FULL, Q_STATUS_OPEN])
    · exact (h.regsBut_setQueue q _).get _ (by simp [Q_PUSH_FULL, Q_COUNT])

theorem Hub.get_pushFull_qRefused :
    (h.qRefused q mark).get (Q_PUSH_FULL q) = (h.get (Q_PUSH_FULL q) + 1) % 2 ^ 32 := by
  rw [Hub.qRefused_eq, Hub.get_pushFull_qRefusedTold, Hub.get_pushFull_qRefusedRest]
  exact h.get_inc_word _

theorem Hub.queue_qRefused {k : Nat} (hk : k ≠ q) : (h.qRefused q mark).queue k = h.queue k := by
  rw [Hub.qRefused_eq, Hub.queue_qRefusedTold, Hub.queue_qRefusedRest hk]
  rfl

theorem Hub.words_qRefused : ((h.qRefused q mark).queue q).words = (h.queue q).words := by
  rw [Hub.qRefused_eq, Hub.queue_qRefusedTold, Hub.words_qRefusedRest]
  rfl

end Push

/-! ## Pops -/

section Pop

variable {h : Hub} {q : Nat} {err : QErr}

/-- Queue `x` once its head word `w` is delivered and the words `t` follow. -/
def Queue.delivered (x : Queue) (w : QWord) (t : List QWord) : Queue :=
  { x with
    words := t, midPop := !w.mark, last := some w, lastCut := x.cut, cut := false
    got := if x.midPop ∧ !x.cut then x.got ++ [w.data] else [w.data] }

/-- Queue `x` once a pop has found it empty. -/
def Queue.poppedEmpty (x : Queue) : Queue := { x with last := none }

/-- A corrected single-bit error counts (R489). -/
def Hub.countCorrected (h : Hub) (q : Nat) (err : QErr) : Hub := if err = .corrected then h.inc (Q_CORR q) else h

theorem Hub.queue_countCorrected (k : Nat) : (h.countCorrected q err).queue k = h.queue k := by
  unfold Hub.countCorrected
  split <;> rfl

theorem Hub.get_corr_countCorrected : (h.countCorrected q err).get (Q_CORR q) =
    (h.get (Q_CORR q) + b2n (decide (err = .corrected))) % 2 ^ 32 := by
  by_cases he : err = .corrected
  · rw [Hub.countCorrected, if_pos he, decide_eq_true he]
    exact h.get_inc_word _
  · rw [Hub.countCorrected, if_neg he, decide_eq_false he]
    exact (Nat.mod_eq_of_lt (h.get_lt (Q_CORR q))).symm

theorem Hub.OnlyQueue.countCorrected {as : List Nat} {g : Hub} (H : OnlyQueue q as h g) :
    OnlyQueue q (as ++ [(Q_CORR q).addr]) h (g.countCorrected q err) := by
  unfold Hub.countCorrected
  split
  · exact H.put (Q_CORR q) _
  · exact H.mono (List.subset_append_left _ _)

theorem Hub.get_count_countCorrected : (h.countCorrected q err).get (Q_COUNT_COUNT q) = h.get (Q_COUNT_COUNT q) := by
  unfold Hub.countCorrected
  split
  · exact h.get_put_ne _ _ _ (by simp [Q_COUNT_COUNT, Q_CORR])
  · rfl

section Word

variable {w : QWord} {t : List QWord} (hw : (h.queue q).words = w :: t) (hs : (h.queue q).skip = false)
  (hh : (h.queue q).held = []) (he : err ≠ .uncorrectable)

include hw hs hh he

theorem Hub.qPop_of_word :
    h.qPop q err = (h.setQueue q ((h.queue q).delivered w t)).countCorrected q err := by
  have hword : h.qPopWord q err = (h.setQueue q ((h.queue q).delivered w t)).countCorrected q err := by
    cases err
    case uncorrectable => exact absurd rfl he
    all_goals simp only [Hub.qPopWord, hw, hs, Bool.false_eq_true, if_false, Queue.delivered, Hub.countCorrected]
  rw [Hub.qPop, hword]
  refine Hub.qReleaseHeld_of_none_held ?_
  rw [Hub.queue_countCorrected, Hub.queue_setQueue_self]
  exact hh

theorem Hub.queue_qPop : (h.qPop q err).queue q = (h.queue q).delivered w t := by
  rw [Hub.qPop_of_word hw hs hh he, Hub.queue_countCorrected, Hub.queue_setQueue_self]

/-- A popped word that ends no item, or one of no agent of the hub, goes nowhere else. -/
theorem Hub.queuePop_of_word (hi : w.mark = false ∨ (w.item = .plain ∧ q ≠ 0 ∧ q ≠ 5 ∧ q ≠ 6)) :
    h.queuePop q err = h.qPop q err := by
  have hlast : ((h.qPop q err).queue q).last = some w := by
    rw [Hub.queue_qPop hw hs hh he]
    rfl
  have hconsumed : ∀ g : Hub, w.mark = true → g.consumed q ((h.qPop q err).queue q).got w.item = g := by
    intro g hm
    obtain ⟨hplain, h0, h5, h6⟩ := hi.resolve_left (by simp [hm])
    rw [hplain]
    unfold Hub.consumed
    split <;> simp_all
  unfold Hub.queuePop
  cases err
  case uncorrectable => exact absurd rfl he
  all_goals
    simp only [hlast]
    split
    · next hm => exact hconsumed _ hm.1
    · rfl

end Word

section Empty

variable (hw : (h.queue q).words = []) (hh : (h.queue q).held = [])

include hw hh

theorem Hub.qPop_of_empty :
    h.qPop q err = (h.setQueue q (h.queue q).poppedEmpty).inc (Q_POP_EMPTY q) := by
  have hword : h.qPopWord q err = (h.setQueue q (h.queue q).poppedEmpty).inc (Q_POP_EMPTY q) := by
    simp only [Hub.qPopWord, hw, Queue.poppedEmpty]
  rw [Hub.qPop, hword]
  refine Hub.qReleaseHeld_of_none_held ?_
  rw [Hub.inc, Hub.queue_put, Hub.queue_setQueue_self]
  exact hh

theorem Hub.queuePop_of_empty :
    h.queuePop q err = (h.setQueue q (h.queue q).poppedEmpty).inc (Q_POP_EMPTY q) := by
  have hlast : (((h.setQueue q (h.queue q).poppedEmpty).inc (Q_POP_EMPTY q)).queue q).last = none := by
    rw [Hub.inc, Hub.queue_put, Hub.queue_setQueue_self, Queue.poppedEmpty]
  have hlost : ∀ g : Hub, g.headLost (h.queue q) = g := fun g => by simp [Hub.headLost, hw, hh]
  unfold Hub.queuePop
  rw [Hub.qPop_of_empty hw hh]
  cases err
  case uncorrectable => exact hlost _
  all_goals simp only [hlast]

end Empty

end Pop

/-- Settles O34: a push is `qAccept` where there is room and `qRefused` where there is none, and a pop delivers the
head word, after which no held word follows. -/
theorem queuesAreFifo : Obligations.QueuesAreFifo := by
  intro s q ha x
  refine ⟨fun data mark htail hdrop hpart hr hh => ?_, fun data mark htail hdrop hpart hf => ?_,
    fun w t err hw hs hh he ht => ⟨?_, fun hi => ?_⟩, fun err hw hh => ?_⟩
  · refine .of_actAwake (f := fun h => h.qPush q data.toNat mark false) rfl ha ?_
    rw [Hub.qPush_of_room htail hdrop hpart hr hh]
    exact ⟨Hub.words_qAccept, Hub.get_count_qAccept hr, Hub.on_open_qAccept, Hub.onlyQueue_qAccept⟩
  · refine .of_actAwake (f := fun h => h.qPush q data.toNat mark false) rfl ha ?_
    rw [Hub.qPush_of_full htail hdrop hpart hf]
    exact ⟨Hub.words_qRefused, fun k hk => Hub.queue_qRefused hk, Hub.get_pushFull_qRefused⟩
  · have hqueue := Hub.queue_qPop hw hs hh he
    refine ⟨congrArg Queue.words hqueue, congrArg Queue.last hqueue, ?_⟩
    rw [Hub.qPop_of_word hw hs hh he]
    refine ⟨Hub.get_count_countCorrected.trans (Hub.get_count_setQueue _ _ _ (Nat.lt_trans ht (by decide))), ?_,
      (s.hub.onlyQueue_setQueue q _).countCorrected⟩
    rw [Hub.get_corr_countCorrected, (s.hub.regsBut_setQueue q _).get _ (by simp [Q_CORR, Q_COUNT])]
  · exact .of_actAwake (f := fun h => h.queuePop q err) rfl ha (Hub.queuePop_of_word hw hs hh he hi)
  · refine .of_actAwake (f := fun h => h.queuePop q err) rfl ha ?_
    rw [Hub.queuePop_of_empty hw hh]
    refine ⟨?_, ?_, (s.hub.onlyQueue_setQueue q _).put (Q_POP_EMPTY q) _⟩
    · rw [Hub.inc, Hub.queue_put, Hub.queue_setQueue_self]
      exact hw
    · rw [Q_POP_EMPTY, Hub.get_inc_word, (s.hub.regsBut_setQueue q _).get _ (by simp [Q_COUNT])]

end Sys2Proof.Machine
end

section
/-! Challenges and the revocation of a key slot (R415 to R419, R543). -/

namespace Sys2Proof.Machine

/-! ## The nonce registers and the session record of a path -/

theorem Hub.ses_setSes (h : Hub) (p q : Nat) (x : Ses) : (h.setSes p x).ses q = if q = p then x else h.ses q :=
  SMap.get_set _ _ _ _ _

/-- The registers that SES_NONCE has on a path. -/
def nonceRegs (p : Nat) : List Nat := (List.range 4).map fun k => (bank p (SES_NONCE k)).addr

theorem nonceRegs_eq (p : Nat) :
    nonceRegs p = [0x210 + p * 2 ^ 32, 0x214 + p * 2 ^ 32, 0x218 + p * 2 ^ 32, 0x21C + p * 2 ^ 32] := rfl

/-- No field of SES_STATUS lies in SES_NONCE. -/
theorem bank_status_notMem_nonceRegs (p : Nat) {f : RF} (hf : f.addr = SES_STATUS.addr) :
    (bank p f).addr ∉ nonceRegs p := by
  have ha : (bank p f).addr = 0x204 + p * 2 ^ 32 := congrArg (· + p * 2 ^ 32) hf
  rw [ha, nonceRegs_eq]
  simp

section PutNonce

variable (h : Hub) (p : Nat) (ws : List Nat)

theorem Hub.regsBut_putNonce : RegsBut (nonceRegs p) h (h.putNonce p ws) := by
  intro a ha
  refine Hub.forAll_keeps (·.rd a) (fun g k hk => g.rd_wr_ne _ fun e => ha ?_) h
  exact List.mem_map.mpr ⟨k, hk, e.symm⟩

theorem Hub.putNonce_keeps {β : Type} (f : Hub → β) (hf : ∀ (g : Hub) k v, f (g.wr k v) = f g) :
    f (h.putNonce p ws) = f h :=
  Hub.forAll_keeps f (fun g _ _ => hf g _ _) h

theorem Hub.nonceWords_putNonce :
    (h.putNonce p ws).nonceWords p = (List.range 4).map fun k => ws.getD k 0 % 2 ^ 32 := by
  have e : h.putNonce p ws = (((h.wr (0x210 + p * 2 ^ 32) (ws.getD 0 0)).wr (0x214 + p * 2 ^ 32) (ws.getD 1 0)).wr
      (0x218 + p * 2 ^ 32) (ws.getD 2 0)).wr (0x21C + p * 2 ^ 32) (ws.getD 3 0) := rfl
  have hwords : ∀ g : Hub, g.nonceWords p = [g.rd (0x210 + p * 2 ^ 32), g.rd (0x214 + p * 2 ^ 32),
      g.rd (0x218 + p * 2 ^ 32), g.rd (0x21C + p * 2 ^ 32)] := fun _ => rfl
  rw [e, hwords]
  simp only [Hub.rd_wr, Nat.add_right_cancel_iff, Nat.reduceEqDiff, if_true, if_false]
  rfl

end PutNonce

/-- The words of a nonce fill registers of 32 bits. -/
theorem nonceSplit_words (x : Nat) : ((List.range 4).map fun k => (nonceSplit x).getD k 0 % 2 ^ 32) = nonceSplit x := by
  have e : ((List.range 4).map fun k => (nonceSplit x).getD k 0 % 2 ^ 32) =
    [x / 2 ^ 96 % 2 ^ 32 % 2 ^ 32, x / 2 ^ 64 % 2 ^ 32 % 2 ^ 32, x / 2 ^ 32 % 2 ^ 32 % 2 ^ 32,
      x % 2 ^ 32 % 2 ^ 32] := rfl
  rw [e]
  simp only [Nat.mod_mod]
  rfl

theorem Hub.RegsBut.nonceWords {as : List Nat} {h g : Hub} (H : RegsBut as h g) {p : Nat}
    (hd : ∀ a ∈ nonceRegs p, a ∉ as) : g.nonceWords p = h.nonceWords p :=
  List.map_congr_left fun k hk => H _ (hd _ (List.mem_map.mpr ⟨k, hk, rfl⟩))

/-! ## What a challenge may change -/

/-- Between `h` and `g` only SES_STATUS and SES_NONCE of path p, its session record and the count of nonces may
differ. -/
def Hub.OnlySes (p : Nat) (h g : Hub) : Prop :=
  g = { h with regs := g.regs, sess := g.sess, nonces := g.nonces } ∧
    Hub.RegsBut ((bank p SES_STATUS).addr :: nonceRegs p) h g ∧ ∀ q, q ≠ p → g.ses q = h.ses q

section OnlySes

variable {p : Nat} {h g : Hub}

theorem Hub.onlySes_setSes (h : Hub) (p : Nat) (x : Ses) : OnlySes p h (h.setSes p x) :=
  ⟨rfl, fun _ _ => rfl, fun q hq => by rw [Hub.ses_setSes, if_neg hq]⟩

theorem Hub.OnlySes.trans {k : Hub} (H : OnlySes p h g) (G : OnlySes p g k) : OnlySes p h k := by
  obtain ⟨hframe, hregs, hses⟩ := H
  obtain ⟨gframe, gregs, gses⟩ := G
  refine ⟨?_, hregs.trans gregs (List.Subset.refl _), fun q hq => (gses q hq).trans (hses q hq)⟩
  exact gframe.trans (congrArg (fun x : Hub => { x with regs := k.regs, sess := k.sess, nonces := k.nonces }) hframe)

theorem Hub.onlySes_frame_of_eq
    (e : ({ g with regs := [], sess := [], nonces := 0 } : Hub) = { h with regs := [], sess := [], nonces := 0 }) :
    g = { h with regs := g.regs, sess := g.sess, nonces := g.nonces } :=
  congrArg (fun x : Hub => { x with regs := g.regs, sess := g.sess, nonces := g.nonces }) e

theorem Hub.onlySes_putNonce (h : Hub) (p : Nat) (ws : List Nat) : OnlySes p h (h.putNonce p ws) :=
  ⟨Hub.onlySes_frame_of_eq
      (h.putNonce_keeps p ws (fun x => ({ x with regs := [], sess := [], nonces := 0 } : Hub)) fun _ _ _ => rfl),
    (h.regsBut_putNonce p ws).mono (List.subset_cons_self _ _),
    fun q _ => h.putNonce_keeps p ws (·.ses q) fun _ _ _ => rfl⟩

theorem Hub.onlySes_putStatus (h : Hub) (p : Nat) {f : RF} (n : Nat) (hf : f.addr = SES_STATUS.addr) :
    OnlySes p h (h.put (bank p f) n) := by
  have ha : (bank p f).addr = (bank p SES_STATUS).addr := congrArg (· + p * 2 ^ 32) hf
  exact ⟨rfl, (h.regsBut_put (bank p f) n).mono (by rw [ha]; simp), fun _ _ => rfl⟩

end OnlySes

/-! ## Refused steps (R419) -/

section Refuse

variable {h : Hub} {p : Nat}

/-- STATE reads 0 where it read 1 (R418). -/
def Hub.closeChallenge (h : Hub) (p : Nat) : Hub :=
  if h.get (bank p SES_STATUS_STATE) = 1 then h.put (bank p SES_STATUS_STATE) 0 else h

theorem Hub.dropNonce_eq (aged : Bool) :
    h.dropNonce p aged =
      ((h.setSes p { h.ses p with nonce := false, aged := aged }).putNonce p []).closeChallenge p := rfl

theorem Hub.onlySes_closeChallenge : OnlySes p h (h.closeChallenge p) := by
  unfold Hub.closeChallenge
  split
  · exact h.onlySes_putStatus p 0 rfl
  · exact ⟨rfl, fun _ _ => rfl, fun _ _ => rfl⟩

theorem Hub.ses_closeChallenge (q : Nat) : (h.closeChallenge p).ses q = h.ses q := by
  unfold Hub.closeChallenge
  split <;> rfl

theorem Hub.nonces_closeChallenge : (h.closeChallenge p).nonces = h.nonces := by
  unfold Hub.closeChallenge
  split <;> rfl

theorem Hub.get_slot_closeChallenge :
    (h.closeChallenge p).get (bank p SES_STATUS_SLOT) = h.get (bank p SES_STATUS_SLOT) := by
  unfold Hub.closeChallenge
  split
  · exact Hub.get_put_above h (bank p SES_STATUS_STATE) (bank p SES_STATUS_SLOT) 0 (by decide : 0 ≤ 1)
      (by decide : 4 ≤ 5) (by decide : 5 < 32) (by decide : 1 < 4)
  · rfl

theorem Hub.sesOpen_of_closeChallenge (ho : (h.closeChallenge p).sesOpen p = true) : h.sesOpen p = true := by
  unfold Hub.closeChallenge at ho
  split at ho
  · have hzero : (h.put (bank p SES_STATUS_STATE) 0).get (bank p SES_STATUS_STATE) = 0 :=
      Hub.get_put_self h (bank p SES_STATUS_STATE) 0 (by decide : 0 ≤ 1) (by decide : 1 < 32)
    simp [Hub.sesOpen, hzero] at ho
  · exact ho

variable (h p)

theorem Hub.onlySes_dropNonce (aged : Bool) : OnlySes p h (h.dropNonce p aged) :=
  ((h.onlySes_setSes p _).trans (Hub.onlySes_putNonce _ p [])).trans Hub.onlySes_closeChallenge

theorem Hub.nonce_dropNonce (aged : Bool) : ((h.dropNonce p aged).ses p).nonce = false := by
  rw [Hub.dropNonce_eq, Hub.ses_closeChallenge, Hub.putNonce_keeps _ p [] (·.ses p) fun _ _ _ => rfl, Hub.ses_setSes,
    if_pos rfl]

theorem Hub.nonces_dropNonce (aged : Bool) : (h.dropNonce p aged).nonces = h.nonces := by
  rw [Hub.dropNonce_eq, Hub.nonces_closeChallenge, Hub.putNonce_keeps _ p [] (·.nonces) fun _ _ _ => rfl]
  rfl

/-- SES_STATUS before a discard of the nonce closes the challenge is as it was. -/
theorem Hub.get_status_putNonce_setSes {f : RF} (hf : f.addr = SES_STATUS.addr) (x : Ses) (ws : List Nat) :
    ((h.setSes p x).putNonce p ws).get (bank p f) = h.get (bank p f) :=
  (Hub.regsBut_putNonce (h.setSes p x) p ws).get (bank p f) (bank_status_notMem_nonceRegs p hf)

theorem Hub.get_slot_dropNonce (aged : Bool) :
    (h.dropNonce p aged).get (bank p SES_STATUS_SLOT) = h.get (bank p SES_STATUS_SLOT) := by
  rw [Hub.dropNonce_eq, Hub.get_slot_closeChallenge, Hub.get_status_putNonce_setSes (f := SES_STATUS_SLOT) _ _ rfl]

theorem Hub.sesOpen_of_dropNonce {h : Hub} {p : Nat} {aged : Bool} (ho : (h.dropNonce p aged).sesOpen p = true) :
    h.sesOpen p = true := by
  rw [Hub.dropNonce_eq] at ho
  have hput := Hub.sesOpen_of_closeChallenge ho
  rwa [Hub.sesOpen, Hub.get_status_putNonce_setSes (f := SES_STATUS_STATE) _ _ rfl, ← Hub.sesOpen] at hput

theorem Hub.onlySes_sesRefuse (why : Nat) : OnlySes p h (h.sesRefuse p why) :=
  (h.onlySes_dropNonce p false).trans (Hub.onlySes_putStatus _ p why rfl)

theorem Hub.ses_put (h : Hub) (f : RF) (n q : Nat) : (h.put f n).ses q = h.ses q := rfl

theorem Hub.nonces_put (h : Hub) (f : RF) (n : Nat) : (h.put f n).nonces = h.nonces := rfl

/-- A refused step leaves no nonce outstanding, draws none, and says why. -/
theorem Hub.sesRefuse_reports {why : Nat} (hw : why < 8) :
    ((h.sesRefuse p why).ses p).nonce = false ∧ (h.sesRefuse p why).nonces = h.nonces ∧
      (h.sesRefuse p why).get (bank p SES_STATUS_WHY) = why := by
  rw [Hub.sesRefuse, Hub.ses_put, Hub.nonces_put]
  exact ⟨h.nonce_dropNonce p false, h.nonces_dropNonce p false,
    (Hub.get_put_self _ (bank p SES_STATUS_WHY) why (by decide : 16 ≤ 18) (by decide : 18 < 32)).trans
      (Nat.mod_eq_of_lt hw)⟩

theorem Hub.get_slot_sesRefuse (why : Nat) :
    (h.sesRefuse p why).get (bank p SES_STATUS_SLOT) = h.get (bank p SES_STATUS_SLOT) :=
  (Hub.get_put_below _ (bank p SES_STATUS_WHY) (bank p SES_STATUS_SLOT) why (by decide : 4 ≤ 5) (by decide : 5 < 32)
    (by decide : 5 < 16)).trans (h.get_slot_dropNonce p false)

theorem Hub.sesOpen_of_sesRefuse {h : Hub} {p why : Nat} (ho : (h.sesRefuse p why).sesOpen p = true) :
    h.sesOpen p = true := by
  have hstate : (h.sesRefuse p why).get (bank p SES_STATUS_STATE) =
      (h.dropNonce p false).get (bank p SES_STATUS_STATE) :=
    Hub.get_put_below _ (bank p SES_STATUS_WHY) (bank p SES_STATUS_STATE) why (by decide : 0 ≤ 1)
      (by decide : 1 < 32) (by decide : 1 < 16)
  rw [Hub.sesOpen, hstate, ← Hub.sesOpen] at ho
  exact Hub.sesOpen_of_dropNonce ho

end Refuse

/-! ## Challenges -/

/-- The nonce in SES_NONCE is outstanding for slot n of path p, and counted (R418). -/
def Hub.noteNonce (h : Hub) (p n : Nat) : Hub :=
  let g : Hub := { h with nonces := h.nonces + 1 }
  g.setSes p { g.ses p with nonce := true, slot := n, aged := false }

/-- A nonce is drawn for slot n of path p (R418). -/
def Hub.drawNonce (h : Hub) (p n : Nat) : Hub :=
  (h.putNonce p (nonceSplit (Config.nonce h.nonces).toNat)).noteNonce p n

/-- STATE reads 1 while no session is open (R419). -/
def Hub.openChallenge (h : Hub) (p : Nat) : Hub := if h.sesOpen p then h else h.put (bank p SES_STATUS_STATE) 1

section Challenge

variable (h : Hub) (p n : Nat)

theorem Hub.challenge_of_refused {h : Hub} {p n why : Nat} (hw : h.challengeWhy p n = some why) :
    h.challenge p n = h.sesRefuse p why := by
  simp only [Hub.challenge, hw]

theorem Hub.challenge_of_granted {h : Hub} {p n : Nat} (hw : h.challengeWhy p n = none) :
    h.challenge p n = (h.drawNonce p n).openChallenge p := by
  simp only [Hub.challenge, hw]
  rfl

theorem Hub.onlySes_noteNonce : OnlySes p h (h.noteNonce p n) := by
  have hcount : OnlySes p h { h with nonces := h.nonces + 1 } := ⟨rfl, fun _ _ => rfl, fun _ _ => rfl⟩
  exact hcount.trans (Hub.onlySes_setSes _ p _)

theorem Hub.ses_noteNonce : ((h.noteNonce p n).ses p).nonce = true ∧ ((h.noteNonce p n).ses p).slot = n := by
  rw [Hub.noteNonce, Hub.ses_setSes, if_pos rfl]
  exact ⟨rfl, rfl⟩

theorem Hub.nonceWords_noteNonce : (h.noteNonce p n).nonceWords p = h.nonceWords p := rfl

theorem Hub.nonces_noteNonce : (h.noteNonce p n).nonces = h.nonces + 1 := rfl

theorem Hub.onlySes_drawNonce : OnlySes p h (h.drawNonce p n) :=
  (h.onlySes_putNonce p _).trans (Hub.onlySes_noteNonce _ p n)

theorem Hub.nonces_drawNonce : (h.drawNonce p n).nonces = h.nonces + 1 := by
  rw [Hub.drawNonce, Hub.nonces_noteNonce, h.putNonce_keeps p _ (·.nonces) fun _ _ _ => rfl]

theorem Hub.nonceWords_drawNonce :
    (h.drawNonce p n).nonceWords p = nonceSplit (Config.nonce h.nonces).toNat := by
  rw [Hub.drawNonce, Hub.nonceWords_noteNonce, Hub.nonceWords_putNonce, nonceSplit_words]

theorem Hub.onlySes_openChallenge : OnlySes p h (h.openChallenge p) := by
  unfold Hub.openChallenge
  split
  · exact ⟨rfl, fun _ _ => rfl, fun _ _ => rfl⟩
  · exact h.onlySes_putStatus p 1 rfl

theorem Hub.openChallenge_keeps {β : Type} (f : Hub → β)
    (hf : ∀ (g : Hub) n, f (g.put (bank p SES_STATUS_STATE) n) = f g) : f (h.openChallenge p) = f h := by
  unfold Hub.openChallenge
  split
  · rfl
  · exact hf h 1

theorem Hub.nonceWords_openChallenge : (h.openChallenge p).nonceWords p = h.nonceWords p := by
  refine h.openChallenge_keeps p (·.nonceWords p) fun g n => ?_
  refine (g.regsBut_put (bank p SES_STATUS_STATE) n).nonceWords fun a ha hs => ?_
  rw [List.mem_singleton.mp hs] at ha
  exact bank_status_notMem_nonceRegs p rfl ha

theorem Hub.onlySes_challenge : OnlySes p h (h.challenge p n) := by
  cases hw : h.challengeWhy p n with
  | some why =>
    rw [Hub.challenge_of_refused hw]
    exact h.onlySes_sesRefuse p why
  | none =>
    rw [Hub.challenge_of_granted hw]
    exact (h.onlySes_drawNonce p n).trans (Hub.onlySes_openChallenge _ p)

variable {h p n}

theorem Hub.challengeWhy_of_unlocked (hl : h.on (SES_SLOT_LOCKED n) = false) : h.challengeWhy p n = some 3 := by
  simp [Hub.challengeWhy, hl]

theorem Hub.challengeWhy_of_revoked (hl : h.on (SES_SLOT_LOCKED n) = true) (hr : h.on (SES_SLOT_REVOKED n) = true) :
    h.challengeWhy p n = some 4 := by
  simp [Hub.challengeWhy, hl, hr]

theorem Hub.challengeWhy_of_live (hl : h.on (SES_SLOT_LOCKED n) = true) (hr : h.on (SES_SLOT_REVOKED n) = false) :
    h.challengeWhy p n = if h.clk.usec < (h.ses p).lockTo then some 5 else none := by
  simp [Hub.challengeWhy, hl, hr]

end Challenge

/-- Settles O47: a challenge is `sesRefuse` where `challengeWhy` names a reason, and draws a nonce otherwise. -/
theorem challengeDrawsAFreshNonce : Obligations.ChallengeDrawsAFreshNonce := by
  intro h p n _
  refine ⟨h.onlySes_challenge p n, fun hl hr ht => ?_, fun hl => ?_, fun hl hr => ?_, fun hl hr ht => ?_⟩
  · have hw : h.challengeWhy p n = none := (Hub.challengeWhy_of_live hl hr).trans (if_neg (Nat.not_lt.mpr ht))
    have hkeep := fun {β : Type} (f : Hub → β) => (h.drawNonce p n).openChallenge_keeps p f
    obtain ⟨hnonce, hslot⟩ := Hub.ses_noteNonce (h.putNonce p (nonceSplit (Config.nonce h.nonces).toNat)) p n
    have hses : ((h.drawNonce p n).openChallenge p).ses p = (h.drawNonce p n).ses p := hkeep (·.ses p) fun _ _ => rfl
    have hnonces : ((h.drawNonce p n).openChallenge p).nonces = (h.drawNonce p n).nonces :=
      hkeep (·.nonces) fun _ _ => rfl
    rw [Hub.challenge_of_granted hw, Hub.nonceWords_openChallenge, hses, hnonces]
    exact ⟨h.nonceWords_drawNonce p n, h.nonces_drawNonce p n, hnonce, hslot⟩
  · rw [Hub.challenge_of_refused (Hub.challengeWhy_of_unlocked hl)]
    exact h.sesRefuse_reports p (by decide)
  · rw [Hub.challenge_of_refused (Hub.challengeWhy_of_revoked hl hr)]
    exact h.sesRefuse_reports p (by decide)
  · rw [Hub.challenge_of_refused ((Hub.challengeWhy_of_live hl hr).trans (if_pos ht))]
    exact h.sesRefuse_reports p (by decide)

/-! ## Revocation -/

theorem SMap.get_congr_default {α : Type} {d d' : Nat → α} {k : Nat} (e : d k = d' k) (m : SMap α) :
    SMap.get d m k = SMap.get d' m k := by
  induction m with
  | nil => exact e
  | cons x t ih => simp [SMap.get, ih]

section Burn

variable (h : Hub) (key v : Nat)

theorem Hub.rd_burn_self : (h.burn key v).rd key = v % 2 ^ 32 :=
  Hub.rd_wr_self { h with fuse := SMap.set resetValue h.fuse key v } key v

theorem resetWord_burn (fuse : SMap Nat) (a : Nat) :
    resetWord (SMap.set resetValue fuse key v) a = if a = key then BitVec.ofNat 32 v else resetWord fuse a := by
  rw [resetWord, SMap.get_set]
  split <;> rfl

/-- Burning a register leaves every other as it was. -/
theorem Hub.rd_burn_ne {a : Nat} (ha : a ≠ key) : (h.burn key v).rd a = h.rd a := by
  have e := Hub.rd_wr_ne { h with fuse := SMap.set resetValue h.fuse key v } v ha
  refine e.trans (congrArg BitVec.toNat (SMap.get_congr_default ?_ h.regs))
  exact (resetWord_burn key v h.fuse a).trans (if_neg ha)

/-- A burnt register reads its value after a chip reset (R415, R505). -/
theorem Hub.rd_chipReset_burn (why : Nat) (hg : gazeboKey key = false) (hc : key ≠ PWR_RESET_COUNT.addr)
    (hs : key ≠ PWR_STATUS.addr) : ((h.burn key v).chipReset why).rd key = v % 2 ^ 32 := by
  have hfuse : (h.burn key v).fuse = SMap.set resetValue h.fuse key v := rfl
  rw [Hub.rd_chipReset _ why hg hc hs, hfuse, resetWord_burn, if_pos rfl, BitVec.toNat_ofNat]

end Burn

section Revoke

variable {h : Hub} {p n : Nat}

/-- The word of a slot with its revoke bit set. -/
def revokedWord (h : Hub) (n : Nat) : Nat := setBits (h.rd (SES_SLOT n).addr) 30 30 1

theorem on_revoked_of_rd {g : Hub} (e : g.rd (SES_SLOT n).addr = revokedWord h n % 2 ^ 32) :
    g.on (SES_SLOT_REVOKED n) = true := by
  have hbit : g.get (SES_SLOT_REVOKED n) = 1 := by
    have hg : g.get (SES_SLOT_REVOKED n) = bits (g.rd (SES_SLOT n).addr) 30 30 := rfl
    rw [hg, e, bits_mod _ _ _ _ (Nat.le_refl 30) (by decide), revokedWord, bits_setBits_self]
    decide
  simp [Hub.on, hbit]

theorem Hub.keyRevoke_of_other (hb : h.on SES_KEY_CTRL_BUSY = false)
    (ho : h.sesOpen p = false ∨ h.get (bank p SES_STATUS_SLOT) ≠ n) :
    h.keyRevoke p n = h.burn (SES_SLOT n).addr (revokedWord h n) := by
  refine if_neg fun hc => ?_
  rcases hc with hc | ⟨hopen, hslot⟩
  · simp [hb] at hc
  · rcases ho with ho | ho
    · simp [ho] at hopen
    · exact ho hslot

theorem Hub.keyRevoke_of_own (ho : h.sesOpen p = true) (hs : h.get (bank p SES_STATUS_SLOT) = n) :
    h.keyRevoke p n = h.set1 SES_KEY_CTRL_FAIL := if_pos (.inr ⟨ho, hs⟩)

theorem Hub.challenge_of_revoked (hr : h.on (SES_SLOT_REVOKED n) = true) :
    ((h.challenge p n).ses p).nonce = false := by
  cases hl : h.on (SES_SLOT_LOCKED n) with
  | false =>
    rw [Hub.challenge_of_refused (Hub.challengeWhy_of_unlocked hl)]
    exact (h.sesRefuse_reports p (by decide)).1
  | true =>
    rw [Hub.challenge_of_refused (Hub.challengeWhy_of_revoked hl hr)]
    exact (h.sesRefuse_reports p (by decide)).1

theorem Hub.respond_of_revoked (hn : (h.ses p).nonce = true) (hr : h.on (SES_SLOT_REVOKED (h.ses p).slot) = true) :
    h.respond p = h.sesRefuse p 4 := by
  simp [Hub.respond, hn, hr]

/-- No slot register is among those a chip reset keeps or writes. -/
theorem slotRegs_reset : ∀ n : Fin 4, gazeboKey (SES_SLOT n).addr = false ∧
    (SES_SLOT n).addr ≠ PWR_RESET_COUNT.addr ∧ (SES_SLOT n).addr ≠ PWR_STATUS.addr := by
  decide

theorem bank_status_ne_slot (k : Nat) (n : Fin 4) : (bank k SES_STATUS).addr ≠ (SES_SLOT n).addr := by
  have hn := n.isLt
  simp only [bank, SES_STATUS, SES_SLOT]
  omega

end Revoke

/-- Settles O48: the revoke bit is burnt, and a step under a revoked slot is `sesRefuse`. -/
theorem revocationIsForGood : Obligations.RevocationIsForGood := by
  intro h p n _ hb
  refine ⟨fun ho => ?_, fun ho hs => ?_, fun hr => ⟨Hub.challenge_of_revoked hr, fun hn hslot => ?_⟩,
    by decide, by decide⟩
  · obtain ⟨hg, hc, hs⟩ := slotRegs_reset n
    rw [Hub.keyRevoke_of_other hb ho]
    exact ⟨on_revoked_of_rd (h.rd_burn_self _ _), fun why => on_revoked_of_rd (h.rd_chipReset_burn _ _ why hg hc hs),
      fun k => h.rd_burn_ne _ _ (bank_status_ne_slot k n)⟩
  · rw [Hub.keyRevoke_of_own ho hs]
    exact h.set1_reports (by decide) (by decide)
  · rw [Hub.respond_of_revoked hn (by rw [hslot]; exact hr)]
    exact ⟨h.get_slot_sesRefuse p 4, Hub.sesOpen_of_sesRefuse, (h.sesRefuse_reports p (by decide)).1⟩

end Sys2Proof.Machine
end

section
/-! Accesses that a path's session does not grant (R423, R424). -/

namespace Sys2Proof.Machine

/-! ## Wards that are lacking -/

/-- A ward that is needed and lacking is left of what is needed. -/
theorem clearMask_ne_zero {need held i : Nat} (hn : bit need i = true) (hl : bit held i = false) :
    clearMask need held ≠ 0 := by
  intro h0
  have hle : need ≤ need &&& held := by rw [clearMask] at h0; omega
  have heq : need &&& held = need := Nat.le_antisymm Nat.and_le_left hle
  rw [bit_eq_testBit] at hn hl
  have hand : (need &&& held).testBit i = (need.testBit i && held.testBit i) := Nat.testBit_and ..
  rw [heq, hn, hl] at hand
  exact absurd hand (by decide)

/-! ## Where an access needs a session and a ward -/

section Ranges

variable {a : Nat}

/-- R424 opens these addresses alone to a path without a session. -/
theorem openRange_eq_false (hal : a % 4 = 0) (hlo : 0x108 ≤ a)
    (hout : a < 0x200 ∨ 0x310 ≤ a ∨ a = SES_IDLE_LIMIT.addr) : openRange a = false := by
  simp only [SES_IDLE_LIMIT] at hout
  simp only [openRange, hal, Nat.sub_zero, Bool.or_eq_false_iff, Bool.and_eq_false_iff, decide_eq_false_iff_not,
    bne_eq_false_iff_eq, Nat.not_lt, Nat.not_le]
  omega

theorem openRange_of_beyond (hal : a % 4 = 0) (hlo : 0x310 ≤ a) : openRange a = false :=
  openRange_eq_false hal (by omega) (.inr (.inl hlo))

theorem sessionOnly_of_beyond (hal : a % 4 = 0) (hlo : 0x310 ≤ a) : sessionOnly a = false := by
  simp only [sessionOnly, hal, Nat.sub_zero, Bool.or_eq_false_iff, beq_eq_false_iff_ne]
  omega

end Ranges

/-! ## What a write of the chip's pages needs (R423) -/

/-- The ward, as a bit of SES_STATUS.WARDS, that a write of page `w` of the chip needs: FIRMWARE for the keepers, SHAPE
for filters, records and calibration, TRIM for the excitations, and RUN for the rest. -/
def pageWard (w : Nat) : Nat :=
  if w = 3 then 4 else if w = 4 ∨ w = 11 ∨ w = 12 then 2 else if w = 15 then 3 else 1

section Pages

variable {a : Nat}

theorem pageWard_run (ha : (0x10000 ≤ a ∧ a < 0x30000) ∨ (0x50000 ≤ a ∧ a < 0xB0000) ∨ (0xD0000 ≤ a ∧ a < 0xF0000)) :
    pageWard (a / 0x10000) = 1 := by
  unfold pageWard
  split_ifs <;> omega

theorem pageWard_shape (ha : (0x40000 ≤ a ∧ a < 0x50000) ∨ (0xB0000 ≤ a ∧ a < 0xD0000)) :
    pageWard (a / 0x10000) = 2 := by
  unfold pageWard
  split_ifs <;> omega

theorem pageWard_trim (hlo : 0xF0000 ≤ a) (hlt : a < 0x100000) : pageWard (a / 0x10000) = 3 := by
  unfold pageWard
  split_ifs <;> omega

theorem pageWard_firmware (hlo : 0x30000 ≤ a) (hlt : a < 0x40000) : pageWard (a / 0x10000) = 4 := by
  unfold pageWard
  split_ifs <;> omega

end Pages

section PageWards

variable {a : Nat} {h : Hub} {m : Nat} {w : Bool}

theorem place_of_presented (hlt : a < 0x100000) (hal : a % 4 = 0) (hp : h.presented m a w = true) :
    ∃ l, place a = .reg l := by
  cases hl : locate a with
  | some l => exact ⟨l, by simp [place, hal, hl]⟩
  | none =>
    have hhole : place a = .hole := by
      simp only [place, hal, Nat.sub_zero, hl]
      rw [if_neg (by omega), if_neg (by omega), if_neg (by omega), if_neg (by omega)]
    simp [Hub.presented, hhole] at hp

theorem bit_writeWards_page {l : Loc} (hpl : place a = .reg l) (hal : a % 4 = 0) (hlo : 0x10000 ≤ a)
    (hlt : a < 0x100000) : bit (writeWards a) (pageWard (a / 0x10000)) = true := by
  have hw1 : 1 ≤ a / 0x10000 := by omega
  have hw2 : a / 0x10000 ≤ 15 := by omega
  have hreg : ¬ 0x01000000 ≤ a := by omega
  simp only [writeWards, hal, Nat.sub_zero, hpl, if_neg hreg]
  generalize a / 0x10000 = w at *
  rcases Nat.lt_trichotomy w 9 with h9 | rfl | h9
  · interval_cases w <;> simp only <;> decide
  · -- the broadcast registers need TRIM beside RUN
    simp only
    split <;> decide
  · interval_cases w <;> simp only <;> decide

theorem writeWards_key {l : Loc} (hpl : place a = .reg l) (hal : a % 4 = 0) (hlo : 0x310 ≤ a) (hlt : a < 0x10000) :
    writeWards a = wKeys := by
  have hreg : ¬ 0x01000000 ≤ a := by omega
  have hpage : a / 0x10000 = 0 := by omega
  simp only [writeWards, hal, Nat.sub_zero, hpl, if_neg hreg, hpage, if_pos hlo]

end PageWards

/-- SES_KEY_CTRL and SES_KEY_DATA lie on page 0, above what is open. -/
theorem keyRegs_range {a : Nat} (hk : a = SES_KEY_CTRL.addr ∨ ∃ k : Fin 8, a = (SES_KEY_DATA k).addr) :
    0x310 ≤ a ∧ a < 0x10000 := by
  obtain rfl | ⟨k, rfl⟩ := hk
  · decide
  · have hk := k.isLt
    simp only [SES_KEY_DATA]
    omega

/-! ## Refused accesses -/

section Granted

variable {h : Hub} {m a : Nat}

theorem Hub.granted_of_no_session {w : Bool} (hm : m < 2) (ho : openRange a = false)
    (hs : h.sesOpen (pathOf m) = false) : h.granted m a w = false := by
  simp [Hub.granted, isKeeper, Nat.not_le.mpr hm, ho, hs]

/-- A path that lacks a ward the access needs is refused. -/
theorem Hub.granted_of_lacking {w : Bool} {i : Nat} (hm : m < 2) (hal : a % 4 = 0) (hlo : 0x310 ≤ a)
    (hp : h.presented m a w = true) (hn : bit (if w then writeWards a else wObserve) i = true)
    (hl : bit (h.get (bank (pathOf m) SES_STATUS_WARDS)) i = false) : h.granted m a w = false := by
  have hclear := clearMask_ne_zero hn hl
  simp [Hub.granted, isKeeper, Nat.not_le.mpr hm, openRange_of_beyond hal hlo, sessionOnly_of_beyond hal hlo, hp, hclear]

theorem Hub.act_of_not_granted {op : BusOp} (hle : a ≤ 0xFFFFFFFC) (hg : h.granted m a op.writes = false) :
    h.act m a [op] = h := by
  have hall : h.allGranted m a false [op] = false := by
    simp [Hub.allGranted, busItems_one 0 a op hle, hg]
  simp [Hub.act, hall]

end Granted

/-- Settles O46: an access to which a session or a ward is lacking is not granted, and is then nothing at all. -/
theorem accessesNeedTheirWards : Obligations.AccessesNeedTheirWards := by
  intro s m addr v ha hm hal a p lacks inside
  have hle : a ≤ 0xFFFFFFFC := by
    have hlt := addr.isLt
    simp only [a]
    omega
  have hwrite : s.hub.granted m a true = false → exec (.registerWrite m addr v) s = .next s := by
    intro hg
    have e : exec (.registerWrite m addr v) s = s.actAwake fun h => h.busWrite m addr.toNat v.toNat := rfl
    have hact : s.hub.busWrite m addr.toNat v.toNat = s.hub := Hub.act_of_not_granted (op := .write v.toNat) hle hg
    rw [e, State.actAwake_of_awake ha, hact]
  have hread : s.hub.granted m a false = false → exec (.read64Low m addr) s = .next s := by
    intro hg
    have e : exec (.read64Low m addr) s = s.actAwake fun h => h.busRead m addr.toNat := rfl
    have hact : s.hub.busRead m addr.toNat = s.hub := Hub.act_of_not_granted (op := .read) hle hg
    rw [e, State.actAwake_of_awake ha, hact]
  refine ⟨fun hs hlo hout => ?_, fun _ hp hneed => hwrite ?_, fun _ hp hlo hl => hread ?_⟩
  · have hopen := openRange_eq_false hal hlo hout
    exact ⟨hwrite (Hub.granted_of_no_session hm hopen hs), hread (Hub.granted_of_no_session hm hopen hs)⟩
  · have hpage : 0x10000 ≤ a → a < 0x100000 → lacks (pageWard (a / 0x10000)) → s.hub.granted m a true = false := by
      intro hlo hlt hl
      obtain ⟨l, hpl⟩ := place_of_presented hlt hal hp
      exact Hub.granted_of_lacking hm hal (by omega) hp (bit_writeWards_page hpl hal hlo hlt) hl
    rcases hneed with ⟨hrun, hl⟩ | ⟨hshape, hl⟩ | ⟨htrim, hl⟩ | ⟨hfirmware, hl⟩ | ⟨hkey, hl⟩
    · exact hpage (by omega) (by omega) (by rwa [pageWard_run hrun])
    · exact hpage (by omega) (by omega) (by rwa [pageWard_shape hshape])
    · exact hpage (by omega) (by omega) (by rwa [pageWard_trim htrim.1 htrim.2])
    · exact hpage (by omega) (by omega) (by rwa [pageWard_firmware hfirmware.1 hfirmware.2])
    · obtain ⟨hlo, hlt⟩ := keyRegs_range hkey
      obtain ⟨l, hpl⟩ := place_of_presented (by omega) hal hp
      refine Hub.granted_of_lacking hm hal hlo hp (i := 5) ?_ hl
      rw [if_pos rfl, writeWards_key hpl hal hlo hlt]
      decide
  · exact Hub.granted_of_lacking hm hal hlo hp (i := 0) (by rw [if_neg Bool.false_ne_true]; decide) hl

end Sys2Proof.Machine
end
